-- ==== Sys2Proof/Word.lean ====
section
/-! DEFINITION. The word types of the part: bytes, the register widths, and sparse maps by number. -/
namespace Sys2Proof

/-- A byte of any store (04 R80, 00 R4). -/
abbrev Byte := BitVec 8
/-- A 16-bit half word. -/
abbrev W16 := BitVec 16
/-- A 32-bit register word (17 R430). -/
abbrev W32 := BitVec 32
/-- A 64-bit word: scalar registers (05 R118), fabric times (02 R22), watch words (11 R302). -/
abbrev W64 := BitVec 64

/-- Sparse data by number: entries with rising keys; what an unlisted key reads as is given where the map is read. -/
abbrev MapOf (α : Type) := List (Nat × α)

end Sys2Proof
end

