-- ==== Sys2Proof/Config.lean ====
section
/-! DEFINITION. The numbers that fix this member (00 R5, 17 Table 5) and the free values: constants without a body, for everything the spec leaves open. -/
namespace Sys2Proof.Config

/-- Tiles software sees (17 Table 5, ACTIVE). -/
def tiles : Nat := 68
/-- Physical tiles (01 Table 1). -/
def physTiles : Nat := 72
/-- HBM stacks (01 Table 1). -/
def stackCount : Nat := 8
/-- Limrad ports (01 Table 1). -/
def ports : Nat := 32
/-- Quadrants (01 R10). -/
def quads : Nat := 4
/-- Contexts (17 Table 5). -/
def contexts : Nat := 64
/-- Submission queues (17 Table 5). -/
def sqs : Nat := 1024
/-- Completion queues (17 Table 5). -/
def cqs : Nat := 256
/-- General cores (17 Table 5). -/
def cores : Nat := 32
/-- Watch words (17 Table 5). -/
def watchWords : Nat := 16384
/-- Watch entries. -/
def watchEntries : Nat := 96
/-- Vane entries. -/
def vanes : Nat := 256
/-- Seal entries (17 Table 5). -/
def seals : Nat := 64
/-- One beat in ftu (02 R24). -/
def beat : Nat := 1048576
/-- 64 ns in ftu (17 R440). -/
def seqGap : Nat := 65536
/-- The nominal increment of FT_NOW, 640 × 2^32 (02 R22). -/
def incrNominal : Nat := 0x28000000000
/-- One part in a million of the nominal increment (02 R33). -/
def incrPpm : Nat := 2748779

/-- FREE VALUE: the n-th value the part chooses where the spec leaves a 64-bit value open (log 4). The counter that
numbers them is `Dev.free`. -/
opaque freeWord : Nat → BitVec 64

/-- FREE VALUE: the fuses of the member (17 Table 4 SERIAL, 16 Table 8): the serial number (log 5). -/
opaque serial : BitVec 64

/-- FREE VALUE: the 16-byte tag that AES-256-GCM gives a packet under a key, session value and packet count (13 R376);
the cipher is a named standard whose text the spec does not hold (log 8). -/
opaque sealTag : (key session count : Nat) → List (BitVec 8) → BitVec 128
/-- FREE VALUE: AES-256-GCM of a sealed port (13 R376; log 8): byte `index` of the key stream that a key, session value and count give. -/
opaque sealStream : (key session count index : Nat) → BitVec 8
/-- FREE VALUE: parity symbol `i` of the RS(544,514) codeword of a message: the spec names the code by its size alone (13 R350;
log 17). -/
opaque rsParity : (message : List (BitVec 10)) → (i : Nat) → BitVec 10

/-- FREE VALUE: what RFC 8878 decodes a compressed block to, after the bytes of its frame that stand before it and under a
dictionary; none where it is malformed. The rule names the standard, whose text the spec does not hold (15 R407; log 24). -/
opaque zstdBlock : (dict before block : List (BitVec 8)) → Option (List (BitVec 8))
/-- FREE VALUE: the checksum of a frame's content (15 R407; log 24). -/
opaque xxh64 : List (BitVec 8) → BitVec 64
/-- FREE VALUES: AES-256-GCM of an ingest engine: byte i of a key stream, and the tag (15, NIST SP 800-38D; log 24). -/
opaque gcmStream : (key iv : List (BitVec 8)) → (i : Nat) → BitVec 8
opaque gcmTag : (key iv aad cipher : List (BitVec 8)) → List (BitVec 8)

/-- FREE VALUE: whether, in the plan of a group, a gradient entry's shard is of the tensor of a trust entry: no field of the
plan says which (09 R264; log 21). -/
opaque ofTensor : (group trust gradient : Nat) → Bool

/-- FREE VALUE: the millivolts that the fused table of a part gives an AVS rail for a tile clock in MHz and a temperature
(18 R455; log 22). -/
opaque avsMv : (rail mhz temp : Nat) → BitVec 16

/-! ## FREE VALUES of named standards and of manufacture (16; log 8): the text of the standards is not in the spec. -/

/-- FREE VALUE: the n bytes that SHAKE256 gives for a message (FIPS 202; 16 R411). -/
opaque shake256 : (n : Nat) → List (BitVec 8) → List (BitVec 8)
/-- FREE VALUE: the unique device secret (16 R412). -/
opaque uds : List (BitVec 8)
/-- FREE VALUE: the Ed448 public key of a seed (RFC 8032; 16 R411). -/
opaque ed448Public : List (BitVec 8) → List (BitVec 8)
/-- FREE VALUE: the Ed448 signature of a message under a seed (RFC 8032; 16 R411). -/
opaque ed448Sign : List (BitVec 8) → List (BitVec 8) → List (BitVec 8)
/-- FREE VALUE: whether a signature verifies under the root key of an index (16 R413, R416, R425). -/
opaque rootVerify : (index : Nat) → (message signature : List (BitVec 8)) → Bool
/-- FREE VALUE: whether an interface version is compatible with that of the other clusters (15 R405). -/
opaque interfaceFits : Nat → Bool
/-- FREE VALUE: the certificate chain that ends in an alias public key (16 R412). -/
opaque certChain : List (BitVec 8) → List (BitVec 8)
/-- FREE VALUE: a key blob sealed to a sealing root, and what a blob holds under it (16 R418). -/
opaque wrapBlob : (root blob : List (BitVec 8)) → List (BitVec 8)
opaque unwrapBlob : (root blob : List (BitVec 8)) → Option (List (BitVec 8))
/-- FREE VALUE: the public key of the ephemeral secret of a number, and the secret it shares with a public key
(secp384r1; 16 R423). -/
opaque ecdhPublic : Nat → List (BitVec 8)
opaque ecdhSecret : Nat → List (BitVec 8) → List (BitVec 8)
/-- FREE VALUE: what a 64-byte block reads as when its contents from before a region was opened are decrypted under the
region's keys and generation (AES-256-XTS; 07 R195). -/
opaque xtsRead : (key gen location : Nat) → List (BitVec 8) → List (BitVec 8)

end Sys2Proof.Config
end

