-- ==== Sys2Proof/Syntax.lean ====
section
/-! DEFINITION. The commands of the part: one constructor of `Instr` per row of spec/opcode_table.json, and the operand types they carry. -/
namespace Sys2Proof

/-- A register requester (17 R431): one PCI Express function (0 the physical function, c + 1 the virtual function of
context c), one general core (with whether it is in M or HS mode, R433), or one tile half. -/
inductive Req where
  | func (f : Nat)
  | core (g : Nat) (mOrHs : Bool)
  | half (t h : Nat)
deriving DecidableEq, Repr

/-- The kinds of agent that 07 R196 tells apart. -/
inductive WhoKind where
  | engine | peer | host | ingest
deriving DecidableEq, Repr

/-- On whose behalf a memory access is made (07 R196, 11 R294): the source node and endpoint, the owner identifier
carried (0x00-0x3F context, 0x40-0x47 partition, 0xFF firmware), and whether the request came on a sealed port or in
an IDE stream whose TDISP interface is in RUN. -/
structure Who where
  kind     : WhoKind
  node     : Nat
  endpoint : Nat
  owner    : Nat
  sealed   : Bool := false
  ideRun   : Bool := false
deriving DecidableEq, Repr

/-- The atomic operations of 05 R140. -/
inductive AtomOp where
  | add | swap | cas | maxu | maxs | sig
deriving DecidableEq, Repr

/-- A memory operation: a read of `len` bytes, a write of bytes, or an indivisible 64-bit operation (05 R140). -/
inductive MemOp where
  | read   (len : Nat)
  | write  (data : List Byte)
  | atomic (op : AtomOp) (x c : W64)
deriving DecidableEq, Repr

/-- A hardware upset that a command brings with it (07 R203, R205): of the block or word at its address, or of the weight
stage of a physical lane, which has no address. -/
inductive Ecc where
  | clean | corrected | uncorrectable
  | stageParity (tile lane : Nat)
deriving DecidableEq, Repr

/-- The three issue queues of a tile half (03 R64). -/
inductive QueueId where
  | array | vector | movement
deriving DecidableEq, Repr

/-- Where an instruction completes that does not complete as it issues: a queue or a global operation (05 R130). -/
inductive ExecUnit where
  | queue (q : QueueId) | global (index : Nat)
deriving DecidableEq, Repr

/-- An engine of the front end (12): a tile half (half 0 stands for the whole tile in normal mode), a churn unit or a
breeze engine. -/
inductive Engine where
  | tile (t h : Nat)
  | churn (s : Nat)
  | breeze (s : Nat)
deriving DecidableEq, Repr

/-- A slip notice (02 R39): requester's node, notice number, amount in ftu, apply beat. -/
structure SlipNotice where
  requester : Nat
  number    : W16
  amount    : Nat
  applyBeat : BitVec 44
deriving DecidableEq, Repr

/-- The body of a BEAT (13 Table 11): stamp, announced master with priority, class and hops, the parent flag, and the
sender's domain. -/
structure BeatBody where
  stamp    : W64
  master   : Nat
  prio     : Nat
  external : Bool
  hops     : Nat
  parent   : Bool
  domain   : Nat
deriving DecidableEq, Repr

/-- A Limrad packet (13 Table 4): header fields and data, with the virtual channel and the CLASS bit of its flits
(13 Table 2). -/
structure Packet where
  vc       : Nat
  cls      : Bool
  dst      : Nat
  type     : Nat
  src      : Nat
  endpoint : Nat
  addr     : Nat
  len      : Nat
  seq      : W32
  rtag     : W16
  op       : Nat
  hops     : Nat
  sealed   : Bool
  kphase   : Bool
  data     : List Byte
deriving DecidableEq, Repr

/-- EXPECT of a release request (16 R418): a mask of measurement slots and the digest over them. -/
structure Expect where
  mask   : W16
  digest : List Byte
deriving DecidableEq, Repr

/-- A reply to an AVSBus poll (18 R456): millivolts, 0.1 A, degrees, status byte, and whether the status shows a fault. -/
structure AvsReply where
  mv     : W16
  deciA  : W16
  degC   : Byte
  status : Byte
  fault  : Bool
deriving DecidableEq, Repr

/-- What a read of configuration space asks for (14 R381): the capabilities present, or the state of one of them. -/
inductive CfgItem where
  | capabilities | command | deviceControl | power | link | msixControl | atsControl | sriovControl | resizable | aerStatus
deriving DecidableEq, Repr

/-- What a host configuration request sets (14 R383, R386, R391, R393; 20 R505). -/
inductive CfgReq where
  | read (func : Nat) (item : CfgItem)
  | busMaster (func : Nat) (on : Bool)
  | memorySpace (func : Nat) (on : Bool)
  | vfEnable (on : Bool) (numVfs : Nat)
  | bar4Size (log2 : Nat)
  | vfBar4Size (log2 : Nat)
  | functionMask (func : Nat) (on : Bool)
  | msixEnable (func : Nat) (on : Bool)
  | atsEnable (func : Nat) (on : Bool)
  | maxPayload (func code : Nat)
  | maxReadRequest (func code : Nat)
  | completionTimeout (func ms : Nat)
  | powerState (func : Nat) (hot : Bool)
deriving DecidableEq, Repr

/-- What a received poisoned TLP was, or what a timed-out host read was for (14 R396). -/
inductive HostRead where
  | write | descriptor (q : Nat) | adminCommand (c : Nat) | cqRing (c : Nat) | coreRead (g : Nat)
deriving DecidableEq, Repr

/-- How far a half had come when it froze or stopped (03 R73, R74): the activation rows of the array instruction in progress
that have been added, and for each movement channel the portions of 4 KiB moved. -/
structure CutAt where
  rows  : Nat
  moves : List Nat
deriving DecidableEq, Repr

/-- A part of a patrol scrub pass (07 R204): the errors found, by stack offset, and how far the pass has come. -/
structure ScrubPart where
  found : List (Nat × Ecc)
  upTo  : Nat
deriving DecidableEq, Repr

/-- A stack's breeze engine with the rows it has written when its end comes (08 R238). -/
structure RowCut where
  stack : Nat
  upTo  : Nat
deriving DecidableEq, Repr

/-- What the schedule that GROUP_SET names says (09 R246-R249, R255; 10 R267; 12 R328): where it stands; by plan entry, with
2^32 for the norm bucket, the deadline of a bucket in ftu from the start of an attempt on the main path and from the drain
vane otherwise; the scheduled queues enabled at the start of an attempt on each path; and those that resend from
retention. -/
structure Schedule where
  addr       : W64
  mainDue    : MapOf W64
  fallDue    : MapOf W64
  mainQueues : List Nat
  fallQueues : List Nat
  resend     : List Nat
deriving DecidableEq, Repr

/-- A topology change (19 R491): the new group record, and by stack a churn descriptor of each shard lost and of each shard to
be mirrored anew. -/
structure Topology where
  record  : W64
  lost    : List (Nat × List Byte)
  mirrors : List (Nat × List Byte)
deriving DecidableEq, Repr

/-- What training a port found (13 R349, R373): the lanes that are healthy, the healthiest of each direction, and whether the
partner asks for four. -/
structure Training where
  healthy : BitVec 9
  rx      : List Nat
  tx      : List Nat
  narrow  : Bool
deriving DecidableEq, Repr

/-- A flit as the receiver's decoder gives it (13 R350, R352): its bytes, its flit sequence number, and the symbols corrected
since the flit before. -/
structure RxFlit where
  bytes : List Byte
  seq   : W16
  fixed : Nat
deriving DecidableEq, Repr

/-- The mode in which a PCI Express link trains (14 R382): FLIT mode, or a change of width by L0p. -/
structure FlitMode where
  flit : Bool
  l0p  : Bool
deriving DecidableEq, Repr

/-- A posted write of the host to a register (11 R301): its bytes, its Relaxed Ordering attribute, and whether it is still in
flight when its command ends. -/
structure PostedWrite where
  data     : List Byte
  relaxed  : Bool
  inFlight : Bool
deriving DecidableEq, Repr

/-- How a host access to BAR4 comes (11 R301, 14 R388): in the IDE stream of a function, and as in `PostedWrite`. -/
structure HostAttr where
  ideRun   : Bool
  relaxed  : Bool
  inFlight : Bool
deriving DecidableEq, Repr

/-- Where a checkpoint goes, and the local ranges that it holds (15 Table 3). -/
structure SavePlace where
  addr   : W64
  ranges : List (Nat × Nat)
deriving DecidableEq, Repr

/-- THE COMMANDS. One constructor per row of spec/opcode_table.json, in the table's order. Tiles are logical numbers,
halves 0 or 1, stacks 0-7, ports 0-31, quadrants 0-3. An Alanko instruction is given as its 64-bit word (05 R113). -/
inductive Instr where
  -- fabric time (02)
  | beatBoundary
  | noticeExpiry (requester : Nat) (number : W16)
  | beatReceived (port : Nat) (body : BeatBody)
  | masterElected
  | lockAcquired
  | parentLost
  | probeExchange (port : Nat)
  | probe (port : Nat) (reply : Bool) (t1 t2 t3 : W64)
  | ftPpsEdge
  | ppsMissing
  | ftEpochArm (req : Req) (hi : W32)
  | ftDisable (req : Req) (val : W32)
  | slipRequest (req : Req) (val : W32)
  | slip (port : Nat) (notice : SlipNotice)
  -- Alanko control (05)
  | nop (t h : Nat) (w : W64)
  | alu (t h : Nat) (w : W64)
  | addi (t h : Nat) (w : W64)
  | andi (t h : Nat) (w : W64)
  | ori (t h : Nat) (w : W64)
  | xori (t h : Nat) (w : W64)
  | shi (t h : Nat) (w : W64)
  | liLo (t h : Nat) (w : W64)
  | liHi (t h : Nat) (w : W64)
  | ld (t h : Nat) (w : W64)
  | st (t h : Nat) (w : W64)
  | cmp (t h : Nat) (w : W64)
  | cmpi (t h : Nat) (w : W64)
  | pop (t h : Nat) (w : W64)
  | br (t h : Nat) (w : W64)
  | bdec (t h : Nat) (w : W64)
  | brr (t h : Nat) (w : W64)
  | rdsr (t h : Nat) (w : W64)
  | tokSig (t h : Nat) (w : W64)
  | tokWait (t h : Nat) (w : W64)
  | tokWaitRelease (t h : Nat)
  | fenceRel (t h : Nat) (w : W64)
  | fenceAcq (t h : Nat) (w : W64)
  | fenceAll (t h : Nat) (w : W64)
  | fenceRelease (t h : Nat)
  | waitFt (t h : Nat) (w : W64)
  | waitFtRelease (t h : Nat)
  | waitW (t h : Nat) (w : W64)
  | waitWDeadline (t h : Nat)
  | endTask (t h : Nat) (w : W64)
  | taskFinish (t h : Nat)
  | mv (t h : Nat) (w : W64)
  | ldg (t h : Nat) (w : W64)
  | stg (t h : Nat) (w : W64)
  | atom (t h : Nat) (w : W64)
  | atomSig (t h : Nat) (w : W64)
  | reservedOpcode (t h : Nat) (w : W64)
  -- Alanko array and vector (06)
  | mma (t h : Nat) (w : W64)
  | mmaX2 (t h : Nat) (w : W64)
  | mmaX3 (t h : Nat) (w : W64)
  | mmaS (t h : Nat) (w : W64)
  | mmaM (t h : Nat) (w : W64)
  | dist (t h : Nat) (w : W64)
  | wl (t h : Nat) (w : W64)
  | wld (t h : Nat) (w : W64)
  | vop (t h : Nat) (w : W64)
  | vfn (t h : Nat) (w : W64)
  | vcmp (t h : Nat) (w : W64)
  | vsel (t h : Nat) (w : W64)
  | vmov (t h : Nat) (w : W64)
  | vld (t h : Nat) (w : W64)
  | vst (t h : Nat) (w : W64)
  | epRd (t h : Nat) (w : W64)
  | epWr (t h : Nat) (w : W64)
  | epCvt (t h : Nat) (w : W64)
  | epL2 (t h : Nat) (w : W64)
  | vtag (t h : Nat) (w : W64)
  | vred (t h : Nat) (w : W64)
  | vmv (t h : Nat) (w : W64)
  | vtopk (t h : Nat) (w : W64)
  -- tile events (03, 05)
  | queuedInstructionStart (t h : Nat) (q : QueueId)
  | instructionComplete (t h : Nat) (u : ExecUnit)
  | tokenSignal (t h tok : Nat)
  | moveDescriptor (t ch : Nat)
  | moveDescriptorComplete (t ch : Nat)
  | halfFrozen (t h : Nat) (cut : CutAt)
  | tilHalt (req : Req) (t : Nat) (val : W32)
  | halfStopped (t h : Nat) (cut : CutAt)
  | tilRelease (req : Req) (t h : Nat) (val : W32)
  | tilDoorbell (req : Req) (t h : Nat) (val : W32)
  | tileWindowAccess (who : Who) (t off : Nat) (op : MemOp)
  | taskStart (t h : Nat)
  | bankExchange (t h : Nat)
  | modeChange (t : Nat) (twin : Bool)
  -- memory (07)
  | memoryAccess (who : Who) (addr : W64) (op : MemOp) (ecc : Ecc)
  | syncWordCommit (who : Who) (word : Nat) (op : MemOp)
  | patrolScrub (stack : Nat) (part : ScrubPart)
  | retire (req : Req) (stack : Nat) (val : W32)
  | release (req : Req) (stack : Nat) (val : W32)
  | sppr (req : Req) (stack : Nat) (val : W32)
  | retirementComplete (stack : Nat)
  | pprComplete (stack : Nat) (ok : Bool)
  | lostFirst (req : Req) (stack : Nat)
  | lostNext (req : Req) (stack : Nat)
  -- vat, churn, breeze (08)
  | bucketOpen (req : Req) (stack bucket : Nat)
  | bucketClose (req : Req) (stack bucket : Nat)
  | bucketRelease (req : Req) (stack bucket : Nat)
  | bucketCmdReserved (req : Req) (stack bucket : Nat)
  | zeroingDone (stack bucket : Nat)
  | contributionData (who : Who) (stack off : Nat) (data : List Byte)
  | endMarker (who : Who) (stack off : Nat) (val : W64)
  | bucketDeadline (stack bucket : Nat)
  | bucketFinal (stack bucket : Nat)
  | churnDescriptorStart (stack : Nat)
  | churnNormReady (stack : Nat)
  | churnNoNorm (stack : Nat)
  | churnBlock (stack : Nat)
  | mirrorAck (stack : Nat)
  | mirrorFail (stack : Nat)
  | lambPairAck (stack : Nat)
  | churnDescriptorEnd (stack : Nat)
  | breezeDescriptor (stack : Nat)
  | breezeEnd (cut : RowCut)
  -- the step (09, 10, 19)
  | stepAttemptStart
  | drainVane
  | reReduction
  | normPartial
  | normWordPublish
  | normWordForward
  | trustPairPublish (plan : Nat)
  | lambMarker (plan : Nat)
  | ownerLockLost
  | crossDomainTimeout (stack bucket : Nat)
  | vote
  | verdictPublish
  | verdictDeadline
  | verdictApply
  | topologyChange (change : Topology)
  | stepReplay
  -- synchronisation (11)
  | ledgerOpen (node endpoint : Nat)
  | ledgerClose (node endpoint : Nat)
  | writeLanded (node endpoint count : Nat)
  | releaseSignal (who : Who) (addr : Nat) (val : W64) (count : W32) (rtag : W16)
  | signalRetry (index : Nat)
  | holdTimeout (index : Nat)
  | watchArm (req : Req) (n : Nat) (val : W32)
  | vaneBreak (req : Req) (n : Nat)
  | vaneReset (req : Req) (n : Nat)
  | lullEnter (t : Nat)
  | lullWake (t : Nat)
  | lullLeadAdapt
  -- the front end (12)
  | sqDoorbell (func q : Nat) (val : W32)
  | descriptorFetch (q : Nat) (data : Option (List Byte))
  | dispatch (e : Engine)
  | draughtPreloadDone (e : Engine)
  | draughtDiscard (e : Engine)
  | taskTimeout (e : Engine)
  | windowClose (q : Nat)
  | completionSeqWrite (cq : Nat)
  | cqDoorbell (req : Req) (cq : Nat) (val : W32)
  | cqResume (req : Req) (cq : Nat) (val : W32)
  | stopAck (q : Nat) (e : Engine)
  | allotmentWrite (req : Req) (off : Nat) (val : W32)
  | adminDoorbell (req : Req) (ctx : Nat) (val : W32)
  | adminCqDoorbell (req : Req) (ctx : Nat) (val : W32)
  | adminResume (req : Req) (ctx : Nat) (val : W32)
  | createCq (ctx : Nat) (cmd : List Byte)
  | destroyCq (ctx : Nat) (cmd : List Byte)
  | createSq (ctx : Nat) (cmd : List Byte)
  | destroySq (ctx : Nat) (cmd : List Byte)
  | pauseSq (ctx : Nat) (cmd : List Byte)
  | stopSq (ctx : Nat) (cmd : List Byte)
  | resumeSq (ctx : Nat) (cmd : List Byte)
  | setWindow (ctx : Nat) (cmd : List Byte)
  | clearWindow (ctx : Nat) (cmd : List Byte)
  | resumeCq (ctx : Nat) (cmd : List Byte)
  | invalidOpcode (ctx : Nat) (cmd : List Byte)
  | feSqPause (req : Req) (q : Nat)
  | feSqStop (req : Req) (q : Nat)
  | feSqResume (req : Req) (q : Nat)
  | svcDoorbell (req : Req) (ctx : Nat) (val : W32)
  -- links (13)
  | portEnable (p : Nat)
  | portDisable (p : Nat)
  | signalDetect (p : Nat)
  | trainComplete (p : Nat)
  | alignComplete (p : Nat) (found : Training)
  | capabilityRecord (p : Nat) (rec : List Byte)
  | portActive (p : Nat)
  | flitReceived (p : Nat) (flit : RxFlit) (fecOk tagOk : Bool)
  | linkControlFlit (p : Nat) (body : List Byte)
  | linkControlSend (p : Nat)
  | replayTimeout (p : Nat)
  | swapReq (p lane : Nat)
  | swapAck (p : Nat) (swapSeq : W32)
  | swapDone (p : Nat)
  | retrainReq (p : Nat)
  | retrainAck (p : Nat)
  | retrainComplete (p : Nat) (found : Training)
  | retrainMaxExpiry (p : Nat)
  | laneErrorCheck (p : Nat) (counts : List Nat)
  | laneSwapCmd (req : Req) (p : Nat) (val : W32)
  | partnerLost (p : Nat)
  | portRejoin (req : Req) (p : Nat)
  | retrainRequest (req : Req) (p : Nat)
  | portDrain (p : Nat)
  | portUndrain (p : Nat)
  | portDrained (p : Nat)
  | packetForward (p : Nat) (pk : Packet)
  | write (p : Nat) (pk : Packet)
  | read (p : Nat) (pk : Packet)
  | atomic (p : Nat) (pk : Packet)
  | signal (p : Nat) (pk : Packet)
  | openReq (p : Nat) (pk : Packet)
  | close (p : Nat) (pk : Packet)
  | readResp (p : Nat) (pk : Packet)
  | ack (p : Nat) (pk : Packet)
  | atomicResp (p : Nat) (pk : Packet)
  | control (p : Nat) (pk : Packet)
  | sealMsg (p : Nat) (pk : Packet) (chainOk : Bool)
  | packetReservedType (p : Nat) (pk : Packet)
  | responseTimeout (rtag : W16)
  | controlPacketSend (req : Req) (val : W32)
  | ctrlStopSq (q : Nat)
  | ctrlPauseSq (q : Nat)
  | drainPort (p : Nat)
  | undrainPort (p : Nat)
  | quiesceTile (t : Nat)
  | breakVane (n : Nat)
  | controlOther (p : Nat) (pk : Packet)
  | linkRekey (p : Nat)
  -- PCI Express (14)
  | pcieLinkTrain (rate width : Nat) (mode : FlitMode)
  | bar0Access (func off len : Nat) (wr : Option PostedWrite)
  | bar4Access (off : Nat) (op : MemOp) (how : HostAttr)
  | vfBar4Access (ctx off : Nat) (op : MemOp) (how : HostAttr)
  | vfFlr (ctx : Nat)
  | hotReset
  | atsInvalidate (func : Nat) (page : Nat)
  | dlDown
  | msixUnmask (func entry : Nat)
  | poisonedTlp (what : HostRead)
  | completionTimeout (what : HostRead)
  -- security (16)
  | lockInterface (ctx : Nat)
  | startInterface (ctx : Nat)
  | stopInterface (ctx : Nat)
  | tdiError (ctx : Nat)
  | getMeasurements (nonce : List Byte)
  | openRegion (expect : Expect) (entry base rows owner access : Nat) (secret : List Byte)
  | closeRegion (expect : Expect) (entry : Nat)
  | bindIngestKey (expect : Expect) (slot owner : Nat) (key : List Byte)
  | unbindIngestKey (expect : Expect) (slot : Nat)
  | confine (expect : Expect) (ctx : Nat)
  | wrap (expect : Expect) (blob : List Byte)
  | unwrap (expect : Expect) (blob : List Byte)
  | measurementExtend (slot : Nat) (digest : List Byte)
  | confinedTileClear (t : Nat)
  | debugOpening (nonce token : List Byte) (scope : W32) (keyIndex : Nat)
  | svnCommit
  -- firmware services, general cores, ingest (15)
  | svcAttach (ctx : Nat) (seq vec : W32)
  | groupSet (ctx : Nat) (seq : W32) (group record : W64) (schedule : Schedule)
  | stepRun (ctx : Nat) (seq : W32) (steps : W64)
  | fallback (ctx : Nat) (seq : W32)
  | lscalePolicy (ctx : Nat) (seq : W32) (interval cap : W64)
  | stepReport (ctx : Nat) (seq : W32)
  | checkpoint (ctx : Nat) (seq : W32) (step : W64) (place : SavePlace) (sealed : Bool)
  | partLoad (ctx : Nat) (seq : W32) (part : Nat) (image : List Byte)
  | fwUpdate (ctx : Nat) (seq : W32) (cluster : Nat) (image : List Byte)
  | clusterFailover (cluster : Nat)
  | gcAccess (core : Nat) (mOrHs : Bool) (pa : W64) (op : MemOp)
  | amoRelease (core : Nat) (pa : W64) (val : W64)
  | ingRingTail (req : Req) (n r : Nat) (val : W32)
  | ingestDescriptor (n r : Nat) (loads : List (Nat × List Byte))
  | ingestEnd (n : Nat)
  | ingRingDisable (req : Req) (n r : Nat) (val : W32)
  -- registers (17)
  | registerWrite (req : Req) (off : Nat) (val : W32)
  | shadowReadLo (req : Req) (off : Nat)
  | stagedWriteLo (req : Req) (off : Nat) (val : W32)
  | stagedWriteHi (req : Req) (off : Nat) (val : W32)
  | sequenceClear (req : Req) (off : Nat) (val : W32)
  | seqAdvancePending (off : Nat)
  | crcPass
  | crcHold (req : Req) (val : W32)
  | crcCommit (req : Req) (val : W32)
  | crcRefWrite (req : Req) (val : W32)
  -- power and clocks (18)
  | ceilingEvaluate (q : Nat)
  | ceilingRise (q : Nat)
  | riseTimeout (q : Nat)
  | voltageLower (q : Nat)
  | avsPoll (rail : Nat) (reply : Option AvsReply)
  | gustTrigger (q : Nat)
  | gustRelease (q : Nat)
  | droop (phys cycles : Nat)
  | currentEstimate (q amps : Nat)
  | thermalResponse (q temp : Nat)
  | thermtrip
  | pllUnlock (q : Nat)
  | pllRelock (q : Nat)
  | refLost
  | sdrefLost (q : Nat)
  -- availability (19)
  | faultLogCommit
  | tileRetire (req : Req) (val : W32)
  | tileQuiesced
  | tileCopyComplete
  | oldTileCleared
  | bridgeLaneSwap (b : Nat)
  | bridgeLost (b : Nat)
  -- start-up (20)
  | powerUp
  | powerLoss
  | sysReset
  | sysResetRelease (fusesOk flashOk : Bool) (loaderA loaderB : List Byte)
  | loaderStart (stacksOk repairsOk : Bool) (fw : List (List Byte × List Byte)) (config : List Byte)
  | firmwareStart (repairs : List (Nat × Nat)) (granules : List (Nat × Nat × Nat))
  | perst (low : Bool)
  | pcieConfigReady
  | smbusStageRead
  -- later rows of the table
  | laneLockLoss (p lane : Nat)
  | signalLoss (p : Nat)
  | configurationRequest (what : CfgReq)
  | spdmKeyExchange (session : Nat)
  | ideKm (func : Nat) (key : List Byte)
  | pldmFirmwareUpdate (cluster : Nat) (image : List Byte)
  | sealPacketLimit (p : Nat)
  | stackTemperature (stack temp : Nat)
  | windowOpen (q : Nat)
  | wakeComplete (t latencyNs : Nat)
  | regionZeroed (entry : Nat)
  | atsTranslation (cq : Nat) (writable : Bool)
  | malformedTlp
deriving DecidableEq, Repr

end Sys2Proof
end

