-- ==== Sys2Proof/WellFormed.lean ====
section
/-! DEFINITION. Well-formed commands: every index names a resource of this member (00 R5, 17 Table 5), and a word, a packet or an admin command is one that its command stands for. -/
namespace Sys2Proof

/-- Bits [hi:lo] of an Alanko word. -/
def wordBits (w : W64) (hi lo : Nat) : Nat := w.toNat / 2 ^ lo % 2 ^ (hi + 1 - lo)
/-- The opcode of an Alanko word (05 Table 1). -/
def wordOpcode (w : W64) : Nat := wordBits w 63 57

/-- A tile half that exists (03 R50, 05 R114). -/
def halfOk (t h : Nat) : Bool := decide (t < Config.tiles) && decide (h < 2)
/-- An HBM stack. -/
def stackOk (s : Nat) : Bool := decide (s < Config.stackCount)
/-- A Limrad port. -/
def portOk (p : Nat) : Bool := decide (p < Config.ports)
/-- A quadrant. -/
def quadOk (q : Nat) : Bool := decide (q < Config.quads)
/-- A context. -/
def ctxOk (c : Nat) : Bool := decide (c < Config.contexts)
/-- A PCI Express function: the physical one, or one virtual function per context. -/
def funcOk (f : Nat) : Bool := decide (f ≤ Config.contexts)
/-- A submission queue. -/
def sqOk (q : Nat) : Bool := decide (q < Config.sqs)
/-- A completion queue. -/
def cqOk (c : Nat) : Bool := decide (c < Config.cqs)
/-- A completion queue, or 256 + c for the admin queue of context c. -/
def ringOk (c : Nat) : Bool := decide (c < Config.cqs + Config.contexts)
/-- A bucket of a stack: the entry number has 12 bits (08 R217). -/
def bucketOk (s b : Nat) : Bool := stackOk s && decide (b < 4096)

/-- A register requester that exists (17 R431). -/
def reqOk : Req → Bool
  | .func f => funcOk f
  | .core g _ => decide (g < Config.cores)
  | .half t h => halfOk t h
/-- A requester that reaches every register: a virtual function does not (14 R384). -/
def reqFull : Req → Bool
  | .func f => f == 0
  | .core g _ => decide (g < Config.cores)
  | .half t h => halfOk t h

/-- An engine of the front end. -/
def engineOk : Engine → Bool
  | .tile t h => halfOk t h
  | .churn s => stackOk s
  | .breeze s => stackOk s

/-- A register's offset in BAR0 (17 R428, R430). -/
def offOk (off : Nat) : Bool := decide (off % 4 = 0) && decide (off < 0x4000000)

/-- A word with an opcode, for a half that exists. -/
def isOp (t h : Nat) (w : W64) (o : Nat) : Bool := halfOk t h && wordOpcode w == o
/-- The reserved opcodes (05 Table 3, 06 Tables 2 and 6). -/
def opcodeReserved (o : Nat) : Bool :=
  (decide (0x16 ≤ o) && decide (o ≤ 0x1F)) || (decide (0x24 ≤ o) && decide (o ≤ 0x3F)) ||
  (decide (0x48 ≤ o) && decide (o ≤ 0x5F)) || decide (0x6F ≤ o)

/-- A packet of a type at a port (13 Table 5). -/
def isPacket (p : Nat) (pk : Packet) (type : Nat) : Bool := portOk p && pk.type == type
/-- The packet types of 13 Table 5. -/
def packetTypes : List Nat := [0x01, 0x02, 0x03, 0x04, 0x05, 0x06, 0x10, 0x11, 0x12, 0x20, 0x21, 0x22, 0x23, 0x24]

/-- An admin command of 64 bytes with an opcode (12 R343). -/
def isAdmin (c : Nat) (cmd : List Byte) (o : Nat) : Bool := ctxOk c && decide (cmd.length = 64) && cmd.head? == some (BitVec.ofNat 8 o)

/-- A command of MEM_Hs_RETIRE: its CMD field (07 Table 8). -/
def isRetire (req : Req) (s : Nat) (val : W32) (cmd : Nat) : Bool := reqFull req && stackOk s && decide (val.toNat / 2 ^ 27 % 4 = cmd)

/-- A configuration request names a function that exists. -/
def CfgReq.wf : CfgReq → Bool
  | .read f _ => funcOk f
  | .busMaster f _ => funcOk f
  | .memorySpace f _ => funcOk f
  | .vfEnable _ _ => true
  | .bar4Size _ => true
  | .vfBar4Size _ => true
  | .functionMask f _ => funcOk f
  | .msixEnable f _ => funcOk f
  | .atsEnable f _ => funcOk f
  | .maxPayload f _ => funcOk f
  | .maxReadRequest f _ => funcOk f
  | .completionTimeout f _ => funcOk f
  | .powerState f _ => funcOk f

/-- The widths of the PCI Express link (14 Table 1). -/
def pcieWidth (n : Nat) : Bool := [1, 4, 8, 16].contains n

/-- Which commands are well-formed. One that is not changes nothing (log 6). -/
def Instr.wf : Instr → Bool
  | .beatBoundary => true
  | .noticeExpiry _ _ => true
  | .beatReceived port _ => portOk port
  | .masterElected => true
  | .lockAcquired => true
  | .parentLost => true
  | .probeExchange port => portOk port
  | .probe port _ _ _ _ => portOk port
  | .ftPpsEdge => true
  | .ppsMissing => true
  | .ftEpochArm req _ => reqFull req
  | .ftDisable req _ => reqFull req
  | .slipRequest req _ => reqFull req
  | .slip port _ => portOk port
  | .nop t h w => isOp t h w 0x00
  | .alu t h w => isOp t h w 0x01
  | .addi t h w => isOp t h w 0x02
  | .andi t h w => isOp t h w 0x03
  | .ori t h w => isOp t h w 0x04
  | .xori t h w => isOp t h w 0x05
  | .shi t h w => isOp t h w 0x06
  | .liLo t h w => isOp t h w 0x07 && wordBits w 35 32 != 1
  | .liHi t h w => isOp t h w 0x07 && wordBits w 35 32 == 1
  | .ld t h w => isOp t h w 0x08
  | .st t h w => isOp t h w 0x09
  | .cmp t h w => isOp t h w 0x0A
  | .cmpi t h w => isOp t h w 0x0B
  | .pop t h w => isOp t h w 0x0C
  | .br t h w => isOp t h w 0x0D
  | .bdec t h w => isOp t h w 0x0E
  | .brr t h w => isOp t h w 0x0F
  | .rdsr t h w => isOp t h w 0x10
  | .tokSig t h w => isOp t h w 0x11 && wordBits w 35 32 != 1
  | .tokWait t h w => isOp t h w 0x11 && wordBits w 35 32 == 1
  | .tokWaitRelease t h => halfOk t h
  | .fenceRel t h w => isOp t h w 0x12 && wordBits w 35 32 != 1 && wordBits w 35 32 != 2
  | .fenceAcq t h w => isOp t h w 0x12 && wordBits w 35 32 == 1
  | .fenceAll t h w => isOp t h w 0x12 && wordBits w 35 32 == 2
  | .fenceRelease t h => halfOk t h
  | .waitFt t h w => isOp t h w 0x13
  | .waitFtRelease t h => halfOk t h
  | .waitW t h w => isOp t h w 0x14
  | .waitWDeadline t h => halfOk t h
  | .endTask t h w => isOp t h w 0x15
  | .taskFinish t h => halfOk t h
  | .mv t h w => isOp t h w 0x20
  | .ldg t h w => isOp t h w 0x21
  | .stg t h w => isOp t h w 0x22
  | .atom t h w => isOp t h w 0x23 && wordBits w 2 0 != 5
  | .atomSig t h w => isOp t h w 0x23 && wordBits w 2 0 == 5
  | .reservedOpcode t h w => halfOk t h && opcodeReserved (wordOpcode w)
  | .mma t h w => isOp t h w 0x40
  | .mmaX2 t h w => isOp t h w 0x41
  | .mmaX3 t h w => isOp t h w 0x42
  | .mmaS t h w => isOp t h w 0x43
  | .mmaM t h w => isOp t h w 0x44
  | .dist t h w => isOp t h w 0x45
  | .wl t h w => isOp t h w 0x46
  | .wld t h w => isOp t h w 0x47
  | .vop t h w => isOp t h w 0x60
  | .vfn t h w => isOp t h w 0x61
  | .vcmp t h w => isOp t h w 0x62
  | .vsel t h w => isOp t h w 0x63
  | .vmov t h w => isOp t h w 0x64
  | .vld t h w => isOp t h w 0x65
  | .vst t h w => isOp t h w 0x66
  | .epRd t h w => isOp t h w 0x67
  | .epWr t h w => isOp t h w 0x68
  | .epCvt t h w => isOp t h w 0x69
  | .epL2 t h w => isOp t h w 0x6A
  | .vtag t h w => isOp t h w 0x6B
  | .vred t h w => isOp t h w 0x6C
  | .vmv t h w => isOp t h w 0x6D
  | .vtopk t h w => isOp t h w 0x6E
  | .queuedInstructionStart t h _ => halfOk t h
  | .instructionComplete t h _ => halfOk t h
  | .tokenSignal t h tok => halfOk t h && decide (tok < 32)
  | .moveDescriptor t ch => halfOk t 0 && decide (ch < 8)
  | .moveDescriptorComplete t ch => halfOk t 0 && decide (ch < 8)
  | .halfFrozen t h _ => halfOk t h
  | .tilHalt req t _ => reqFull req && halfOk t 0
  | .halfStopped t h _ => halfOk t h
  | .tilRelease req t h _ => reqFull req && halfOk t h
  | .tilDoorbell req t h _ => reqFull req && halfOk t h
  | .tileWindowAccess _ t off _ => halfOk t 0 && decide (off < 0x2000000)
  | .taskStart t h => halfOk t h
  | .bankExchange t h => halfOk t h
  | .modeChange t _ => halfOk t 0
  | .memoryAccess _ _ _ _ => true
  | .syncWordCommit _ word _ => decide (word < Config.watchWords)
  | .patrolScrub stack _ => stackOk stack
  | .retire req stack val => isRetire req stack val 0
  | .release req stack val => isRetire req stack val 1
  | .sppr req stack val => isRetire req stack val 2
  | .retirementComplete stack => stackOk stack
  | .pprComplete stack _ => stackOk stack
  | .lostFirst req stack => reqFull req && stackOk stack
  | .lostNext req stack => reqFull req && stackOk stack
  | .bucketOpen req stack bucket => reqFull req && bucketOk stack bucket
  | .bucketClose req stack bucket => reqFull req && bucketOk stack bucket
  | .bucketRelease req stack bucket => reqFull req && bucketOk stack bucket
  | .bucketCmdReserved req stack bucket => reqFull req && bucketOk stack bucket
  | .zeroingDone stack bucket => bucketOk stack bucket
  | .contributionData _ stack _ _ => stackOk stack
  | .endMarker _ stack _ _ => stackOk stack
  | .bucketDeadline stack bucket => bucketOk stack bucket
  | .bucketFinal stack bucket => bucketOk stack bucket
  | .churnDescriptorStart stack => stackOk stack
  | .churnNormReady stack => stackOk stack
  | .churnNoNorm stack => stackOk stack
  | .churnBlock stack => stackOk stack
  | .mirrorAck stack => stackOk stack
  | .mirrorFail stack => stackOk stack
  | .lambPairAck stack => stackOk stack
  | .churnDescriptorEnd stack => stackOk stack
  | .breezeDescriptor stack => stackOk stack
  | .breezeEnd cut => stackOk cut.stack
  | .stepAttemptStart => true
  | .drainVane => true
  | .reReduction => true
  | .normPartial => true
  | .normWordPublish => true
  | .normWordForward => true
  | .trustPairPublish _ => true
  | .lambMarker _ => true
  | .ownerLockLost => true
  | .crossDomainTimeout stack bucket => bucketOk stack bucket
  | .vote => true
  | .verdictPublish => true
  | .verdictDeadline => true
  | .verdictApply => true
  | .topologyChange _ => true
  | .stepReplay => true
  | .ledgerOpen _ _ => true
  | .ledgerClose _ _ => true
  | .writeLanded _ _ _ => true
  | .releaseSignal _ _ _ _ _ => true
  | .signalRetry _ => true
  | .holdTimeout _ => true
  | .watchArm req n _ => reqFull req && decide (n < Config.watchEntries)
  | .vaneBreak req n => reqFull req && decide (n < Config.vanes)
  | .vaneReset req n => reqFull req && decide (n < Config.vanes)
  | .lullEnter t => halfOk t 0
  | .lullWake t => halfOk t 0
  | .lullLeadAdapt => true
  | .sqDoorbell func q _ => funcOk func && sqOk q
  | .descriptorFetch q data => sqOk q && data.all (fun bs => decide (bs.length = 128))
  | .dispatch e => engineOk e
  | .draughtPreloadDone e => engineOk e
  | .draughtDiscard e => engineOk e
  | .taskTimeout e => engineOk e
  | .windowClose q => sqOk q
  | .completionSeqWrite cq => ringOk cq
  | .cqDoorbell req cq _ => reqOk req && cqOk cq
  | .cqResume req cq _ => reqOk req && cqOk cq
  | .stopAck q e => sqOk q && engineOk e
  | .allotmentWrite req off _ => reqOk req && offOk off
  | .adminDoorbell req ctx _ => reqOk req && ctxOk ctx
  | .adminCqDoorbell req ctx _ => reqOk req && ctxOk ctx
  | .adminResume req ctx _ => reqOk req && ctxOk ctx
  | .createCq ctx cmd => isAdmin ctx cmd 0x01
  | .destroyCq ctx cmd => isAdmin ctx cmd 0x02
  | .createSq ctx cmd => isAdmin ctx cmd 0x03
  | .destroySq ctx cmd => isAdmin ctx cmd 0x04
  | .pauseSq ctx cmd => isAdmin ctx cmd 0x05
  | .stopSq ctx cmd => isAdmin ctx cmd 0x06
  | .resumeSq ctx cmd => isAdmin ctx cmd 0x07
  | .setWindow ctx cmd => isAdmin ctx cmd 0x08
  | .clearWindow ctx cmd => isAdmin ctx cmd 0x09
  | .resumeCq ctx cmd => isAdmin ctx cmd 0x0A
  | .invalidOpcode ctx cmd =>
    ctxOk ctx && decide (cmd.length = 64) && cmd.head?.any (fun b => decide (b.toNat = 0) || decide (10 < b.toNat))
  | .feSqPause req q => reqFull req && sqOk q
  | .feSqStop req q => reqFull req && sqOk q
  | .feSqResume req q => reqFull req && sqOk q
  | .svcDoorbell req ctx _ => reqOk req && ctxOk ctx
  | .portEnable p => portOk p
  | .portDisable p => portOk p
  | .signalDetect p => portOk p
  | .trainComplete p => portOk p
  | .alignComplete p _ => portOk p
  | .capabilityRecord p _ => portOk p
  | .portActive p => portOk p
  | .flitReceived p _ _ _ => portOk p
  | .linkControlFlit p _ => portOk p
  | .linkControlSend p => portOk p
  | .replayTimeout p => portOk p
  | .swapReq p lane => portOk p && decide (lane < 9)
  | .swapAck p _ => portOk p
  | .swapDone p => portOk p
  | .retrainReq p => portOk p
  | .retrainAck p => portOk p
  | .retrainComplete p _ => portOk p
  | .retrainMaxExpiry p => portOk p
  | .laneErrorCheck p counts => portOk p && decide (counts.length = 9)
  | .laneSwapCmd req p _ => reqFull req && portOk p
  | .partnerLost p => portOk p
  | .portRejoin req p => reqFull req && portOk p
  | .retrainRequest req p => reqFull req && portOk p
  | .portDrain p => portOk p
  | .portUndrain p => portOk p
  | .portDrained p => portOk p
  | .packetForward p _ => portOk p
  | .write p pk => isPacket p pk 0x01
  | .read p pk => isPacket p pk 0x02
  | .atomic p pk => isPacket p pk 0x03
  | .signal p pk => isPacket p pk 0x04
  | .openReq p pk => isPacket p pk 0x05
  | .close p pk => isPacket p pk 0x06
  | .readResp p pk => isPacket p pk 0x10
  | .ack p pk => isPacket p pk 0x11
  | .atomicResp p pk => isPacket p pk 0x12
  | .control p pk => isPacket p pk 0x22
  | .sealMsg p pk _ => isPacket p pk 0x24
  | .packetReservedType p pk => portOk p && !packetTypes.contains pk.type
  | .responseTimeout _ => true
  | .controlPacketSend req _ => reqFull req
  | .ctrlStopSq q => sqOk q
  | .ctrlPauseSq q => sqOk q
  | .drainPort p => portOk p
  | .undrainPort p => portOk p
  | .quiesceTile t => halfOk t 0
  | .breakVane n => decide (n < Config.vanes)
  | .controlOther p pk => isPacket p pk 0x22 && (decide (pk.op = 0) || decide (6 < pk.op))
  | .linkRekey p => portOk p
  | .pcieLinkTrain rate width _ => decide (1 ≤ rate) && decide (rate ≤ 7) && pcieWidth width
  | .bar0Access func off len wr => funcOk func && decide (off < 0x4000000) && wr.all (fun w => decide (w.data.length = len))
  | .bar4Access _ _ _ => true
  | .vfBar4Access ctx _ _ _ => ctxOk ctx
  | .vfFlr ctx => ctxOk ctx
  | .hotReset => true
  | .atsInvalidate func _ => funcOk func
  | .dlDown => true
  | .msixUnmask func entry => funcOk func && decide (entry < (if func = 0 then 2048 else 32))
  | .poisonedTlp _ => true
  | .completionTimeout _ => true
  | .lockInterface ctx => ctxOk ctx
  | .startInterface ctx => ctxOk ctx
  | .stopInterface ctx => ctxOk ctx
  | .tdiError ctx => ctxOk ctx
  | .getMeasurements nonce => decide (nonce.length = 32)
  | .openRegion _ _ _ _ _ _ _ => true
  | .closeRegion _ _ => true
  | .bindIngestKey _ _ _ _ => true
  | .unbindIngestKey _ _ => true
  | .confine _ _ => true
  | .wrap _ _ => true
  | .unwrap _ _ => true
  | .measurementExtend _ _ => true
  | .confinedTileClear t => halfOk t 0
  | .debugOpening _ _ _ _ => true
  | .svnCommit => true
  | .svcAttach ctx _ _ => ctxOk ctx
  | .groupSet ctx _ _ _ _ => ctxOk ctx
  | .stepRun ctx _ _ => ctxOk ctx
  | .fallback ctx _ => ctxOk ctx
  | .lscalePolicy ctx _ _ _ => ctxOk ctx
  | .stepReport ctx _ => ctxOk ctx
  | .checkpoint ctx _ _ _ _ => ctxOk ctx
  | .partLoad ctx _ _ _ => ctxOk ctx
  | .fwUpdate ctx _ _ _ => ctxOk ctx
  | .clusterFailover _ => true
  | .gcAccess core _ pa _ => decide (core < Config.cores) && decide (pa.toNat < 2 ^ 56)
  | .amoRelease core pa _ => decide (core < Config.cores) && decide (pa.toNat < 2 ^ 56)
  | .ingRingTail req n r _ => reqFull req && decide (n < 4) && decide (r < 4)
  | .ingestDescriptor n r loads => decide (n < 4) && decide (r < 4) &&
      loads.all (fun e => decide (e.1 < 16) && decide (e.2.length ≤ 65536))
  | .ingestEnd n => decide (n < 4)
  | .ingRingDisable req n r _ => reqFull req && decide (n < 4) && decide (r < 4)
  | .registerWrite req off _ => reqOk req && offOk off
  | .shadowReadLo req off => reqOk req && offOk off
  | .stagedWriteLo req off _ => reqOk req && offOk off
  | .stagedWriteHi req off _ => reqOk req && offOk off
  | .sequenceClear req off _ => reqOk req && offOk off
  | .seqAdvancePending off => offOk off
  | .crcPass => true
  | .crcHold req val => reqFull req && val.getLsbD 2
  | .crcCommit req val => reqFull req && val.getLsbD 3
  | .crcRefWrite req _ => reqFull req
  | .ceilingEvaluate q => quadOk q
  | .ceilingRise q => quadOk q
  | .riseTimeout q => quadOk q
  | .voltageLower q => quadOk q
  | .avsPoll rail _ => decide (rail < 6)
  | .gustTrigger q => quadOk q
  | .gustRelease q => quadOk q
  | .droop phys _ => decide (phys < Config.physTiles)
  | .currentEstimate q _ => quadOk q
  | .thermalResponse q _ => quadOk q
  | .thermtrip => true
  | .pllUnlock q => quadOk q
  | .pllRelock q => quadOk q
  | .refLost => true
  | .sdrefLost q => quadOk q
  | .faultLogCommit => true
  | .tileRetire req _ => reqFull req
  | .tileQuiesced => true
  | .tileCopyComplete => true
  | .oldTileCleared => true
  | .bridgeLaneSwap b => decide (b < 4)
  | .bridgeLost b => decide (b < 4)
  | .powerUp => true
  | .powerLoss => true
  | .sysReset => true
  | .sysResetRelease _ _ _ _ => true
  | .loaderStart _ _ fw _ => decide (fw.length = 6)
  | .firmwareStart _ granules => granules.all (fun g => stackOk g.1)
  | .perst _ => true
  | .pcieConfigReady => true
  | .smbusStageRead => true
  | .laneLockLoss p lane => portOk p && decide (lane < 9)
  | .signalLoss p => portOk p
  | .configurationRequest what => what.wf
  | .spdmKeyExchange _ => true
  | .ideKm func _ => funcOk func
  | .pldmFirmwareUpdate _ _ => true
  | .sealPacketLimit p => portOk p
  | .stackTemperature stack _ => stackOk stack
  | .windowOpen q => sqOk q
  | .wakeComplete t _ => halfOk t 0
  | .regionZeroed _ => true
  | .atsTranslation cq _ => ringOk cq
  | .malformedTlp => true

end Sys2Proof
end

