-- ==== Sys2Proof/Decode.lean ====
section
/-! DEFINITION. The command that a word of the opcode table spells: the table gives no row bits, so no word spells one. -/
namespace Sys2Proof

/-- The command spelt by the low `nbits` bits of `w`. The rows of spec/opcode_table.json carry no bits: their commands come
from pins, ports, hosts and the part's own engines, each in its own form. -/
def decodeTableWord (_nbits _w : Nat) : Option Instr := none

end Sys2Proof
end

