-- ==== Sys2Proof/Machine/Bits.lean ====
section
/-! DEFINITION. Bit fields, byte order and sparse maps: the small helpers every block uses. -/
namespace Sys2Proof.Machine

/-- Bits [hi:lo] of a number. -/
def bitsN (v hi lo : Nat) : Nat := (v / 2 ^ lo) % 2 ^ (hi + 1 - lo)

/-- Bits [hi:lo] of a register word (17 R430). -/
def fld (w : W32) (hi lo : Nat) : Nat := bitsN w.toNat hi lo

/-- Bit i of a register word. -/
def fbit (w : W32) (i : Nat) : Bool := w.getLsbD i

/-- The signed value of the low n bits of a number. -/
def signedN (n v : Nat) : Int :=
  if v % 2 ^ n < 2 ^ (n - 1) then (v % 2 ^ n : Nat) else ((v % 2 ^ n : Nat) : Int) - (2 ^ n : Nat)

/-- The signed difference x - y of two fabric times, taken modulo 2^64 (02 R44). -/
def ftDiff (x y : W64) : Int := (x - y).toInt

/-- A signed value kept inside 32 bits (02 Table 7: saturated). -/
def satI32 (x : Int) : W32 :=
  if x > 2147483647 then 0x7FFFFFFF#32 else if x < -2147483648 then 0x80000000#32 else BitVec.ofInt 32 x

/-- The n little-endian bytes of a number (00 R4). -/
def leBytes : Nat → Nat → List Byte
  | 0, _ => []
  | n + 1, v => BitVec.ofNat 8 v :: leBytes n (v / 256)

/-- The number that little-endian bytes spell (00 R4). -/
def leNat : List Byte → Nat
  | [] => 0
  | b :: bs => b.toNat + 256 * leNat bs

/-- The bytes at [off, off + n) of a byte string; bytes past its end read as 0. -/
def sliceB (bs : List Byte) (off n : Nat) : List Byte :=
  let t := (bs.drop off).take n
  t ++ List.replicate (n - t.length) 0#8

/-- The little-endian number in bytes [off, off + n) of a byte string. -/
def leAt (bs : List Byte) (off n : Nat) : Nat := leNat (sliceB bs off n)

/-- The low and high 32-bit halves of a 64-bit value (17, 64-bit values). -/
def lo32 (v : W64) : W32 := v.setWidth 32
/-- The high half. -/
def hi32 (v : W64) : W32 := (v >>> 32).setWidth 32
/-- A 64-bit value from its halves. -/
def of32 (lo hi : W32) : W64 := hi ++ lo

/-- A Boolean as one bit of a number. -/
def b2n (b : Bool) : Nat := if b then 1 else 0

/-- A value kept within limits (an out-of-range value acts as the nearest limit). -/
def clampN (lo hi v : Nat) : Nat := if v < lo then lo else if v > hi then hi else v

/-- The value of a sparse map at a key: the default where no entry stands (keys rise). -/
def mapGet {α : Type} (d : α) : MapOf α → Nat → α
  | [], _ => d
  | (k', v) :: m, k => if k' = k then v else if k < k' then d else mapGet d m k

/-- Write a value at a key, keeping keys rising. -/
def mapPut {α : Type} : MapOf α → Nat → α → MapOf α
  | [], k, v => [(k, v)]
  | (k', v') :: m, k, v =>
    if k' = k then (k, v) :: m else if k < k' then (k, v) :: (k', v') :: m else (k', v') :: mapPut m k v

/-- The entries of a map past those whose keys are at most k. -/
def mapAfter {α : Type} : MapOf α → Nat → MapOf α
  | [], _ => []
  | (k', v') :: m, k => if k' ≤ k then mapAfter m k else (k', v') :: m

/-- Remove a key's entry. -/
def mapDel {α : Type} : MapOf α → Nat → MapOf α
  | [], _ => []
  | (k', v') :: m, k => if k' = k then mapAfter m k else if k < k' then (k', v') :: m else (k', v') :: mapDel m k

/-- Write a value at a key so that no entry equals the default: the canonical form of a store. -/
def mapSet {α : Type} [DecidableEq α] (d : α) (m : MapOf α) (k : Nat) (v : α) : MapOf α :=
  if v = d then mapDel m k else mapPut m k v

/-- Change the value at a key. -/
def mapMod {α : Type} (d : α) (m : MapOf α) (k : Nat) (f : α → α) : MapOf α := mapPut m k (f (mapGet d m k))

/-- The entry of a key, if there is one. -/
def mapFind {α : Type} : MapOf α → Nat → Option α
  | [], _ => none
  | (k', v) :: m, k => if k' = k then some v else if k < k' then none else mapFind m k

/-- The canonical form of a sparse store: keys strictly rising above a bound, no entry equal to the default. -/
def mapWfFrom {α : Type} [DecidableEq α] (d : α) : Nat → MapOf α → Bool
  | _, [] => true
  | n, (k, v) :: m => decide (n ≤ k) && decide (v ≠ d) && mapWfFrom d (k + 1) m

/-- The canonical form of a sparse store. -/
def mapWf {α : Type} [DecidableEq α] (d : α) (m : MapOf α) : Bool := mapWfFrom d 0 m

/-- The bytes of a store at [a, a + n). -/
def bytesGet (m : MapOf Byte) (a n : Nat) : List Byte := (List.range n).map (fun i => mapGet 0#8 m (a + i))

/-- Write bytes into a store from address a up. -/
def bytesSet : MapOf Byte → Nat → List Byte → MapOf Byte
  | m, _, [] => m
  | m, a, b :: bs => bytesSet (mapSet 0#8 m a b) (a + 1) bs

/-- Apply a function n times. -/
def iter {α : Type} (f : α → α) : Nat → α → α
  | 0, x => x
  | n + 1, x => iter f n (f x)

/-- Replace the element at an index of a list. -/
def listSet {α : Type} (l : List α) (i : Nat) (x : α) : List α := l.set i x

/-- The element at an index, or a default. -/
def listGet {α : Type} (d : α) (l : List α) (i : Nat) : α := (l[i]?).getD d

/-- Keep the entries that satisfy a test, replacing nothing else. -/
def updWhere {α : Type} (p : α → Bool) (f : α → α) (l : List α) : List α :=
  l.map (fun x => if p x then f x else x)

/-- The largest of a list of numbers, 0 where empty. -/
def maxN (l : List Nat) : Nat := l.foldl max 0

/-- The power-of-two logarithm rounded down, 0 at 0. -/
def log2N (n : Nat) : Nat := Nat.log2 n

end Sys2Proof.Machine
end

