-- ==== Sys2Proof/Machine/Numerics.lean ====
section
/-! DEFINITION. Number formats and arithmetic (04): exact values, the four roundings, conversions, blocks, the accumulation tree, and cream and whey. -/
namespace Sys2Proof.Machine

/-- An exact value: a NaN, an infinity, a signed zero, or m × 2^e with m nonzero (04 R82, R95). -/
inductive Num where
  | nan
  | inf  (neg : Bool)
  | zero (neg : Bool)
  | fin  (m : Int) (e : Int)
deriving DecidableEq, Repr

/-- The value m × 2^e, with the sign a zero takes. -/
def mkNum (m e : Int) (negZero : Bool) : Num := if m = 0 then .zero negZero else .fin m e

/-- The sign of a value. -/
def Num.neg? : Num → Bool
  | .nan => false
  | .inf n => n
  | .zero n => n
  | .fin m _ => decide (m < 0)

/-- The exact sum (04 R82, Table 5): +0 unless every addend is -0; infinities of both signs give NaN. -/
def Num.add : Num → Num → Num
  | .nan, _ => .nan
  | _, .nan => .nan
  | .inf a, .inf b => if a = b then .inf a else .nan
  | .inf a, _ => .inf a
  | _, .inf b => .inf b
  | .zero a, .zero b => .zero (a && b)
  | .zero _, y => y
  | x, .zero _ => x
  | .fin m e, .fin n f =>
    if e ≤ f then mkNum (m + n * 2 ^ (f - e).toNat) e false else mkNum (m * 2 ^ (e - f).toNat + n) f false

/-- The negation of a value. -/
def Num.negate : Num → Num
  | .nan => .nan
  | .inf a => .inf (!a)
  | .zero a => .zero (!a)
  | .fin m e => .fin (-m) e

/-- The exact difference. -/
def Num.sub (x y : Num) : Num := x.add y.negate

/-- The exact product (04 R82, Table 5): infinity times zero is NaN. -/
def Num.mul : Num → Num → Num
  | .nan, _ => .nan
  | _, .nan => .nan
  | .inf a, .zero _ => let _ := a; .nan
  | .zero _, .inf _ => .nan
  | .inf a, y => .inf (a != y.neg?)
  | x, .inf b => .inf (x.neg? != b)
  | .zero a, y => .zero (a != y.neg?)
  | x, .zero b => .zero (x.neg? != b)
  | .fin m e, .fin n f => .fin (m * n) (e + f)

/-- A value times 2^k, exactly. -/
def Num.scale (k : Int) : Num → Num
  | .fin m e => .fin m (e + k)
  | x => x

/-- The magnitude of a value. -/
def Num.abs : Num → Num
  | .nan => .nan
  | .inf _ => .inf false
  | .zero _ => .zero false
  | .fin m e => .fin m.natAbs e

/-- Whether a value is finite. -/
def Num.isFin : Num → Bool
  | .zero _ => true
  | .fin _ _ => true
  | .nan => false
  | .inf _ => false

/-- The number of bits of a natural number: 0 has none. -/
def bitLen (n : Nat) : Nat := if n = 0 then 0 else Nat.log2 n + 1

/-- The exponent floor(log2 |x|) of a nonzero finite value, 0 otherwise. -/
def Num.log2 : Num → Int
  | .fin m e => (bitLen m.natAbs : Int) - 1 + e
  | _ => 0

/-- Strict order of finite and infinite values; -0 is below +0 (04 R93, 06 R165). False where either is NaN. -/
def Num.lt : Num → Num → Bool
  | .nan, _ => false
  | _, .nan => false
  | .inf true, y => y != .inf true
  | .inf false, _ => false
  | _, .inf b => !b
  | .zero a, .zero b => a && !b
  | .zero _, .fin n _ => decide (0 < n)
  | .fin m _, .zero _ => decide (m < 0)
  | .fin m e, .fin n f =>
    if e ≤ f then decide (m < n * 2 ^ (f - e).toNat) else decide (m * 2 ^ (e - f).toNat < n)

/-- Equality of values as numbers: -0 equals +0, NaN equals nothing (06 R172). -/
def Num.eqv : Num → Num → Bool
  | .nan, _ => false
  | _, .nan => false
  | .zero _, .zero _ => true
  | x, y => !x.lt y && !y.lt x

/-- The lesser of two values, a NaN where either is one (06 R165, R170). -/
def Num.min (x y : Num) : Num :=
  match x, y with
  | .nan, _ => .nan
  | _, .nan => .nan
  | x, y => if y.lt x then y else x

/-- The greater of two values, a NaN where either is one. -/
def Num.max (x y : Num) : Num :=
  match x, y with
  | .nan, _ => .nan
  | _, .nan => .nan
  | x, y => if x.lt y then y else x

/-! ## Rounding (04 R83, R85) -/

/-- The roundings of 04 R83; SR carries the 32-bit word the generator gives. -/
inductive Round where
  | rne | rto | sr (r : Nat) | up
deriving DecidableEq, Repr

/-- Whether a magnitude cut to `lo` units with remainder `rem` of `2^sh` moves to the next unit. -/
def roundUp (mode : Round) (neg : Bool) (lo rem sh : Nat) : Bool :=
  match mode with
  | .rne => decide (2 ^ sh < 2 * rem) || (2 * rem == 2 ^ sh && lo % 2 == 1)
  | .rto => decide (rem ≠ 0) && lo % 2 == 0
  | .sr r => decide (r < rem * 2 ^ 32 / 2 ^ sh)
  | .up => decide (2 ^ sh < 2 * rem) || (2 * rem == 2 ^ sh && !neg)

/-- One rounding of an exact value onto the grid of p significand bits whose finest spacing is 2^emin, with no upper
limit (04 R83). -/
def roundNum (mode : Round) (p : Nat) (emin : Int) : Num → Num
  | .fin m e =>
    let a := m.natAbs
    let neg := decide (m < 0)
    let q := Max.max ((bitLen a : Int) + e - p) emin
    if q ≤ e then .fin m e
    else
      let sh := (q - e).toNat
      let lo := a / 2 ^ sh
      let rem := a % 2 ^ sh
      let r := if roundUp mode neg lo rem sh then lo + 1 else lo
      mkNum (if neg then -(r : Int) else r) q neg
  | x => x

/-- The ten rounds of Philox (04 R85). -/
def philoxRound (c : Nat × Nat × Nat × Nat) (k : Nat × Nat) : Nat × Nat × Nat × Nat :=
  let p0 := 0xD2511F53 * c.1
  let p1 := 0xCD9E8D57 * c.2.2.1
  (Nat.xor (Nat.xor (p1 / 2 ^ 32) c.2.1) k.1, p1 % 2 ^ 32, Nat.xor (Nat.xor (p0 / 2 ^ 32) c.2.2.2) k.2, p0 % 2 ^ 32)

/-- n rounds of Philox. -/
def philox : Nat → Nat × Nat × Nat × Nat → Nat × Nat → Nat × Nat × Nat × Nat
  | 0, c, _ => c
  | n + 1, c, k => philox n (philoxRound c k) ((k.1 + 0x9E3779B9) % 2 ^ 32, (k.2 + 0xBB67AE85) % 2 ^ 32)

/-- The random word of stochastic rounding (04 R85). -/
def srWord (seed tensor step idx : Nat) : Nat :=
  let c := philox 10 ((idx / 4) % 2 ^ 32, (idx / 2 ^ 34) % 2 ^ 32, tensor % 2 ^ 32, step % 2 ^ 32)
    (seed % 2 ^ 32, (seed / 2 ^ 32) % 2 ^ 32)
  match idx % 4 with
  | 0 => c.1
  | 1 => c.2.1
  | 2 => c.2.2.1
  | _ => c.2.2.2

/-! ## Formats (04 R79-R81) -/

/-- The element formats, in the order of the codes of 06 Table 3. -/
inductive Fmt where
  | f4 | e3m2 | e2m3 | e4m3 | e5m2 | i8 | bf16 | f16 | f32
deriving DecidableEq, Repr

/-- The format of a code 0 to 8 (06 Table 3). -/
def Fmt.ofCode : Nat → Option Fmt
  | 0 => some .f4 | 1 => some .e3m2 | 2 => some .e2m3 | 3 => some .e4m3 | 4 => some .e5m2
  | 5 => some .i8 | 6 => some .bf16 | 7 => some .f16 | 8 => some .f32
  | _ => none

/-- Exponent bits, mantissa bits and bias (04 Table 1). -/
def Fmt.ebits : Fmt → Nat
  | .f4 => 2 | .e3m2 => 3 | .e2m3 => 2 | .e4m3 => 4 | .e5m2 => 5 | .i8 => 0 | .bf16 => 8 | .f16 => 5 | .f32 => 8
def Fmt.mbits : Fmt → Nat
  | .f4 => 1 | .e3m2 => 2 | .e2m3 => 3 | .e4m3 => 3 | .e5m2 => 2 | .i8 => 7 | .bf16 => 7 | .f16 => 10 | .f32 => 23
def Fmt.bias : Fmt → Nat
  | .f4 => 1 | .e3m2 => 3 | .e2m3 => 1 | .e4m3 => 7 | .e5m2 => 15 | .i8 => 0 | .bf16 => 127 | .f16 => 15 | .f32 => 127
/-- Width in bits. -/
def Fmt.width : Fmt → Nat
  | .f4 => 4 | .e3m2 => 6 | .e2m3 => 6 | .e4m3 => 8 | .e5m2 => 8 | .i8 => 8 | .bf16 => 16 | .f16 => 16 | .f32 => 32
/-- Whether the format has MX block scales (04 R80). -/
def Fmt.isMx : Fmt → Bool
  | .f4 | .e3m2 | .e2m3 | .e4m3 | .e5m2 | .i8 => true
  | .bf16 | .f16 | .f32 => false
/-- The finest spacing, 2^emin (04 Table 1, min subnormal). -/
def Fmt.emin : Fmt → Int
  | .i8 => -6
  | f => 1 - (f.bias : Int) - f.mbits
/-- Significand bits of the grid; the MXINT8 grid has one spacing only. -/
def Fmt.prec : Fmt → Nat
  | .i8 => 4096
  | f => f.mbits + 1
/-- The bits of the largest finite magnitude (04 Table 1). -/
def Fmt.maxBits : Fmt → Nat
  | .f4 => 0x7 | .e3m2 => 0x1F | .e2m3 => 0x1F | .e4m3 => 0x7E | .e5m2 => 0x7B | .i8 => 0x7F
  | .bf16 => 0x7F7F | .f16 => 0x7BFF | .f32 => 0x7F7FFFFF
/-- The canonical NaN (04 R96). -/
def Fmt.nanBits : Fmt → Nat
  | .e4m3 => 0x7F | .e5m2 => 0x7E | .bf16 => 0x7FC0 | .f16 => 0x7E00 | .f32 => 0x7FC00000
  | .f4 | .e3m2 | .e2m3 | .i8 => 0
/-- Whether a magnitude with all-ones exponent is infinite or NaN by its mantissa (04 Table 1). -/
def Fmt.hasInf : Fmt → Bool
  | .e5m2 | .bf16 | .f16 | .f32 => true
  | .f4 | .e3m2 | .e2m3 | .e4m3 | .i8 => false
/-- emax of a computed block scale (04 Table 2). -/
def Fmt.emax : Fmt → Int
  | .e4m3 => 8 | .e5m2 => 15 | .e3m2 => 4 | .e2m3 => 2 | .f4 => 2 | .i8 => 0
  | .bf16 | .f16 | .f32 => 0

/-- The value that bits of a format hold (04 R79, R81). -/
def Fmt.decode (f : Fmt) (bits : Nat) : Num :=
  match f with
  | .i8 => mkNum (signedN 8 bits) (-6) false
  | _ =>
    let neg := (bits / 2 ^ (f.width - 1)) % 2 == 1
    let ex := (bits / 2 ^ f.mbits) % 2 ^ f.ebits
    let mt := bits % 2 ^ f.mbits
    let sg (n : Nat) : Int := if neg then -(n : Int) else n
    if f.hasInf && ex == 2 ^ f.ebits - 1 then (if mt = 0 then .inf neg else .nan)
    else if f = .e4m3 ∧ ex = 15 ∧ mt = 7 then .nan
    else if ex = 0 then mkNum (sg mt) f.emin neg
    else .fin (sg (2 ^ f.mbits + mt)) (f.emin + ex - 1)

/-- The bits of a value already on the format's grid and within its range, magnitude only. -/
def Fmt.magBits (f : Fmt) : Num → Nat
  | .fin m e =>
    let a := m.natAbs
    match f with
    | .i8 => (if e ≥ -6 then a * 2 ^ (e + 6).toNat else a / 2 ^ (-6 - e).toNat)
    | _ =>
      let l := (bitLen a : Int) - 1 + e
      let q := Max.max (l - f.mbits) f.emin
      let mt := if e ≥ q then a * 2 ^ (e - q).toNat else a / 2 ^ (q - e).toNat
      if mt < 2 ^ f.mbits then mt else ((q - f.emin).toNat + 1) * 2 ^ f.mbits + (mt - 2 ^ f.mbits)
  | _ => 0

/-- Attach a sign to magnitude bits: two's complement for MXINT8. -/
def Fmt.withSign (f : Fmt) (neg : Bool) (mag : Nat) : Nat :=
  match f with
  | .i8 => if neg then (256 - mag) % 256 else mag
  | _ => if neg then 2 ^ (f.width - 1) + mag else mag

/-- The bits of an infinity of a format that has one. -/
def Fmt.infBits (f : Fmt) : Nat := (2 ^ f.ebits - 1) * 2 ^ f.mbits

/-- The bits of an overflow, by the saturation option (04 Table 3). -/
def Fmt.overflow (f : Fmt) (sat neg : Bool) : Nat :=
  if sat || (!f.hasInf && decide (f ≠ .e4m3)) then f.withSign neg f.maxBits
  else if f.hasInf then f.withSign neg f.infBits else 0x7F

/-- One conversion of an exact value to a format (04 R87, Table 3). -/
def Fmt.convert (f : Fmt) (mode : Round) (sat : Bool) (x : Num) : Nat :=
  match x with
  | .nan => f.nanBits
  | .inf n =>
    if sat then f.withSign n f.maxBits
    else if f.hasInf then f.withSign n f.infBits
    else if f = .e4m3 then 0x7F else f.withSign n f.maxBits
  | .zero n => f.withSign n 0
  | .fin m _ =>
    let n := decide (m < 0)
    let r := roundNum mode f.prec f.emin x
    if (f.decode f.maxBits).lt r.abs then f.overflow sat n else f.withSign n (f.magBits r)

/-- The value of a binary32 word. -/
def f32Num (w : W32) : Num := Fmt.f32.decode w.toNat
/-- An exact value rounded once to binary32 by RNE, overflow to infinity (04 R86). -/
def toF32 (x : Num) : W32 := BitVec.ofNat 32 (Fmt.f32.convert .rne false x)
/-- An exact value rounded once to binary32 by RNE, overflow by the saturation option. -/
def toF32Sat (sat : Bool) (x : Num) : W32 := BitVec.ofNat 32 (Fmt.f32.convert .rne sat x)

/-! ## MX blocks (04 R80, R88, R89) -/

/-- The multiplier of an E8M0 scale, none where the block is NaN (04 R80). -/
def scaleExp (s : Nat) : Option Int := if s = 0xFF then none else some ((s : Int) - 127)

/-- An element under a block scale. -/
def scaled (s : Nat) (x : Num) : Num :=
  match scaleExp s with
  | none => .nan
  | some k => x.scale k

/-- Whether a format's elements cannot themselves hold a NaN, so the block's scale carries it (04 R89). -/
def Fmt.blockNan : Fmt → Bool
  | .e3m2 | .e2m3 | .f4 | .i8 => true
  | .e4m3 | .e5m2 | .bf16 | .f16 | .f32 => false

/-- The largest finite binary32 value. -/
def f32Max : Num := Fmt.f32.decode 0x7F7FFFFF

/-- An infinity replaced by the binary32 maximum of its sign (04 R88). -/
def infToMax (v : Num) : Num :=
  match v with
  | .inf n => if n then f32Max.negate else f32Max
  | .nan => v
  | .zero _ => v
  | .fin _ _ => v

/-- An element of a block: a held value beyond the binary32 range is an overflow whatever the scale (04 R101). -/
def Fmt.element (f : Fmt) (mode : Round) (sat : Bool) (k : Int) (v : Num) : Nat :=
  if v.isFin && f32Max.lt v.abs then f.overflow sat v.neg? else f.convert mode sat (v.scale (-k))

/-- A conversion of a block with a computed scale: the scale and the elements' bits (04 R88). The scale of a block with a
held value beyond the binary32 range is not stated: DESIGN CHOICE, that of the held values themselves (log 16). -/
def mxBlock (f : Fmt) (mode : Nat → Round) (sat : Bool) (vs : List Num) : Nat × List Nat :=
  let zeros := vs.map (fun _ => 0)
  if vs.any (fun v => v == .nan) then (0xFF, zeros)
  else if !sat && vs.any (fun v => v == .inf true || v == .inf false) then (0xFF, zeros)
  else
    let vs' := vs.map infToMax
    let a := vs'.foldl (fun (acc : Num) v => if acc.lt v.abs then v.abs else acc) (.zero false)
    match a with
    | .fin _ _ =>
      let x := Max.max (-127) (Min.min 127 (a.log2 - f.emax))
      ((x + 127).toNat, vs'.mapIdx (fun j v => f.element (mode j) true x v))
    | _ => (0x7F, vs'.map (fun v => f.withSign v.neg? 0))

/-- A conversion of a block with a given scale (04 R89): in a format whose elements hold no infinity, SAT takes an infinite
input as the binary32 maximum, as the block scale rule does (Table 3, R88). -/
def mxGiven (f : Fmt) (mode : Nat → Round) (sat : Bool) (s : Nat) (vs : List Num) : Nat × List Nat :=
  let zeros := vs.map (fun _ => 0)
  match scaleExp s with
  | none => (0xFF, zeros)
  | some k =>
    if f.blockNan && vs.any (fun v => v == .nan || (!sat && (v == .inf true || v == .inf false))) then (0xFF, zeros)
    else (s, vs.mapIdx (fun j v => f.element (mode j) sat k (if f.blockNan then infToMax v else v)))

/-- The bits of element i of packed elements (04 R80). -/
def elemBits (f : Fmt) (bs : List Byte) (i : Nat) : Nat :=
  match f with
  | .f4 => bitsN (leAt bs (i / 2) 1) (4 * (i % 2) + 3) (4 * (i % 2))
  | .e3m2 | .e2m3 => bitsN (leAt bs (3 * (i / 4)) 3) (6 * (i % 4) + 5) (6 * (i % 4))
  | .e4m3 | .e5m2 | .i8 => leAt bs i 1
  | .bf16 | .f16 => leAt bs (2 * i) 2
  | .f32 => leAt bs (4 * i) 4

/-- Pack element bits into a number, first element lowest (04 R80). -/
def packBits (w : Nat) : List Nat → Nat
  | [] => 0
  | b :: bs => b % 2 ^ w + 2 ^ w * packBits w bs

/-- The bytes of packed elements. -/
def packElems (f : Fmt) (es : List Nat) : List Byte := leBytes ((es.length * f.width + 7) / 8) (packBits f.width es)

/-! ## The accumulation tree (04 R90-R94) -/

/-- Round to odd into the 34-bit tree format (04 R90): its exponent range is never left. -/
def rto34 (x : Num) : Num := roundNum .rto 34 (-4096) x

/-- The exact sum of values. -/
def sumExact (xs : List Num) : Num :=
  match xs with
  | [] => .zero false
  | x :: xs => xs.foldl Num.add x

/-- Combine neighbours. -/
def pairUp (f : Num → Num → Num) : List Num → List Num
  | a :: b :: r => f a b :: pairUp f r
  | r => r

/-- Combine level by level until two nodes remain; n levels suffice. -/
def treeDown (f : Num → Num → Num) : Nat → List Num → List Num
  | 0, l => l
  | n + 1, l => if l.length ≤ 2 then l else treeDown f n (pairUp f l)

/-- The sum node of the tree: exact sum rounded to odd (04 R92). -/
def nodeSum (a b : Num) : Num := rto34 (a.add b)

/-- The root's two children of a tree over leaves (04 R92). -/
def treePair (f : Num → Num → Num) (leaves : List Num) : Num × Num :=
  match treeDown f 12 leaves with
  | [a, b] => (a, b)
  | [a] => (a, .zero false)
  | _ => (.zero false, .zero false)

/-! ## Arithmetic of the vector unit (04 R86, 06 R170, R171) -/

/-- The integer square root, by bits from the top. -/
def isqrtAux : Nat → Nat → Nat → Nat
  | 0, _, r => r
  | k + 1, n, r => let c := r + 2 ^ k; if c * c ≤ n then isqrtAux k n c else isqrtAux k n r
/-- The integer square root of a number. -/
def isqrt (n : Nat) : Nat := isqrtAux (bitLen n / 2 + 1) n 0

/-- A value known to lie strictly between v and v + 1 units of 2^e, or to equal v: exact in the first bits, sticky in the last. -/
def stickyNum (neg : Bool) (v : Nat) (inexact : Bool) (e : Int) : Num :=
  let w : Int := 2 * (v : Int) + (if inexact then 1 else 0)
  mkNum (if neg then -w else w) (e - 1) neg

/-- The quotient to enough bits for one rounding (IEEE 754 division). -/
def Num.div : Num → Num → Num
  | .nan, _ => .nan
  | _, .nan => .nan
  | .inf _, .inf _ => .nan
  | .inf a, y => .inf (a != y.neg?)
  | x, .inf b => .zero (x.neg? != b)
  | .zero _, .zero _ => .nan
  | .zero a, y => .zero (a != y.neg?)
  | x, .zero b => .inf (x.neg? != b)
  | .fin m e, .fin n f =>
    let k := 64 + bitLen n.natAbs
    let num := m.natAbs * 2 ^ k
    stickyNum (decide (m < 0) != decide (n < 0)) (num / n.natAbs) (num % n.natAbs != 0) (e - f - k)

/-- The square root to enough bits for one rounding (06 Table 8). -/
def Num.sqrt : Num → Num
  | .nan => .nan
  | .inf true => .nan
  | .inf false => .inf false
  | .zero n => .zero n
  | .fin m e =>
    if m < 0 then .nan else
    let odd := e % 2 = 1
    let m1 := if odd then m.natAbs * 2 else m.natAbs
    let e1 := if odd then e - 1 else e
    let n := m1 * 2 ^ 128
    let r := isqrt n
    stickyNum false r (r * r != n) (e1 / 2 - 64)

/-- 1 / x (06 R171). -/
def Num.rcp (x : Num) : Num := (Num.fin 1 0).div x

/-- 1 / sqrt x (06 R171). -/
def Num.rsqrt : Num → Num
  | .nan => .nan
  | .inf true => .nan
  | .inf false => .zero false
  | .zero n => .inf n
  | .fin m e =>
    if m < 0 then .nan else
    let odd := e % 2 = 1
    let m1 := if odd then m.natAbs * 2 else m.natAbs
    let e1 := if odd then e - 1 else e
    let k := 2 * (64 + bitLen m1)
    let r := isqrt (2 ^ k / m1)
    stickyNum false r (r * r * m1 != 2 ^ k) (-(e1 / 2) - k / 2)

/-- 2^f for the fraction bits f of n bits below the point, to 320 bits: the product of repeated square roots of 2 (06 R171). -/
def exp2Frac : Nat → Nat → Nat → Nat → Nat
  | 0, _, _, acc => acc
  | n + 1, f, root, acc =>
    let r := isqrt (root * 2 ^ 320)
    exp2Frac n f r (if (f / 2 ^ n) % 2 = 1 then acc * r / 2 ^ 320 else acc)

/-- 2^x to enough bits for one rounding (06 R171): exact at integers, irrational elsewhere. -/
def Num.exp2 : Num → Num
  | .nan => .nan
  | .inf true => .zero false
  | .inf false => .inf false
  | .zero _ => .fin 1 0
  | .fin m e =>
    if 10 < (Num.fin m e).log2 then (if m < 0 then .fin 1 (-2000) else .fin 1 2000) else
    if 0 ≤ e then .fin 1 (m * 2 ^ e.toNat) else
    let n := (-e).toNat
    let ip := m / (2 ^ n : Nat)
    let fr := (m % (2 ^ n : Nat)).toNat
    if fr = 0 then .fin 1 ip else stickyNum false (exp2Frac n fr (2 * 2 ^ 320) (2 ^ 320)) true (ip - 320)

/-- Fraction bits of log2 y for y in [1, 2) held to 700 bits: square, and note each passage of 2 (06 R171). -/
def log2Frac : Nat → Nat → Nat → Nat
  | 0, _, acc => acc
  | n + 1, y, acc =>
    let s := y * y / 2 ^ 700
    if 2 ^ 701 ≤ s then log2Frac n (s / 2) (2 * acc + 1) else log2Frac n s (2 * acc)

/-- log2 x to enough bits for one rounding (06 R171): exact at powers of two, irrational elsewhere. -/
def Num.log2n : Num → Num
  | .nan => .nan
  | .inf true => .nan
  | .inf false => .inf false
  | .zero _ => .inf true
  | .fin m e =>
    if m < 0 then .nan else
    let l := bitLen m.natAbs - 1
    let ip := (l : Int) + e
    if m.natAbs = 2 ^ l then mkNum ip 0 false
    else
      let v := ip * 2 ^ 200 + (log2Frac 200 (m.natAbs * 2 ^ 700 / 2 ^ l) 0 : Int)
      .fin (2 * v + 1) (-201)

/-- The i32 nearest a binary32 value: NaN gives 0, beyond range saturates (06 Table 8). -/
def numToI32 (x : Num) : W32 :=
  match x with
  | .nan => 0
  | .inf true => 0x80000000#32
  | .inf false => 0x7FFFFFFF#32
  | .zero _ => 0
  | .fin _ _ =>
    match roundNum .rne 4096 0 x with
    | .fin m e => satI32 (m * 2 ^ e.toNat)
    | _ => 0

/-- Fused multiply-add, one rounding (04 R86, R106). -/
def fma32 (a b c : W32) : W32 := toF32 (((f32Num a).mul (f32Num b)).add (f32Num c))
def add32 (a b : W32) : W32 := toF32 ((f32Num a).add (f32Num b))
def sub32 (a b : W32) : W32 := toF32 ((f32Num a).sub (f32Num b))
def mul32 (a b : W32) : W32 := toF32 ((f32Num a).mul (f32Num b))
def div32 (a b : W32) : W32 := toF32 ((f32Num a).div (f32Num b))
def sqrt32 (a : W32) : W32 := toF32 (f32Num a).sqrt
/-- A natural number as binary32, one rounding. -/
def natF32 (n : Nat) : W32 := toF32 (mkNum n 0 false)

/-! ## FP32 by splitting, strict mode, masters (04 R103, R109, R110) -/

/-- The BF16 pieces of a binary32 operand (04 R103). -/
def splitF32 (n : Nat) (x : Num) : List Num :=
  if !x.isFin then [x, .zero false, .zero false] else
  let cut (y : Num) : Num := Fmt.bf16.decode (Fmt.bf16.convert .rne true y)
  let a0 := cut x
  let r1 := x.sub a0
  let a1 := cut r1
  [a0, a1, if n = 3 then cut (r1.sub a1) else .zero false]

/-- Encode a master as cream and whey (04 R109). -/
def encodeMaster (m : W32) : W16 × W16 :=
  let hi := (m >>> 16).setWidth 16
  let lo := m.toNat % 65536
  let neg := m.msb
  let up := if neg then decide (0x8000 < lo) else decide (0x8000 ≤ lo)
  let c : W16 := if up then hi + 1 else hi
  let k : Int := if neg then (if up then 0x10000 - lo else -lo) else (if up then (lo : Int) - 0x10000 else lo)
  (c, BitVec.ofInt 16 k)

/-- Whether a (cream, whey) pair is one that a valid master encodes to (04 R110). -/
def decodeExact (c k : W16) : Num :=
  let ec := (c.toNat / 128) % 256
  let e0 : Int := (Max.max ec 1 : Nat) - 127
  let neg := c.msb
  let ki := k.toInt
  let e := if c.toNat % 128 = 0 ∧ 2 ≤ ec ∧ ki ≠ 0 ∧ (decide (ki < 0) != neg) = true then e0 - 1 else e0
  (Fmt.bf16.decode c.toNat).add (mkNum ki (e - 23) false)

/-- Decode a master (04 R109). A pair that no valid master encodes to gives the free value (04 R110). -/
def decodeMaster (c k : W16) (free : W32) : W32 :=
  let m : W32 := BitVec.ofNat 32 (Fmt.f32.convert .rne true (decodeExact c k))
  let m' : W32 := if c = 0x8000#16 ∧ k = 0 then 0x80000000#32 else m
  if encodeMaster m' = (c, k) ∧ (m'.toNat % 2 ^ 31 ≤ 0x7F7F7FFF) then m' else free

/-- Saturate a master to the valid range (04 R110): the word and whether it saturated. -/
def satMaster (x : Num) : W32 × Bool :=
  let w := Fmt.f32.convert .rne false x
  if w % 2 ^ 31 ≤ 0x7F7F7FFF then (BitVec.ofNat 32 w, false)
  else (BitVec.ofNat 32 (if x.neg? then 0xFF7F7FFF else 0x7F7F7FFF), true)

end Sys2Proof.Machine
end

