-- ==== Sys2Proof/Machine/Flags.lean ====
section
/-! DEFINITION. The compare conditions of the scalar unit and the fault classes of a tile half (05 Table 6, 03 Table 9). -/
namespace Sys2Proof.Machine

/-- A compare condition (05 Table 6); codes 12 to 15 are reserved. -/
def condHolds (cc : Nat) (b x : W64) : Bool :=
  match cc with
  | 0 => b == x
  | 1 => b != x
  | 2 => decide (b.toInt < x.toInt)
  | 3 => decide (x.toInt ≤ b.toInt)
  | 4 => decide (b.toNat < x.toNat)
  | 5 => decide (x.toNat ≤ b.toNat)
  | 6 => decide (ftDiff b x < 0)
  | 7 => decide (0 ≤ ftDiff b x)
  | 8 => decide ((lo32 b - lo32 x).toInt < 0)
  | 9 => decide (0 ≤ (lo32 b - lo32 x).toInt)
  | 10 => b &&& x != 0
  | 11 => b &&& x == 0
  | _ => false

/-! The bits of TIL_Hh_FAULT (03 Table 9). -/
def fltIllegal : Nat := 0
def fltMemRange : Nat := 1
def fltSlotRange : Nat := 2
def fltMemError : Nat := 3
def fltDraught : Nat := 4
def fltSched : Nat := 5
def fltRemote : Nat := 6
def fltShape : Nat := 7
def fltHalted : Nat := 8

end Sys2Proof.Machine
end

