-- ==== Sys2Proof/Machine/StateEng.lean ====
section
/-! DEFINITION. State of the memory-side engines: vat adders, churn units and breeze engines (08). -/
namespace Sys2Proof.Machine

/-- The states of a bucket that is not FREE (08 Table 1). -/
inductive BucketMode where
  | zeroing | opened | closing | final
deriving DecidableEq, Repr

/-- An admitted vat operation held during ZEROING with its stamp (08 R219, R220). -/
inductive VatOp where
  | data   (src e0 : Nat) (bytes : List Byte)
  | marker (src : Nat) (val : W64)
deriving DecidableEq, Repr

/-- A bucket that is not FREE: its entry as read at OPEN, and its running results (08 Table 1, R215, R220). The words
stand in HBM, and so do the bitmaps, of which `seen` and `marks` are the vat's own copy. -/
structure Bucket where
  mode     : BucketMode
  f32      : Bool
  dl       : Bool
  x        : Int
  elems    : Nat
  nc       : Nat
  nodeBase : Nat
  data     : Nat
  intake   : Nat
  roster   : Nat
  deadline : W64
  notify   : Nat
  flags    : Byte := 0
  nan      : Bool := false
  maxexp   : Int := -32768
  nrecv    : W32 := 0
  w        : W64 := 0
  late     : W32 := 0
  surplus  : W32 := 0
  sumsq    : Nat := 0
  normsq   : W32 := 0
  closeFt  : W64 := 0
  seen     : List Nat := []
  marks    : List Nat := []
  held     : List (VatOp × W64) := []
  /-- CLOSE or the deadline came during ZEROING (R218). -/
  closing  : Bool := false
  /-- RELEASE waits for a churn descriptor to end (R218). -/
  releasing : Bool := false
deriving DecidableEq, Repr

/-- One stack's vat: the command status and its counters (08 Table 13). -/
structure VatState where
  status  : Nat := 0
  reason  : Nat := 0
  late    : W32 := 0
  refused : W32 := 0
deriving DecidableEq, Repr

/-- The phases of a churn unit (08 R225, R227, R232). -/
inductive ChurnPhase where
  | idle | waiting | blocks | ended
deriving DecidableEq, Repr

/-- The outcomes of a churn descriptor (08 R235). -/
inductive ChurnOutcome where
  | ok | partly | skipped | noNorm | bucket | stopped | malformed
deriving DecidableEq, Repr

/-- The mirror of a block under way (08 R233): the block, whether it was resent (R234), remote writes of its data not
yet acknowledged, the status byte, and whether its remote record has been sent. -/
structure MirrorWork where
  block   : Nat
  resend  : Bool
  out     : Nat := 0
  status  : Byte
  record  : List Byte := []
  addr    : W64 := 0
  recordSent : Bool := false
  acked   : Bool := false
  failed  : Bool := false
deriving DecidableEq, Repr

/-- One churn unit (08). `clip` is the factor of R227, or the trust ratio in LAMB pass 2. -/
structure ChurnState where
  phase    : ChurnPhase := .idle
  desc     : List Byte := []
  who      : Who := { kind := .engine, node := 0, endpoint := 168, owner := 0xFF }
  queue    : Option Nat := none
  block    : Nat := 0
  clip     : W32 := 0
  /-- The hyperparameter block, read once (08 Table 5): none where it met an uncorrectable error. -/
  hyp      : Option (List Byte) := none
  pw       : W32 := 0
  pu       : W32 := 0
  outcome  : ChurnOutcome := .ok
  flagged  : Bool := false
  /-- A block of the parameters has been written (10 R291). -/
  wrote    : Bool := false
  /-- A block saturated, and the blocks that ended with ERROR (10 R288). -/
  sat      : Bool := false
  errs     : List Nat := []
  mirror   : Option MirrorWork := none
  /-- LAMB pass 1: the pair has been sent, and what came back. -/
  pairSent : Bool := false
  pairOut  : Nat := 0
  pairFail : Bool := false
  pairDone : Bool := false
  blocks   : W64 := 0
  stopAsk  : Bool := false
  /-- The part was in FREE or ACQUIRE at some moment of the wait (R227). -/
  lost     : Bool := false
deriving DecidableEq, Repr

/-- The outcomes of a breeze descriptor (08 R237, R238). -/
inductive BreezeOutcome where
  | ok | stopped | malformed | memError | refused
deriving DecidableEq, Repr

/-- One breeze engine (08): `vectors` is its vector buffer, the elements and the scales of each, and `row` the first weight
row not yet streamed. -/
structure BreezeState where
  busy    : Bool := false
  desc    : List Byte := []
  vectors : List (List Byte × List Byte) := []
  row     : Nat := 0
  who     : Who := { kind := .engine, node := 0, endpoint := 184, owner := 0xFF }
  queue    : Option Nat := none
  outcome : Option BreezeOutcome := none
  sat     : W32 := 0
  bytes   : W64 := 0
  stopAsk : Bool := false
deriving DecidableEq, Repr

/-- The engines of all stacks. Buckets are keyed 4096 × stack + entry. -/
structure EngState where
  buckets : MapOf Bucket := []
  vats    : MapOf VatState := []
  churns  : MapOf ChurnState := []
  breezes : MapOf BreezeState := []
deriving DecidableEq, Repr

end Sys2Proof.Machine
end

