-- ==== Sys2Proof/Machine/StateFe.lean ====
section
/-! DEFINITION. State of the command front end (12): submission queues, completion queues, admin queues and engines. -/
namespace Sys2Proof.Machine

/-- A dispatched task: its queue, its descriptor, when it started, and the status with which a stop that has reached it
ends it (12 R326, R339). -/
structure Task where
  queue : Nat
  desc  : List Byte
  start : W64 := 0
  stop  : Option Nat := none
deriving DecidableEq, Repr

/-- A completion entry before it has a sequence number (12 Table 3), with IRQ of its task, and whether it returns a
STOPPED half to IDLE once placed (R339). -/
structure CEntry where
  qid    : Nat
  status : Nat
  kernel : Bool := false
  tag    : W64
  start  : W64
  fin    : W64
  irq    : Bool := false
  frees  : Bool := false
deriving DecidableEq, Repr

/-- A placed entry: its number, and whether it has passed through the hold ring (12 R331, R336). -/
structure Placed where
  entry : CEntry
  seq   : W32
  held  : Bool
deriving DecidableEq, Repr

/-- The states of a completion queue that is not FREE (12 Table 12). -/
inductive CqMode where
  | active | stalled
deriving DecidableEq, Repr

/-- A completion queue that is not FREE (12 R331-R337). `placed` counts the numbers given, `tail` is the last one
written; `writing` holds entries of which bytes 4 to 31 are written, `hold` those of the hold ring in order, `late` those
that engines keep in their completion registers, with the engine, in the order the tasks ended. `asked` says that a
translation asked for by a resume has not yet come. -/
structure CqState where
  mode    : CqMode := .active
  log2    : Nat
  loc     : Bool
  irqAll  : Bool
  vec     : Nat
  base    : W64
  head    : W32 := 0
  tail    : W32 := 0
  placed  : W32 := 0
  hold    : List Placed := []
  writing : List Placed := []
  late    : List (Nat × CEntry) := []
  asked   : Bool := false
  /-- The contexts and tags of RESUME_CQ commands that wait for a translation (R343). -/
  resumes : List (Nat × W64) := []
deriving DecidableEq, Repr

/-- The states of a submission queue that is not FREE (12 Table 5). -/
inductive SqMode where
  | enabled | paused | stopped | draining | tombstone
deriving DecidableEq, Repr

/-- An armed window (12 R327): its start in schedule time, its length in ftu, its tiles and its engines. -/
structure Window where
  start   : W64
  len     : Nat
  tiles   : Nat
  churns  : Nat
  breezes : Nat
deriving DecidableEq, Repr

/-- A submission queue that is not FREE (12 R320-R345). `buf` is the prefetch buffer, each descriptor with the status its
check found; `running` the tasks dispatched and without a placed entry; `acks` the engines that a stop still waits for;
`stopCmd` and `destroyCmd` the contexts and tags of admin commands to complete, a STOP_SQ with the ABORTED count that it
found. -/
structure SqState where
  mode     : SqMode := .enabled
  ctx      : Nat
  sched    : Bool
  loc      : Bool
  errPause : Bool
  log2     : Nat
  cq       : Nat
  base     : W64
  slice    : Nat
  limit    : Nat
  head     : W32 := 0
  tail     : W32 := 0
  fetched  : W32 := 0
  buf      : List (List Byte × Nat) := []
  running  : Nat := 0
  acks     : List Nat := []
  aborted  : Nat := 0
  destroyed : Nat := 0
  stopCmd  : List (Nat × W64 × Nat) := []
  destroyCmd : Option (Nat × W64) := none
  window   : Option Window := none
deriving DecidableEq, Repr

/-- An engine of the front end (12 R324, R325, R329): the arbiter's holder and its used time, the running task and the
draught. `loaded` says the preload is done, `redo` that the task loads everything again at its start, `swapped` that the
banks have exchanged for it. -/
structure EngineFe where
  holder  : Option Nat := none
  used    : Nat := 0
  running : Option Task := none
  draught : Option Task := none
  loaded  : Bool := false
  redo    : Bool := false
  swapped : Bool := false
deriving DecidableEq, Repr

/-- An admin queue pair (12 R342): commands announced and taken. -/
structure AdminState where
  tail : W32 := 0
  head : W32 := 0
deriving DecidableEq, Repr

/-- The front end. Engines are keyed by their endpoint (11 Table 1), completion queues by number, the admin completion
queue of context c by 256 + c. -/
structure FeState where
  sqs     : MapOf SqState := []
  cqs     : MapOf CqState := []
  engines : MapOf EngineFe := []
  admins  : MapOf AdminState := []
  dbErr   : W32 := 0
deriving DecidableEq, Repr

end Sys2Proof.Machine
end

