-- ==== Sys2Proof/Machine/StateGc.lean ====
section
/-! DEFINITION. State of the general cores, their services and the ingest engines (15), and of power and clocks (18). -/
namespace Sys2Proof.Machine

/-- The steps of a cluster update (15 R405): accepted, running on the standby with the new image loaded. -/
inductive UpdatePhase where
  | accepted | loaded
deriving DecidableEq, Repr

/-- A cluster update under way: who asked, with which request, and the image's digest and version. -/
structure Update where
  cluster : Nat
  ctx     : Option Nat
  seq     : W32
  digest  : List Byte
  svn     : Nat
  commit  : Bool
  phase   : UpdatePhase := .accepted
deriving DecidableEq, Repr

/-- The general cores' services (15 R402-R405): MSI-X vectors by context, clusters whose services their standby carries,
clusters that failed and whose services move at the next commit, the update under way, and the partitions loaded. -/
structure GcState where
  vectors : MapOf Nat := []
  moved   : List Nat := []
  failed  : List Nat := []
  update  : Option Update := none
  parts   : List Nat := []
  /-- The dictionary slots of the ingest engines that firmware has loaded (15 R407). -/
  dicts   : MapOf (List Byte) := []
deriving DecidableEq, Repr

/-- An ingest descriptor under way (15 R408): its ring, its fields, the status found, the output written, and whether
every access of it has been made. -/
structure IngWork where
  ring   : Nat
  owner  : Nat
  desc   : List Byte
  status : Nat
  output : List Byte
deriving DecidableEq, Repr

/-- One ingest engine (15 R406, Table 8): descriptors ended, the ring served last, each ring's head, and the descriptor
under way. -/
structure IngEngine where
  done  : W32 := 0
  last  : Nat := 3
  heads : MapOf W32 := []
  work  : Option IngWork := none
deriving DecidableEq, Repr

/-- One quadrant's clock ceiling and its sources (18 R458-R468). Times are of the fabric-time clock, in ftu. -/
structure QuadPwr where
  ceil    : Nat := 1750
  thermal : Nat := 2100
  current : Nat := 2100
  /-- A rise in progress: its target and when it began. -/
  rise    : Option (Nat × W64) := none
  lastRise : Option W64 := none
  /-- When the ceiling last fell with the voltage still to follow. -/
  fell    : Option W64 := none
  /-- The AVS target last written for the rail, as the ceiling it serves. -/
  volt    : Nat := 1750
  temp    : Nat := 0
  amps    : Nat := 0
  overs   : Nat := 0
  limiting : Bool := false
  curStep : Option W64 := none
  warm    : Bool := false
  hot     : Bool := false
  crit    : Bool := false
  thmStep : Option W64 := none
  /-- GUST_N is asserted, and until when. -/
  gust    : Option W64 := none
  /-- The tile PLL has lost lock (R471). -/
  unlocked : Bool := false
deriving DecidableEq, Repr

/-- One AVS rail (18 R456). -/
structure AvsRail where
  mv      : W16 := 0
  deciA   : W16 := 0
  degC    : Byte := 0
  status  : Byte := 0
  fault   : Bool := false
  silent  : Nat := 0
  bad     : Nat := 0
  good    : Nat := 0
deriving DecidableEq, Repr

/-- Power and clocks (18). -/
structure PwrState where
  quads   : MapOf QuadPwr := []
  rails   : MapOf AvsRail := []
  /-- FE_CTL.EN has been 1 since the reset (R459). -/
  feSeen  : Bool := false
  droops  : MapOf W16 := []
  refLost : Bool := false
  sdLost  : List Nat := []
  /-- CLK_STATUS bits that have risen. -/
  locks   : BitVec 20 := 0
  thermTrip : Bool := false
  /-- Waits whose warning has been given: half 2 × tile + half, place in program order, absolute target (R463, R464). -/
  warned  : List (Nat × Nat × Bool) := []
deriving DecidableEq, Repr

end Sys2Proof.Machine
end

