-- ==== Sys2Proof/Machine/StateMem.lean ====
section
/-! DEFINITION. State of HBM and its controllers (07) and of synchronisation (11). -/
namespace Sys2Proof.Machine

/-- The states of a seal entry (07 Table 10). -/
inductive SealMode where
  | free | opened | closing
deriving DecidableEq, Repr

/-- A seal entry (07 R194, R195); firmware alone writes it. The two keys stand as one number that no interface reads;
`written` holds the 64-byte blocks written since the region was opened. -/
structure SealEntry where
  base   : Nat := 0
  rows   : Nat := 0
  owner  : Nat := 0
  access : BitVec 4 := 0
  mode   : SealMode := .free
  gen    : W16 := 0
  key    : Nat := 0
  written : List Nat := []
deriving DecidableEq, Repr

/-- The state of a stack's repair command (07 Table 9). -/
inductive RetireMode where
  | idle | busy | done | refused
deriving DecidableEq, Repr

/-- What a stack's controller copies: a retirement, a release, or the rows of an sPPR; whether firmware asked for it. -/
inductive RetireWork where
  | retire  (p r : Nat)
  | release (p r : Nat)
  | sppr    (p r : Nat)
deriving DecidableEq, Repr

/-- One HBM stack (07). Granules are keyed p × 2^22 + r. `remap` gives each retired granule its spare and lost mask;
`track` the corrected-error counts, most recently hit first; `queue` the retirements the controller itself began. -/
structure StackMem where
  present  : Bool := false
  trained  : Bool := false
  scrubbing : Bool := false
  /-- How far the patrol pass in progress has come, as a stack offset (07 R204). -/
  scrubAt  : Nat := 0
  pprBusy  : Bool := false
  temp     : Nat := 0
  ceCnt    : W64 := 0
  ueCnt    : W32 := 0
  errAddr  : W64 := 0
  errInfo  : W32 := 0
  remap    : MapOf (Nat × W16) := []
  track    : List (Nat × Nat) := []
  status   : RetireMode := .idle
  work     : Option RetireWork := none
  queue    : List Nat := []
  lostSel  : Option Nat := none
deriving DecidableEq, Repr

/-- An access that waits for the end of an sPPR (07 R210): its issuer and the operation. -/
structure HeldAccess where
  who  : Who
  addr : Nat
  op   : MemOp
deriving DecidableEq, Repr

/-- Memory (07): HBM bytes by interleaved local address, the 64-byte blocks and watch words that hold an uncorrectable
error or a correctable one not yet found (`weak`), seals and stacks. -/
structure MemState where
  hbm     : MapOf Byte := []
  bad     : List Nat := []
  badSync : List Nat := []
  weak    : List Nat := []
  weakSync : List Nat := []
  seals   : MapOf SealEntry := []
  hbmStacks : MapOf StackMem := []
  /-- Accesses refused by R196, for "counted". -/
  denied  : W32 := 0
  /-- An access of the command being done meets a pseudo-channel under sPPR: the command has to wait (R210). -/
  stall   : Bool := false
  /-- The accesses that wait for the end of an sPPR, oldest first. -/
  held    : List HeldAccess := []
deriving DecidableEq, Repr

/-- The phases of an order-table entry (11 R297). -/
inductive OrderPhase where
  | opening | ready | closing
deriving DecidableEq, Repr

/-- An entry of a source's order table (11 R297, R298). -/
structure OrderEntry where
  ep      : Nat
  node    : Nat
  sent    : W32 := 0
  unacked : Nat := 0
  used    : Nat := 0
  phase   : OrderPhase := .opening
deriving DecidableEq, Repr

/-- A held signal (11 R299). -/
structure HeldSig where
  who   : Who
  addr  : Nat
  val   : W64
  count : W32
  rtag  : W16
  /-- The packet that brought it, to be answered. -/
  pk    : Option Packet
deriving DecidableEq, Repr

/-- The internal state of one vane entry (11 R307, R310). -/
structure VaneState where
  fwd    : Nat := 0
  broken : Bool := false
deriving DecidableEq, Repr

/-- What a vane entry has still to do at a word (11 R308, R310). -/
inductive VaneAct where
  | set (word : Nat) (v : W64)
  | add (node loc : Nat) (v : W64)
  | maxu (node loc : Nat) (v : W64)
  /-- Bit 62 of a word of this part. -/
  | brk (loc : Nat)
deriving DecidableEq, Repr

/-- A host posted write: of memory, or of a register by its offset in the function's BAR0 (11 R301). -/
inductive HostOp where
  | mem (who : Who) (addr : Nat) (bytes : List Byte)
  | reg (off : Nat) (bytes : List Byte)
deriving DecidableEq, Repr

/-- A posted write with the function that made it. -/
structure HostWrite where
  func : Nat
  op   : HostOp
deriving DecidableEq, Repr

/-- Synchronisation (11). The ledger is keyed 256 × node + endpoint. -/
structure SyncState where
  words    : MapOf W64 := []
  orders   : List OrderEntry := []
  /-- The tags of requests that wait for an order-table entry. -/
  stalled  : List W16 := []
  useClock : Nat := 0
  ledger   : MapOf W32 := []
  hold     : List HeldSig := []
  peak     : Nat := 0
  /-- Host posted writes that have not landed, and those held behind them in the hold buffer, oldest first (R301). -/
  hostOut  : List HostWrite := []
  hostHold : List HostWrite := []
  /-- The tags of requests refused for retry and to be sent again (R299). -/
  retries  : List W16 := []
  retryCnt : W32 := 0
  hits     : MapOf W32 := []
  vanes    : MapOf VaneState := []
  work     : List VaneAct := []
  lead     : Nat := 4000
  /-- The latencies of the last 256 wakes, newest first, and the wakes since the last adaptation (R314). -/
  wakes    : List Nat := []
  wakeCnt  : Nat := 0
deriving DecidableEq, Repr

end Sys2Proof.Machine
end

