-- ==== Sys2Proof/Machine/StateRas.lean ====
section
/-! DEFINITION. State of availability (19): the fault log, the tile map, tile retirement and the bridges. -/
namespace Sys2Proof.Machine

/-- A fault-log entry detected and not yet written (19 Table 2). -/
structure LogItem where
  block  : Nat
  kind   : Nat
  unit   : Nat
  time   : W64
  addr   : W64
  info   : W64
  record : List Byte
deriving DecidableEq, Repr

/-- The states of a physical tile (19 Table 6). -/
inductive PhysMode where
  | active | spare | retired | retiring
deriving DecidableEq, Repr

/-- A physical tile: its state once a retirement has changed it, and its error counts. -/
structure PhysTile where
  mode : Option PhysMode := none
  ce   : Nat := 0
  ue   : Nat := 0
deriving DecidableEq, Repr

/-- The steps of a tile retirement (19 R482): waiting for quiet (1, 2), holding accesses and copying (3, 4), the old
tile still to be cleared (6). -/
inductive RetirePhase where
  | quiet | copy | clear
deriving DecidableEq, Repr

/-- A tile retirement under way. -/
structure TileJob where
  tile   : Nat
  old    : Nat
  target : Nat
  copy   : Bool
  phase  : RetirePhase
deriving DecidableEq, Repr

/-- One die-to-die bridge (19 R487): lost, and spare lanes in use. -/
structure BridgeState where
  lost   : Bool := false
  spares : Nat := 0
deriving DecidableEq, Repr

/-- State of the RAS block (19). -/
structure RasState where
  log     : List LogItem := []
  count   : W32 := 0
  tmap    : MapOf Nat := []
  ptiles  : MapOf PhysTile := []
  status  : Nat := 0
  result  : Nat := 0
  newPhys : Nat := 0
  job     : Option TileJob := none
  bridges : MapOf BridgeState := []
deriving DecidableEq, Repr

end Sys2Proof.Machine
end

