-- ==== Sys2Proof/Machine/StateRegs.lean ====
section
/-! DEFINITION. State of the register interface (17), of fabric time (02), of the links (13) and of the PCI Express endpoint (14). -/
namespace Sys2Proof.Machine

/-- One event register (17 R438-R441): its flags, SEQ, when SEQ last advanced (elapsed ftu), and an advance still
pending with the flags merged into it. -/
structure EventReg where
  flags   : W16 := 0
  seq     : W16 := 0
  last    : Option Nat := none
  pend    : Option W16 := none
deriving DecidableEq, Repr

/-- The shadow of one requester (17 R436): the pair (offset of its _LO) and the _HI copied. -/
structure Shadow where
  req  : Req
  pair : Nat
  hi   : W32
deriving DecidableEq, Repr

/-- The staging word of one requester for one pair (17 R437). -/
structure Staged where
  req  : Req
  pair : Nat
  lo   : W32
deriving DecidableEq, Repr

/-- The state of the configuration check (17 R443, R444, Table 6). -/
inductive CrcMode where
  | off | comparing | holding | committing
deriving DecidableEq, Repr

/-- Register state (17). `words` holds the software-written bits by BAR0 offset; an unlisted register stands at its
reset value. -/
structure RegState where
  words     : MapOf W32 := []
  events    : MapOf EventReg := []
  shadows   : List Shadow := []
  staged    : List Staged := []
  crcCur    : W32 := 0
  crcMode   : CrcMode := .off
  crcMatch  : Bool := false
  crcPasses : W16 := 0
  crcWords  : W32 := 0
  /-- A pass has begun after the COMMIT write (17 R444): the next pass end captures. -/
  crcArmed  : Bool := false
  /-- A compared pass did not match and no later one has (17 R443). -/
  crcBad    : Bool := false
  /-- Dispatch is frozen by the check (17 R443). -/
  crcFrozen : Bool := false
  sqStale   : W32 := 0
deriving DecidableEq, Repr

/-- The fabric-time states of 02 Table 1, in the order of FT_STATE.STATE. -/
inductive FtMode where
  | free | acquire | locked | holdover | master
deriving DecidableEq, Repr

/-- A candidate named by an announce heard on a port (02 R27), with the hops this chip would have to it, and the beats
since it was last heard there. -/
structure Candidate where
  node     : Nat
  prio     : Nat
  external : Bool
  hops     : Nat
  age      : Nat := 0
deriving DecidableEq, Repr

/-- A slip notice this chip holds or remembers (02 R39, R43). -/
structure HeldNotice where
  notice  : SlipNotice
  late    : Bool := false
  applied : Bool := false
deriving DecidableEq, Repr

/-- Fabric-time state (02). -/
structure FtState where
  now        : W64 := 0
  frac       : W32 := 0
  incr       : W64 := 0x28000000000#64
  slip       : W64 := 0
  mode       : FtMode := .free
  parent     : Option Nat := none
  hops       : Nat := 0
  external   : Bool := false
  /-- FT_MASTER: none stands for this chip's own node (Table 7's reset value). -/
  master     : Option Nat := none
  masterPrio : Nat := 0
  offset     : W32 := 0
  applied    : W16 := 0
  late       : W16 := 0
  ppsCap     : W64 := 0
  /-- FT_PPS is valid: an edge has come and none was missed since (02 R27, R30). -/
  ppsValid   : Bool := false
  /-- FT_REF has its 10 MHz edges (02 R27); no command of the table tells of its loss (log 7). -/
  refValid   : Bool := true
  /-- When FT_PPS last rose, in elapsed ftu (02 R30). -/
  ppsAt      : Option Nat := none
  /-- The FT_NOW at which the disciplined master expects the next edge of FT_PPS (02 R30). -/
  ppsExpect  : Option W64 := none
  epochArmed : Bool := false
  members    : List Nat := []
  heard      : MapOf Candidate := []
  selfBest   : Nat := 0
  inLock     : Nat := 0
  missed     : Nat := 0
  stepAllowed : Bool := false
  notices    : List HeldNotice := []
  added      : MapOf Nat := []
  nextNotice : W16 := 0
  /-- A late notice was applied and the step controller has not yet taken the report (R43). -/
  reportLate : Bool := false
deriving DecidableEq, Repr

/-- The port states of 13 Table 9, in the order of LNK_Ln_STATE.STATE. -/
inductive PortMode where
  | disabled | detect | train | align | exchange | active | drained | retrain | lost | fault
deriving DecidableEq, Repr

/-- One key of a sealed direction (13 R376): the slot's key material, the session value of its IV and the packets
counted under it. -/
structure SealKey where
  key     : Nat := 0
  session : W32 := 0
  count   : Nat := 0
deriving DecidableEq, Repr

/-- A symbol of the link's Reed-Solomon code (13 R350). -/
abbrev Symbol := BitVec 10

/-- What a port's lanes carry at a time (13 R350): a codeword, each lane with its symbols, or an alignment marker on each
of the lanes named. -/
inductive Wire where
  | codeword (lanes : List (Nat × List Symbol))
  | marker (lanes : List Nat)
deriving DecidableEq, Repr

/-- One Limrad port (13). -/
structure PortState where
  mode        : PortMode := .disabled
  lanes       : Nat := 0
  isSealed    : Bool := false
  reason      : Nat := 0
  inRoutes    : Bool := false
  sameDomain  : Bool := false
  partnerNode : Nat := 0
  partnerPort : Nat := 0
  partnerRec  : List Byte := []
  recorded    : Option (Nat × Nat) := none
  everActive  : Bool := false
  /-- The port may be in routes but for a drain: its partner is the recorded one (13 R371). -/
  joined      : Bool := false
  /-- The partner has this chip as its fabric-time parent (13 Table 11 HOPS[5]). -/
  child       : Bool := false
  rtt         : W32 := 0
  delay       : W32 := 0
  offB        : W32 := 0
  probes      : Nat := 0
  rttSum      : Int := 0
  offSum      : Int := 0
  failed      : BitVec 9 := 0
  rxSpare     : Option Nat := none
  txSpare     : Option Nat := none
  /-- The transmitter no longer drives the lane that lane 8 replaces (13 R372). -/
  txSwapped   : Bool := false
  /-- The lanes that carry data at four lanes, per direction (13 R373). -/
  rxLanes     : List Nat := []
  txLanes     : List Nat := []
  swapping    : Option Nat := none
  swapSeq     : Option W32 := none
  missed      : Nat := 0
  agreed      : Bool := false
  asked       : Bool := false
  /-- The retrain asked for or under way is a width change (13 R373). -/
  narrow      : Bool := false
  paused      : Nat := 0
  draining    : Bool := false
  txSeq       : W16 := 0
  rxSeq       : W16 := 0
  replay      : List (List Byte) := []
  replays     : Nat := 0
  nak         : Bool := false
  discarding  : Bool := false
  /-- Credits held for VC0-VC3 of class 0, then of class 1. -/
  credits     : List Nat := [0, 0, 0, 0, 0, 0, 0, 0]
  /-- Credits to return to the partner, in the same order. -/
  owed        : List Nat := [0, 0, 0, 0, 0, 0, 0, 0]
  /-- The packet arriving on each virtual channel, flit bodies so far. -/
  partials    : List (List Byte) := [[], [], [], []]
  /-- Packets arrived whole and not yet delivered or forwarded. -/
  rx          : List Packet := []
  /-- Packets queued for this port and not yet begun. -/
  txq         : List Packet := []
  /-- The flits still to be sent of the packet that each virtual channel has begun. -/
  txf         : List (List (List Byte)) := [[], [], [], []]
  /-- Flits of the present 256, those of VC1 among them, and whether VC3 is next of VC2 and VC3 (13 Table 7). -/
  run         : Nat := 0
  vc1Run      : Nat := 0
  vc3Next     : Bool := false
  /-- Flits sent since the last link control flit (13 R353). -/
  sinceLink   : Nat := 0
  /-- The bits of the message that fills, their number, and the flits since the last alignment marker (13 R350). -/
  txBits      : Nat := 0
  txLen       : Nat := 0
  txSlot      : Nat := 0
  /-- What the lanes have carried, newest first. -/
  wire        : List Wire := []
  fecCorr     : W64 := 0
  fecUncorr   : W32 := 0
  crcErr      : W32 := 0
  replayCnt   : W32 := 0
  sealFail    : W32 := 0
  noRoute     : W32 := 0
  badType     : W32 := 0
  txKeys      : List SealKey := [{}, {}]
  rxKeys      : List SealKey := [{}, {}]
  txPhase     : Bool := false
  /-- The nonce this part sent in its last SEAL_MSG and the number of its ephemeral secret (16 R423). -/
  sealNonce   : List Byte := []
  sealSecret  : Nat := 0
deriving DecidableEq, Repr

/-- What an answer to an outstanding request of this part serves (13 R355, R356): a global operation, a piece of a
movement descriptor, the opening or closing of an order-table entry, a mirror or trust write of a churn unit, an access of
a general core, a piece of a block's restoring, or nothing that waits for it. -/
inductive ReqFor where
  | global (t h idx : Nat)
  | move (t ch : Nat)
  | openEntry
  | closeEntry
  | mirror (stack : Nat)
  | lamb (stack : Nat)
  | core (g : Nat)
  | restore
  | other
deriving DecidableEq, Repr

/-- An outstanding request: its tag, the endpoint that issued it, the packet (kept for a retry, 11 R299), how many
requests it counts as (13 R355), and what waits for it. -/
structure OutReq where
  rtag   : W16
  ep     : Nat
  pk     : Packet
  pieces : Nat
  use    : ReqFor
deriving DecidableEq, Repr

/-- Link state (13): the ports, the outstanding requests and the next tag. -/
structure LinkState where
  ports         : MapOf PortState := []
  requests      : List OutReq := []
  nextTag       : W16 := 0
  noRouteOrigin : W32 := 0
deriving DecidableEq, Repr

/-- The states of a TDI (14 R394, 16 R424). -/
inductive Tdi where
  | unlocked | locked | run | error
deriving DecidableEq, Repr

/-- One MSI-X table entry (14 R393): address, data, mask and pending bit. -/
structure MsixEntry where
  addr    : W64 := 0
  data    : W32 := 0
  masked  : Bool := true
  pending : Bool := false
deriving DecidableEq, Repr

/-- Configuration state of one function (14 R381, R391, R393). -/
structure FuncCfg where
  busMaster : Bool := false
  memSpace  : Bool := false
  msixOn    : Bool := false
  msixMask  : Bool := false
  ats       : Bool := false
  /-- Max Payload Size and Max Read Request Size, 128 × 2^code bytes, and the Completion Timeout in ms (14 Table 1, R389). -/
  maxPayload : Nat := 0
  maxRead   : Nat := 2
  cplMs     : Nat := 50
  /-- The function is in D3hot (14 Table 1). -/
  d3        : Bool := false
  ideKey    : List Byte := []
deriving DecidableEq, Repr

/-- State of the PCI Express endpoint (14). MSI-X entries are keyed 2048 × function + entry. -/
structure PciState where
  rate     : Nat := 0
  width    : Nat := 0
  /-- The width that the link trained to, which L0p narrows (14 R382). -/
  full     : Nat := 0
  flit     : Bool := false
  dlUp     : Bool := false
  cfgReady : Bool := false
  urCnt    : W32 := 0
  caCnt    : W32 := 0
  poison   : W32 := 0
  cplTo    : W32 := 0
  msix     : MapOf MsixEntry := []
  funcs    : MapOf FuncCfg := []
  vfEnable : Bool := false
  numVfs   : Nat := 0
  bar4Log2 : Nat := 30
  vfBar4Log2 : Nat := 30
  tdi      : MapOf Tdi := []
  /-- ATS translations in use: function, page, writable (R390). -/
  atc      : List (Nat × Nat × Bool) := []
  /-- AER status bits set: correctable, UR, CA, poisoned, timeout, malformed (R396). -/
  aer      : BitVec 6 := 0
  /-- The reading session under way: SPDM session and the report obtained in it (16 R418). -/
  session  : Option Nat := none
  reported : Bool := false
deriving DecidableEq, Repr

end Sys2Proof.Machine
end

