-- ==== Sys2Proof/Machine/StateStep.lean ====
section
/-! DEFINITION. State of the step controller and its reduction orchestration (09, 10, 19 R488-R491). -/
namespace Sys2Proof.Machine

/-- An entry of the bucket plan (09 Table 2). -/
structure PlanEntry where
  owner   : Nat
  stack   : Nat
  primary : Nat
  alternate : Nat
  trust   : Bool
  tied    : Bool
  tpair   : Nat
deriving DecidableEq, Repr

/-- A group record with its member bitmap and its plan (09 Table 1), the address of the step record, and the schedule
(10 R285, 15 Table 3). -/
structure Group where
  id       : Nat
  nc       : Nat
  nodeBase : Nat
  elastic  : Bool
  h        : Nat
  nh       : Nat
  redo     : Nat
  root     : Nat
  normPrimary : Nat
  normAlternate : Nat
  normStack : Nat
  bitmap   : List Byte
  normWord : Nat
  plan     : List PlanEntry
  stepRec  : Nat
  schedule : Schedule
deriving DecidableEq, Repr

/-- The classes of a bucket attempt (09 Table 5). -/
inductive BucketClass where
  | nonfinite | redo | short | clean
deriving DecidableEq, Repr

/-- A bucket of this member in an attempt at a step: which entry the current attempt uses, how many further attempts it
has had, whether the current attempt is a pre-pass, and what it left at FINAL, with the drain vanes passed by then (09 R242,
R251, R254). -/
structure BucketTry where
  alternate : Bool := false
  further  : Nat := 0
  pre      : Bool := false
  final    : Bool := false
  cls      : Option BucketClass := none
  maxexp   : Int := -32768
  flags    : Byte := 0
  marks    : List Nat := []
  x        : Int := 0
  data     : Nat := 0
  normsq   : W32 := 0
  vane     : Nat := 0
deriving DecidableEq, Repr

/-- A command that the step controller gives a vat: OPEN with its scale, whether DL is set and the deadline the schedule
places; CLOSE; or RELEASE, which waits for FINAL. -/
inductive VatOrder where
  | openAt (x : Int) (dl : Bool) (deadline : Option W64)
  | close
  | release
deriving DecidableEq, Repr

/-- A block whose inputs are being restored from its buddy (10 R288, 19 R489): the pieces of the remote record and of the
mirror data, with their tags and what came. -/
structure Restore where
  stack  : Nat
  queue  : Option Nat
  desc   : List Byte
  block  : Nat
  parts  : List (Option W16 × Option (List Byte))
  failed : Bool := false
deriving DecidableEq, Repr

/-- A churn descriptor that left blocks with ERROR, with how often it has been rerun (10 R288). -/
structure FailedChurn where
  stack  : Nat
  task   : List Byte
  queue  : Nat
  desc   : List Byte
  blocks : List Nat
  reruns : Nat
deriving DecidableEq, Repr

/-- A LAMB pass 1 that has ended in this step (08 R231, 09 R264). -/
structure PassOne where
  stack : Nat
  task  : List Byte
  queue : Nat
  desc  : List Byte
deriving DecidableEq, Repr

/-- A pass 1 to be run again with other addresses of its trust bucket (09 R264). -/
structure Rerun where
  pass : PassOne
  mir  : W64
  mrec : W64
deriving DecidableEq, Repr

/-- What a commit records of a bucket: its plan index, final entry, class and MARK bitmap (09 R254). -/
structure Committed where
  key   : Nat
  entry : Nat
  cls   : Option BucketClass
  marks : List Nat
deriving DecidableEq, Repr

/-- The last checkpoint: its step, where it stands, and the ranges it holds (15 Table 3, 19 R492). -/
structure Checkpoint where
  step   : W64
  dest   : Nat
  ranges : List (Nat × Nat)
deriving DecidableEq, Repr

/-- The step controller. `hist` holds MAXEXP and LSEXP of the last final attempt of the previous step by plan index, the
norm bucket at 2^32; `histNow` those of the step `histStep`, the last one attempted. -/
structure StepState where
  group     : Option Group := none
  running   : Bool := false
  /-- Steps still to commit; none without a limit. -/
  left      : Option Nat := none
  fallbackAsk : Bool := false
  /-- The run's first step has not been attempted yet, or the group record has changed since the last attempt. -/
  fresh     : Bool := true
  prevSat   : Bool := false
  interval  : Nat := 2000
  cap       : Int := 24
  active    : Bool := false
  fallback  : Bool := false
  step      : W32 := 0
  lsexp     : Int := 0
  /-- The step record as it was read at the attempt's start, with ATTEMPT advanced (10 R287). -/
  record    : List Byte := []
  /-- Drain vanes passed in this attempt, and the schedule time of the last (09 R242, R255). -/
  vanes     : Nat := 0
  vaneAt    : W64 := 0
  tries     : MapOf BucketTry := []
  /-- The earlier attempts of the step's buckets, oldest first (09 R242). -/
  past      : List (Nat × BucketTry) := []
  hist      : MapOf (Int × Int) := []
  histNow   : MapOf (Int × Int) := []
  histStep  : W32 := 0
  /-- The scheduled queues enabled for the attempt (10 R287). -/
  queues    : List Nat := []
  orders    : List (Nat × Nat × VatOrder) := []
  partialSent : Bool := false
  normTry   : Nat := 0
  lostLock  : Bool := false
  abandoned : Bool := false
  normWord  : Option W64 := none
  forwarded : Bool := false
  voted     : Bool := false
  published : Bool := false
  satSeen   : Bool := false
  /-- A bucket of this member reached FINAL with SAT in the attempt (09 Table 3). -/
  bucketSat : Bool := false
  /-- A churn descriptor of the step has written a block (10 R291). -/
  wrote     : Bool := false
  /-- TIL_Hh_SAT of every half at the attempt's start, keyed 2 × tile + half. -/
  satBase   : MapOf W32 := []
  /-- Trust contributions that NOMARK descriptors have left without a marker, and whether one of them failed. -/
  lambs     : List (W64 × Bool) := []
  /-- Pass 1 descriptors that have ended in the attempt, and those to be run again (09 R264). -/
  passOnes  : List PassOne := []
  reruns    : List Rerun := []
  failures  : List FailedChurn := []
  restores  : List Restore := []
  /-- A block stayed unwritten after two reruns. -/
  unwritten : Bool := false
  /-- Churn descriptors rerun at this attempt, by stack and descriptor. -/
  rerun     : List (Nat × List Byte × Nat) := []
  /-- The last outcome: 0 none, 1 COMMITTED, 2 SKIPPED, 3 ABANDONED; attempts abandoned at one step; FAIL and MISSING. -/
  outcome   : Nat := 0
  abandons  : Nat := 0
  missing   : W32 := 0
  fail      : Bool := false
  retained  : Bool := false
  /-- What the last commit recorded, and for how many commits in a row each contributor has been missing (09 R254, R266). -/
  committed : List Committed := []
  absences  : MapOf Nat := []
  checkpoint : Option Checkpoint := none
  /-- A lost shard lacked a matching record, so the group could not recover in service (19 R492). -/
  unrecovered : Bool := false
deriving DecidableEq, Repr

end Sys2Proof.Machine
end

