-- ==== Sys2Proof/Machine/StateSys.lean ====
section
/-! DEFINITION. State of start-up (20), of the fuses and of security (16). -/
namespace Sys2Proof.Machine

/-- Start-up state (20). -/
structure BootState where
  /-- Every rail is within its operating range (R494). -/
  powered  : Bool := true
  /-- SYS_RST_N is high (R495). -/
  resetHigh : Bool := true
  /-- PERST_N is low (R495). -/
  perstLow : Bool := true
  /-- The stage byte of the SMBus read (R507, Table 5); 0 before the ROM runs (log 1). -/
  stage    : Byte := 0
  /-- Firmware has run its start-up and not yet been updated (15, 20). -/
  firmware : Bool := false
  /-- The loader copy that was accepted: 0 A, 1 B (R501). -/
  loaderCopy : Nat := 0
  /-- A skipped copy is still to be reported as VERIFY_FAIL (R501). -/
  verifyDebt : Bool := false
  /-- The ports that the configuration block enables, and the words it sets (R503, R504). -/
  config   : List Byte := []
deriving DecidableEq, Repr

/-- What survives SYS_RST_N: the fuses, and DEBUG_OPEN until power-up (20 Table 2, 16 R412-R426). -/
structure Life where
  /-- SEC_STATE.LIFECYCLE (log 5). -/
  lifecycle  : Nat := 1
  loaderSvn  : Nat := 0
  fwSvn      : Nat := 0
  revoked    : BitVec 4 := 0
  debugCount : Nat := 0
  debugOpen  : Bool := false
deriving DecidableEq, Repr

/-- Security state (16). -/
structure SecState where
  udsLocked  : Bool := false
  refused    : W16 := 0
  confined   : BitVec 64 := 0
  /-- The 16 measurement slots of 64 bytes; an unlisted slot is 0 (R414). -/
  meas       : MapOf (List Byte) := []
  cdi        : List Byte := []
  aliasKey   : List Byte := []
  sealRoot   : List Byte := []
  idHash     : List Byte := []
  /-- The slot masks under which open regions were released (R419). -/
  regionExpect : MapOf W16 := []
  /-- The slot masks under which ingest key slots were bound (R419), keyed 64 × engine-independent slot. -/
  keyExpect  : MapOf W16 := []
  /-- Ingest key slots: bound owner and key (15 R406, 16 R418). -/
  ingestKeys : MapOf (Nat × List Byte) := []
  /-- Tiles that wait for the clear of R422. -/
  clearing   : List Nat := []
  /-- Contexts whose bit clears when the scrub ends (R422). -/
  unconfining : List Nat := []
  /-- SVNs to burn after the first committed step: loader, firmware (R416). -/
  pendLoader : Option Nat := none
  pendFw     : Option Nat := none
  /-- A step has been committed since the image was booted or updated (R416). -/
  stepSince  : Bool := false
  /-- Ports whose rekey is under way (R423). -/
  rekeying   : List Nat := []
deriving DecidableEq, Repr

end Sys2Proof.Machine
end

