-- ==== Sys2Proof/Machine/StateTile.lean ====
section
/-! DEFINITION. State of the tiles (03, 05, 06). -/
namespace Sys2Proof.Machine

/-- An instruction in an issue queue (03 R64, 05 R120, R146): its place in program order, the PC, bank and word it
carries, whether its guard held, and the scalar values taken at issue: s[A], s[B], s[C], s[D], the register of bits
[20:16], s30 and s31. -/
structure QEntry where
  seq     : Nat
  pc      : Nat
  bank    : Nat
  word    : W64
  go      : Bool
  ops     : List W64
  started : Bool := false
deriving DecidableEq, Repr

/-- A token signal on its way: two cycles after completion (05 R131), with what it names in a fault (R132). -/
structure PendSig where
  tok    : Nat
  seq    : Nat
  pc     : Nat
  bank   : Nat
  word   : W64
  source : Nat
deriving DecidableEq, Repr

/-- What holds issue (05 R133-R135, R142). -/
inductive WaitFor where
  | token  (mask : W32)
  | fence  (rel acq empty : Bool)
  | time   (target : W64) (abs gust : Bool)
  | word   (db : Bool) (idx : Nat) (cc : Nat) (v : W64) (dl : Option W64) (pd : Nat)
deriving DecidableEq, Repr

/-- A wait in progress: what it waits for, the instruction, and the token it signals on release. -/
structure WaitState where
  what : WaitFor
  seq  : Nat
  pc   : Nat
  bank : Nat
  word : W64
  sig  : Option Nat
deriving DecidableEq, Repr

/-- The kinds of global operation (05 R138, R140, R141). -/
inductive GlobKind where
  | load (w32 : Bool)
  | store (w32 : Bool)
  | atom (op : AtomOp)
deriving DecidableEq, Repr

/-- A global operation outstanding (05 R139): `ofMove` marks the release signal of a movement descriptor, which is not
counted among the 16, `byLoc` that the address was taken as one of this part. `sent` says it has left; `status` and `value` are what came back. -/
structure GlobOp where
  idx    : Nat
  kind   : GlobKind
  dst    : Nat
  node   : Nat
  loc    : Nat
  x      : W64
  c      : W64
  seq    : Nat
  pc     : Nat
  bank   : Nat
  word   : W64
  sig    : Option Nat
  ofMove : Bool := false
  byLoc  : Bool := false
  sent   : Bool := false
  status : Option Nat := none
  value  : W64 := 0
deriving DecidableEq, Repr

/-- A fault of a half, with what the record of 05 Table 9 holds of it. -/
structure FaultInfo where
  cls     : Nat
  source  : Nat
  channel : Nat
  seq     : Nat
  pc      : Nat
  bank    : Nat
  word    : W64
  detail  : W64
  time    : W64
  precise : Bool
  more    : Bool := false
deriving DecidableEq, Repr

/-- A remote read of a movement descriptor: its tag, the bytes moved before it, where its bytes go, and the data once
come. -/
structure MvRead where
  rtag : W16
  off  : Nat
  src  : W64
  dst  : W64
  len  : Nat
  got  : Option (List Byte) := none
deriving DecidableEq, Repr

/-- A movement descriptor handed to a channel (03 R68, 07 R198): `run` once the channel has read it, `writes` the
remote writes not yet acknowledged (tag and address), `fail` a status that came back with the address it is for, `cut`
that a stop or a fault ended it before its last byte (03 R74, 07 R201). -/
structure MvEntry where
  half   : Nat
  seq    : Nat
  pc     : Nat
  bank   : Nat
  word   : W64
  addr   : Nat
  sig    : Option Nat
  run    : Bool := false
  desc   : List Byte := []
  reads  : List MvRead := []
  writes : List (W16 × W64) := []
  fail   : Option (Nat × W64) := none
  cut    : Bool := false
deriving DecidableEq, Repr

/-- What an array instruction in progress found: its named slots, their tags and errors, the weight stages of its lanes,
and the counters, so that a stop may end it at an earlier row (03 R73, R74). -/
structure ArrayUndo where
  acc     : MapOf W32
  tags    : MapOf Byte
  bad     : List Nat
  stage   : MapOf (List Byte × List Byte)
  badLanes : List Nat
  active  : W64
  rescale : W64
  sat     : W32
deriving DecidableEq, Repr

/-- The states of a half (03 Table 8), LULL apart, which `TileState.lulled` holds. -/
inductive HalfMode where
  | idle | run | wait | stopped | frozen
deriving DecidableEq, Repr

/-- One half of a tile; normal mode uses half 0 (03 Table 3, 05 R118, R119). -/
structure HalfState where
  mode    : HalfMode := .idle
  bank    : Nat := 0
  pc      : Nat := 0
  sregs   : MapOf W64 := []
  preds   : BitVec 8 := 1
  tokens  : MapOf Nat := []
  sigs    : List PendSig := []
  aq      : List QEntry := []
  vq      : List QEntry := []
  mq      : List QEntry := []
  /-- The array instruction in progress, where one that adds to slots has begun (03 R74). -/
  undo    : Option ArrayUndo := none
  wait    : Option WaitState := none
  globs   : List GlobOp := []
  nextSeq : Nat := 0
  nextIdx : Nat := 0
  /-- The stage record (06 R156): WF, N and K, none while unusable. -/
  stage   : Option (Nat × Nat × Nat) := none
  /-- The format each window row was last loaded with in this task (06 R159). -/
  winFmt  : MapOf Nat := []
  vregs   : MapOf W32 := []
  fault   : Option FaultInfo := none
  faultPc : W32 := 0
  /-- A halt or queue stop has been asked and the half is not yet STOPPED (03 R74). -/
  halting : Bool := false
  /-- The code of an `end` that has stopped fetch (05 R144). -/
  ended   : Option W16 := none
  tag     : W64 := 0
  owner   : Nat := 0xFF
  /-- The queue that the task came from (12). -/
  queue   : Option Nat := none
  rescale : W64 := 0
  sat     : W32 := 0
  drBase  : Nat := 0
  drLen   : Nat := 0
  drStat  : Nat := 0
  drKernel : Bool := false
  /-- The draught windows reserved against the running task, offsets of tile memory with lengths (03 R70). -/
  resv    : List (Nat × Nat) := []
  doorbell : W64 := 0
deriving DecidableEq, Repr

/-- One logical tile. Tile memory is keyed by physical offset, slots by 256 × slot + element, instruction banks by byte,
the window buffer by 0x200 × row + byte; `bad` holds the window offsets of protected words that hold an uncorrectable
error (07 R203, R526), `weak` those that hold a correctable one which no read has found yet (07 R204); `stage` the weights
of each physical lane, elements and scales, and `badLanes` the lanes whose stage fails its parity. -/
structure TileState where
  twin   : Bool := false
  lulled : Bool := false
  /-- The tile has begun to wake (11 R313). -/
  waking : Bool := false
  /-- The earliest expected wake time of the lull, in schedule time (11 R311, R314). -/
  due    : Option W64 := none
  tmem   : MapOf Byte := []
  acc    : MapOf W32 := []
  tags   : MapOf Byte := []
  bank0  : MapOf Byte := []
  bank1  : MapOf Byte := []
  win    : MapOf Byte := []
  bad    : List Nat := []
  weak   : List Nat := []
  stage  : MapOf (List Byte × List Byte) := []
  badLanes : List Nat := []
  chans  : MapOf (List MvEntry) := []
  active : W64 := 0
  h0     : HalfState := {}
  h1     : HalfState := {}
deriving DecidableEq, Repr

end Sys2Proof.Machine
end

