-- ==== Sys2Proof/Machine/Dev.lean ====
section
/-! DEFINITION. The volatile state of the part, assembled block by block, and what it sends out. -/
namespace Sys2Proof.Machine

/-- How an SPDM request is answered (16 R418). -/
inductive SpdmAnswer where
  | done | busy | denied
deriving DecidableEq, Repr

/-- What the part puts out (newest first in `Dev.out`): packets on ports, link control bodies, MSI-X messages, writes
to host memory, answers to reads, interrupts to its general cores, and levels of its pins. -/
inductive Out where
  | packet   (port : Nat) (pk : Packet)
  | flit     (port : Nat) (bytes : List Byte)
  | linkCtl  (port : Nat) (body : List Byte)
  | record   (port : Nat) (bytes : List Byte)
  | msi      (func : Nat) (addr : W64) (data : W32)
  | dmaWrite (func : Nat) (addr : W64) (data : List Byte)
  | readData (req : Req) (data : List Byte)
  | hostData (func : Nat) (data : List Byte)
  | unsupported (func : Nat)
  | completerAbort (func : Nat)
  | coreIrq  (core : Nat) (block : Nat)
  | atsDone  (func : Nat)
  | avs      (rail : Nat) (mv : W16)
  | spdm     (answer : SpdmAnswer) (data : List Byte)
  | access   (who : Who) (status : Nat) (data : List Byte)
  | cfgAnswer (retry : Bool)
  | cfgData  (func : Nat) (vals : List Nat)
  | smbus    (stage : Byte)
deriving DecidableEq, Repr

/-- The volatile state of the part. -/
structure Dev where
  regs : RegState := {}
  ft   : FtState := {}
  lnk  : LinkState := {}
  pci  : PciState := {}
  boot : BootState := {}
  sec  : SecState := {}
  tiles : MapOf TileState := []
  mem  : MemState := {}
  sync : SyncState := {}
  ras  : RasState := {}
  eng  : EngState := {}
  fe   : FeState := {}
  step : StepState := {}
  gc   : GcState := {}
  ing  : MapOf IngEngine := []
  pwr  : PwrState := {}
  /-- The scheduled queues whose window is open (12 R327). -/
  wins : List Nat := []
  out  : List Out := []
  /-- The model's own: how many free values the part has taken (log 4). -/
  free : Nat := 0
  /-- The model's own: ftu elapsed by the fabric-time clock, which times the 64 ns windows of 17 R440 (log 2). -/
  clk  : Nat := 0
deriving DecidableEq, Repr

/-- The part runs: its rails are in range, SYS_RST_N is high, and no sensor has stopped its clocks (18 R469). Otherwise it
answers nothing (01 R21). -/
def Dev.alive (d : Dev) : Bool := d.boot.powered && d.boot.resetHigh && !d.pwr.thermTrip

end Sys2Proof.Machine
end

