-- ==== Sys2Proof/Machine/State.lean ====
section
/-! DEFINITION. The state of the block, how a step can stop, and the state after reset. -/
namespace Sys2Proof.Machine

/-- The part's state: the volatile state of its blocks, what survives a reset, and the commands waiting, first in,
first out. -/
structure State where
  dev     : Dev := {}
  life    : Life := {}
  pending : List Instr := []
deriving DecidableEq, Repr

/-- The spec gives the part no command that ends its run: refusals, errors and freezes are effects on its state. No
meaning raises a fault, so the type has no constructor (log 6). -/
inductive Fault where
deriving DecidableEq, Repr

/-- Why a command has no meaning. -/
inductive Refusal where
  /-- The command's arm is not written: raised by a refused arm of `exec` alone; safe, since nothing is claimed of it. -/
  | notModelled (mnemonic : String)
deriving DecidableEq, Repr

/-- The state right after reset: rails in range, SYS_RST_N high, the boot ROM not yet run, every register at the value
its field table gives, every store as log 3 says, the fuses as log 5 says, and no command waiting. -/
def State.reset : State := {}

end Sys2Proof.Machine
end

