-- ==== Sys2Proof/Machine/Perform.lean ====
section
/-! DEFINITION. How a command acts: on a part that runs, a well-formed command has its effect; otherwise nothing changes (01 R21, log 6). -/
namespace Sys2Proof.Machine

/-- The outcome type of this machine. -/
abbrev Result := Host.Outcome State Fault Refusal

/-- A command that acts on the volatile state; `wf` says that it is well-formed, as `Instr.wf` does. -/
def perform (wf : Bool) (s : State) (f : Life → Dev → Dev) : Result :=
  .next (if wf && s.dev.alive then { s with dev := f s.life s.dev } else s)

/-- A command that may act on what survives a reset too. -/
def performLife (wf : Bool) (s : State) (f : Life → Dev → Life × Dev) : Result :=
  .next (if wf && s.dev.alive then { s with life := (f s.life s.dev).1, dev := (f s.life s.dev).2 } else s)

/-- A command of the board's supply and reset pins, which act on a part that does not run too (20). -/
def performPins (wf : Bool) (s : State) (f : Life → Dev → Life × Dev) : Result :=
  .next (if wf then { s with life := (f s.life s.dev).1, dev := (f s.life s.dev).2 } else s)

end Sys2Proof.Machine
end

