-- ==== Sys2Proof/Machine/RegTable.lean ====
section
/-! DEFINITION. The software-written registers of the part, one row per register array, from the field tables of chapters 2 to 19 (17 R428). -/
namespace Sys2Proof.Machine

/-- One register array: the BAR0 offset of its first word, its dimensions (count, stride; the widest stride first),
the masks of its RW and RWL fields, the mask of its Y fields (17 R442), its reset value, and the ranges of the fields
whose table states a range but no behaviour outside it (17 R432): low bit, width, admitted intervals. -/
structure RegRow where
  base   : Nat
  dims   : List (Nat × Nat) := []
  rw     : Nat := 0
  rwl    : Nat := 0
  y      : Nat := 0
  reset  : Nat := 0
  ranges : List (Nat × Nat × List (Nat × Nat)) := []
deriving DecidableEq, Repr

/-- The software-written registers from BAR0 offset 0x0 to below 0x1000000, by the field tables of the blocks there. -/
def regTableLow : List RegRow := [
  { base := 0x10000, rwl := 0x80000003 },  -- CFG_COMPAT
  { base := 0x10004, rw := 0x7 },  -- CFG_CRC_CTL
  { base := 0x10008, rw := 0xFFFFFFFF },  -- CFG_CRC_REF
  { base := 0x1001C, rw := 0x1F },  -- CFG_EVENT_EN
  { base := 0x100000, rw := 0x1, y := 0x1 },  -- FE_CTL
  { base := 0x10000C, rw := 0xFF, y := 0xFF },  -- FE_EVENT_EN
  { base := 0x101000, dims := [(64, 0x10)], rw := 0x1, y := 0x1 },  -- FE_CTXc_CTL
  { base := 0x101004, dims := [(64, 0x10)], rw := 0xFFFFFFFF, y := 0xFFFFFFFF },  -- FE_CTXc_TILES0
  { base := 0x101008, dims := [(64, 0x10)], rw := 0xFFFFFFFF, y := 0xFFFFFFFF },  -- FE_CTXc_TILES1
  { base := 0x10100C, dims := [(64, 0x10)], rw := 0xFFFF0F, y := 0xFFFF0F },  -- FE_CTXc_TILES2
  { base := 0x110000, dims := [(1024, 0x20)], rw := 0x7F, y := 0x7F },  -- FE_SQq_OWNER
  { base := 0x180010, dims := [(64, 0x1000)], rw := 0xFFFFFFFF, y := 0xFFFFFFFF },  -- FE_ADMc_SQ_BASE_LO
  { base := 0x180014, dims := [(64, 0x1000)], rw := 0xFFFFFFFF, y := 0xFFFFFFFF },  -- FE_ADMc_SQ_BASE_HI
  { base := 0x180018, dims := [(64, 0x1000)], rw := 0xFFFFFFFF, y := 0xFFFFFFFF },  -- FE_ADMc_CQ_BASE_LO
  { base := 0x18001C, dims := [(64, 0x1000)], rw := 0xFFFFFFFF, y := 0xFFFFFFFF },  -- FE_ADMc_CQ_BASE_HI
  { base := 0x180020, dims := [(64, 0x1000)], rw := 0x800FFFFF, y := 0x800FFFFF, reset := 0x44 },  -- FE_ADMc_CFG
  { base := 0x200020, dims := [(256, 0x1000)], rw := 0x7F, y := 0x7F } ]  -- CQ_RINGc_OWNER

/-- The software-written registers from BAR0 offset 0x1000000 to below 0x2A00000, by the field tables of the blocks there. -/
def regTableMid : List RegRow := [
  { base := 0x1000004, dims := [(68, 0x10000)], rw := 0x3, y := 0x3 },  -- TIL_CTL
  { base := 0x1000008, dims := [(68, 0x10000)], rw := 0x1FF, y := 0x1FF },  -- TIL_FAULT_EN
  { base := 0x2000000, rw := 0xFF03, y := 0xFF03, reset := 0x803 },  -- MEM_CTL
  { base := 0x2000004, rw := 0xFFFF, y := 0xFFFF, reset := 0x18 },  -- MEM_SCRUB
  { base := 0x2010008, dims := [(8, 0x10000)], rw := 0x1FF, y := 0x1FF },  -- MEM_Hs_EVENT_EN
  { base := 0x2400000, dims := [(8, 0x1000)], rw := 0xFFFFF000, y := 0xFFFFF000 },  -- VAT_Hs_TABLE_LO
  { base := 0x2400004, dims := [(8, 0x1000)], rw := 0x1F, y := 0x1F },  -- VAT_Hs_TABLE_HI
  { base := 0x2400008, dims := [(8, 0x1000)], rw := 0x1FFF, y := 0x1FFF, ranges := [(0, 13, [(0, 4096)])] },  -- VAT_Hs_TABLE_LEN
  { base := 0x240001C, dims := [(8, 0x1000)], rw := 0x1F, y := 0x1F },  -- VAT_Hs_EVENT_EN
  { base := 0x2500000, rw := 0xFF, ranges := [(0, 8, [(0, 64), (192, 255)])] },  -- CHN_LSCALE
  { base := 0x2500004, rw := 0xFFFFFFFF, reset := 0xFFFFFFFF },  -- CHN_LSCALE_STEP
  { base := 0x2500008, rw := 0xFFFFFFFF, y := 0xFFFFFFFF },  -- CHN_SEED_LO
  { base := 0x250000C, rw := 0xFFFFFFFF, y := 0xFFFFFFFF },  -- CHN_SEED_HI
  { base := 0x2501008, dims := [(8, 0x1000)], rw := 0xFF, y := 0xFF },  -- CHN_Hs_EVENT_EN
  { base := 0x2600008, dims := [(8, 0x1000)], rw := 0x7, y := 0x7 },  -- BRZ_Hs_EVENT_EN
  { base := 0x2800000, rw := 0x3, y := 0x3, reset := 0x3 },  -- SYN_CTL
  { base := 0x2800004, rw := 0xFFFF, y := 0xFFFF, reset := 0x7D0 },  -- SYN_LULL_THRESH
  { base := 0x280000C, rw := 0xFFFF, y := 0xFFFF, reset := 0x64 },  -- SYN_HOLD_TIMEOUT
  { base := 0x2800020, rw := 0x1F, y := 0x1F },  -- SYN_EVENT_EN
  { base := 0x2801000, dims := [(32, 0x10)], rw := 0x8001FFFF },  -- SYN_WATCHn_CTL, entries 0-31
  { base := 0x2801200, dims := [(64, 0x10)], rw := 0xFFF1FFFF },  -- SYN_WATCHn_CTL, entries 32-95
  { base := 0x2801004, dims := [(96, 0x10)], rw := 0xFFFFFFFF },  -- SYN_WATCHn_VAL_LO
  { base := 0x2801008, dims := [(96, 0x10)], rw := 0xFFFFFFFF },  -- SYN_WATCHn_VAL_HI
  { base := 0x2804000, dims := [(256, 0x20)], rw := 0x7FF, reset := 0x2 },  -- SYN_VANEn_CTL
  { base := 0x2804004, dims := [(256, 0x20)], rw := 0x3FFF },  -- SYN_VANEn_ARRIVE
  { base := 0x2804008, dims := [(256, 0x20)], rw := 0x3FFF },  -- SYN_VANEn_SENSE
  { base := 0x280400C, dims := [(256, 0x20)], rw := 0xFFFFFFFF },  -- SYN_VANEn_PARENT_LO
  { base := 0x2804010, dims := [(256, 0x20)], rw := 0xFFFFFFFF },  -- SYN_VANEn_PARENT_HI
  { base := 0x2804014, dims := [(256, 0x20)], rw := 0xFFFFFFFF },  -- SYN_VANEn_LIST_LO
  { base := 0x2804018, dims := [(256, 0x20)], rw := 0xFFFFFFFF } ]  -- SYN_VANEn_LIST_HI

/-- The software-written registers from BAR0 offset 0x2A00000 to below 0x3200000, by the field tables of the blocks there. -/
def regTableTime : List RegRow := [
  { base := 0x2A00010, rw := 0xFF07, y := 0xFF07, reset := 0x1 },  -- FT_CTL
  { base := 0x2A00014, rwl := 0x801FFFFF, y := 0x801FFFFF, reset := 0x100000 },  -- FT_DOMAIN
  { base := 0x2A00030, rw := 0xFFFFFFFF, y := 0xFFFFFFFF, reset := 0x2710 },  -- FT_SLOT_LEN
  { base := 0x2A00034, rw := 0xFFFF, y := 0xFFFF, reset := 0x10, ranges := [(0, 16, [(8, 65535)])] },  -- FT_GUARD
  { base := 0x2A00038, rw := 0x3F, y := 0x3F, reset := 0x6, ranges := [(0, 6, [(2, 63)])] },  -- FT_SLIP_LEAD
  { base := 0x2A00050, rw := 0xFFFFFFFF },  -- FT_EPOCH_LO
  { base := 0x2A00054, rw := 0xFFFFFFFF },  -- FT_EPOCH_HI
  { base := 0x2A00064, rw := 0x3FF, y := 0x3FF },  -- FT_EVENT_EN
  { base := 0x3000000, dims := [(32, 0x10000)], rw := 0xFF5F, y := 0xFF4F, reset := 0xE008 },  -- LNK_Ln_CTL
  { base := 0x3000014, dims := [(32, 0x10000)], rw := 0xFFFFFFFF, y := 0xFFFFFFFF },  -- LNK_Ln_ASYM
  { base := 0x3000028, dims := [(32, 0x10000)], rw := 0xFFFF, y := 0xFFFF, reset := 0x4E20 },  -- LNK_Ln_LANE_THRESH
  { base := 0x3000034, dims := [(32, 0x10000)], rw := 0x3FF, y := 0x3FF },  -- LNK_Ln_EVENT_EN
  { base := 0x3004000, dims := [(32, 0x10000), (1024, 0x10)], rw := 0x3FFFFFF, y := 0xFFFFFFFF },  -- route table of port n, KEY
  { base := 0x3004004, dims := [(32, 0x10000), (1024, 0x10)], rw := 0xFFFFFFFF, y := 0xFFFFFFFF },  -- route table of port n, MASK
  { base := 0x3004008, dims := [(32, 0x10000), (1024, 0x10)], rw := 0x3F3F, y := 0xFFFFFFFF },  -- route table of port n, PRI, ALT
  { base := 0x300400C, dims := [(32, 0x10000), (1024, 0x10)], y := 0xFFFFFFFF } ]  -- route table of port n, reserved

/-- The software-written registers from BAR0 offset 0x3200000 to below 0x3600000, by the field tables of the blocks there. -/
def regTablePci : List RegRow := [
  { base := 0x3200000, rwl := 0x800FFFFF, y := 0x800FFFFF, reset := 0xFFFFF },  -- LNK_NODE
  { base := 0x3200004, rw := 0x1, y := 0x1 },  -- LNK_ROUTE
  { base := 0x3200008, rw := 0x7FFF, y := 0x7FFF, ranges := [(0, 4, [(0, 10)]), (4, 4, [(0, 10)]), (8, 4, [(0, 10)])] },  -- LNK_DOR_DIMS
  { base := 0x320000C, rw := 0x3FFFFFFF, y := 0x3FFFFFFF },  -- LNK_DOR_SIZE
  { base := 0x3200010, dims := [(6, 0x4)], rw := 0xFFFFFFFF, y := 0xFFFFFFFF },  -- LNK_DOR_PLUSX to LNK_DOR_MINUSZ
  { base := 0x3200030, rw := 0xFFFF, y := 0xFFFF, reset := 0x1F4 },  -- LNK_RESP_TIMEOUT
  { base := 0x3200034, rw := 0xFFFF, y := 0xFFFF, reset := 0x7D0, ranges := [(0, 16, [(100, 65535)])] },  -- LNK_RETRAIN_MAX
  { base := 0x3200040, rw := 0xFFFFF },  -- LNK_CTRL_DST
  { base := 0x3200044, rw := 0xFFFFFFFF },  -- LNK_CTRL_ARG_LO
  { base := 0x3200048, rw := 0xFFFFFFFF },  -- LNK_CTRL_ARG_HI
  { base := 0x3200050, dims := [(8, 0x4)], rw := 0x3FFFFFF, y := 0x3FFFFFF },  -- LNK_CTRL_ALLOWn
  { base := 0x3204000, dims := [(1024, 0x10)], rw := 0x3FFFFFF, y := 0xFFFFFFFF },  -- origin route table, KEY
  { base := 0x3204004, dims := [(1024, 0x10)], rw := 0xFFFFFFFF, y := 0xFFFFFFFF },  -- origin route table, MASK
  { base := 0x3204008, dims := [(1024, 0x10)], rw := 0x3F3F, y := 0xFFFFFFFF },  -- origin route table, PRI, ALT
  { base := 0x320400C, dims := [(1024, 0x10)], y := 0xFFFFFFFF },  -- origin route table, reserved
  { base := 0x3400004, rwl := 0x80000007, y := 0x80000007, reset := 0x7 },  -- PCI_CTL
  { base := 0x3400008, rw := 0xC0000000, y := 0xC0000000 },  -- PCI_BAR4_MAP_LO
  { base := 0x340000C, rw := 0xFFF, y := 0xFFF },  -- PCI_BAR4_MAP_HI
  { base := 0x3400014, rw := 0xFF, y := 0xFF },  -- PCI_EVENT_EN
  { base := 0x3400100, dims := [(19, 0x4)], rw := 0x7FF, y := 0x7FF },  -- PCI_EVT_VECb
  { base := 0x3401000, dims := [(64, 0x10)], rw := 0xC0000000, y := 0xC0000000 },  -- PCI_CTXc_WIN_LO
  { base := 0x3401004, dims := [(64, 0x10)], rw := 0xFFF, y := 0xFFF },  -- PCI_CTXc_WIN_HI
  { base := 0x3401008, dims := [(64, 0x10)], rw := 0x3F07FF, y := 0x3F07FF } ]  -- PCI_CTXc_VEC

/-- The software-written registers from BAR0 offset 0x3600000 to below 0x4000000, by the field tables of the blocks there. -/
def regTableHigh : List RegRow := [
  { base := 0x3600000, rw := 0xFF, y := 0xFF, reset := 0x1 },  -- GC_CTL
  { base := 0x3600008, rw := 0xFFFFFFFF, y := 0xFFFFFFFF },  -- GC_SVC_BASE_LO
  { base := 0x360000C, rw := 0xFFFFFFFF, y := 0xFFFFFFFF },  -- GC_SVC_BASE_HI
  { base := 0x3600010, rw := 0x1F, y := 0x1F },  -- GC_IRQ_SEL
  { base := 0x3600100, dims := [(8, 0x4)], rwl := 0x8000007F, y := 0x8000007F, ranges := [(2, 5, [(0, 8)])] },  -- GC_PARTp
  { base := 0x3600200, dims := [(64, 0x4)], rw := 0x800FFFFF },  -- GC_RWINn
  { base := 0x3700004, dims := [(4, 0x1000)], rw := 0xF, y := 0xF },  -- ING_n_EVENT_EN
  { base := 0x3700100, dims := [(4, 0x1000), (4, 0x20)], rw := 0xFFFFFFFF, y := 0xFFFFFFFF },  -- ING_n_RINGr_BASE_LO
  { base := 0x3700104, dims := [(4, 0x1000), (4, 0x20)], rw := 0xFFFFFFFF, y := 0xFFFFFFFF },  -- ING_n_RINGr_BASE_HI
  { base := 0x3700108, dims := [(4, 0x1000), (4, 0x20)], rw := 0x8000000F, rwl := 0xFF0, y := 0x80000FFF, reset := 0xFF4 },  -- ING_n_RINGr_CFG
  { base := 0x370010C, dims := [(4, 0x1000), (4, 0x20)], rw := 0xFFFFFFFF },  -- ING_n_RINGr_TAIL
  { base := 0x3800008, rwl := 0x1, y := 0x1 },  -- SEC_DEBUG
  { base := 0x380000C, rwl := 0x80000001, y := 0x80000001 },  -- SEC_LINK_POLICY
  { base := 0x380001C, rw := 0x3F, y := 0x3F },  -- SEC_EVENT_EN
  { base := 0x3A00000, rw := 0xF, y := 0xF, reset := 0xF },  -- PWR_CTL
  { base := 0x3A00004, rw := 0xFFF0FFF, y := 0xFFF0FFF, reset := 0x1F400C8 },  -- PWR_GUST
  { base := 0x3A00008, rw := 0xFFFFFF, y := 0xFFFFFF, reset := 0x6E645F },  -- PWR_THERM
  { base := 0x3A00010, rw := 0x7F, y := 0x7F },  -- PWR_EVENT_EN
  { base := 0x3A00100, dims := [(4, 0x20)], rw := 0xFFF, y := 0xFFF, reset := 0x834 },  -- PWR_Qq_CAP
  { base := 0x3A00104, dims := [(4, 0x20)], rw := 0xFFF, y := 0xFFF, reset := 0x384 },  -- PWR_Qq_ILIMIT
  { base := 0x3B00008, rw := 0x7, y := 0x7 },  -- CLK_EVENT_EN
  { base := 0x3B00020, dims := [(8, 0x4)], rw := 0xFFF, y := 0xFFF, reset := 0xBB8 },  -- CLK_GCk
  { base := 0x3C00000, rw := 0xFF01, y := 0xFF01, reset := 0x1001 },  -- RAS_CTL
  { base := 0x3C00008, rw := 0xFF, y := 0xFF },  -- RAS_EVENT_EN
  { base := 0x3C00010, rw := 0xFFFFF000, y := 0xFFFFF000 },  -- RAS_LOG_BASE_LO
  { base := 0x3C00014, rw := 0xFFF, y := 0xFFF },  -- RAS_LOG_BASE_HI
  { base := 0x3C00018, rw := 0xF, y := 0xF, reset := 0xA },  -- RAS_LOG_CFG
  { base := 0x3C00020, rw := 0xFFFFFFFF } ]  -- RAS_LOG_READ

/-- Every software-written register of the part (17 R428), in ascending offset. -/
def regTable : List RegRow := regTableLow ++ regTableMid ++ regTableTime ++ regTablePci ++ regTableHigh

/-- Whether a distance from a register array's base is a word of it. -/
def dimsHit : List (Nat × Nat) → Nat → Bool
  | [], d => d == 0
  | (n, s) :: r, d => decide (d / s < n) && dimsHit r (d % s)

/-- Whether a row covers a BAR0 offset. -/
def RegRow.hit (r : RegRow) (off : Nat) : Bool := decide (r.base ≤ off) && dimsHit r.dims (off - r.base)

/-- The row of a BAR0 offset, if software can write there (17 R429). -/
def findRow (off : Nat) : Option RegRow := regTable.find? (fun r => r.hit off)

/-- The reset value of a software-written register (17 R428). -/
def resetWord (off : Nat) : W32 :=
  match findRow off with
  | some r => BitVec.ofNat 32 r.reset
  | none => 0#32

/-- Every offset of a register array. -/
def dimsAll : List (Nat × Nat) → List Nat
  | [] => [0]
  | (n, s) :: r => (List.range n).flatMap (fun i => (dimsAll r).map (fun o => i * s + o))

/-- Every covered register with its mask of Y fields, in ascending BAR0 offset (17 R442). -/
def coveredWords : List (Nat × Nat) :=
  ((regTable.filter (fun r => r.y != 0)).flatMap (fun r => (dimsAll r.dims).map (fun o => (r.base + o, r.y)))).mergeSort
    (fun a b => decide (a.1 ≤ b.1))

end Sys2Proof.Machine
end

