-- ==== Sys2Proof/Machine/Ops.lean ====
section
/-! DEFINITION. The named operations every block shares: free values, register words, event registers, vectors, ports. -/
namespace Sys2Proof.Machine

/-- Take a free value: nothing constrains it (log 4). -/
def Dev.takeFree (d : Dev) : W64 × Dev := (Config.freeWord d.free, { d with free := d.free + 1 })

/-- Put something out. -/
def Dev.emit (o : Out) (d : Dev) : Dev := { d with out := o :: d.out }

/-- The software-written bits of the register at a BAR0 offset (17 R428). -/
def Dev.word (d : Dev) (off : Nat) : W32 :=
  match mapFind d.regs.words off with
  | some w => w
  | none => resetWord off

/-- Store a register's software-written bits. -/
def Dev.setWord (off : Nat) (w : W32) (d : Dev) : Dev :=
  { d with regs := { d.regs with words := mapPut d.regs.words off w } }

/-- A 64-bit pair of software-written words. -/
def Dev.word64 (d : Dev) (off : Nat) : W64 := of32 (d.word off) (d.word (off + 4))

/-! Offsets of the blocks (17 Table 1). -/
def offCfg : Nat := 0x10000
def offFe : Nat := 0x100000
def offCq (c : Nat) : Nat := 0x200000 + 0x1000 * c
def offTil (t : Nat) : Nat := 0x1000000 + 0x10000 * t
def offMem (s : Nat) : Nat := 0x2010000 + 0x10000 * s
def offVat (s : Nat) : Nat := 0x2400000 + 0x1000 * s
def offChn (s : Nat) : Nat := 0x2501000 + 0x1000 * s
def offBrz (s : Nat) : Nat := 0x2600000 + 0x1000 * s
def offSyn : Nat := 0x2800000
def offWatch (n : Nat) : Nat := 0x2801000 + 0x10 * n
def offVane (n : Nat) : Nat := 0x2804000 + 0x20 * n
def offFt : Nat := 0x2A00000
def offPort (p : Nat) : Nat := 0x3000000 + 0x10000 * p
def offLnk : Nat := 0x3200000
def offPci : Nat := 0x3400000
def offGc : Nat := 0x3600000
def offIng (n : Nat) : Nat := 0x3700000 + 0x1000 * n
def offSec : Nat := 0x3800000
def offPwr : Nat := 0x3A00000
def offClk : Nat := 0x3B00000
def offRas : Nat := 0x3C00000

/-! Offsets of the event registers (17 Sequence-clear status). -/
def evCfg : Nat := 0x10018
def evFe : Nat := 0x100008
def evTil (t h : Nat) : Nat := offTil t + 0x108 + 0x40 * h
def evMem (s : Nat) : Nat := offMem s + 4
def evVat (s : Nat) : Nat := offVat s + 0x18
def evChn (s : Nat) : Nat := offChn s + 4
def evBrz (s : Nat) : Nat := offBrz s + 4
def evSyn : Nat := offSyn + 0x1C
def evFt : Nat := offFt + 0x60
def evPort (p : Nat) : Nat := offPort p + 0x30
def evPci : Nat := offPci + 0x10
def evIng (n : Nat) : Nat := offIng n
def evSec : Nat := offSec + 0x18
def evPwr : Nat := offPwr + 0xC
def evClk : Nat := offClk + 4
def evRas : Nat := offRas + 4

/-- The event registers as rows: base, dimensions, event block number (17 Table 1). -/
def eventRows : List (Nat × List (Nat × Nat) × Nat) := [
  (0x10018, [], 1), (0x100008, [], 2), (0x1000108, [(68, 0x10000), (2, 0x40)], 4), (0x2010004, [(8, 0x10000)], 5),
  (0x2400018, [(8, 0x1000)], 6), (0x2501004, [(8, 0x1000)], 7), (0x2600004, [(8, 0x1000)], 8), (0x280001C, [], 9),
  (0x2A00060, [], 10), (0x3000030, [(32, 0x10000)], 11), (0x3400010, [], 12), (0x3700000, [(4, 0x1000)], 14),
  (0x3800018, [], 15), (0x3A0000C, [], 16), (0x3B00004, [], 17), (0x3C00004, [], 18) ]

/-- The event block number of an event register, if the offset is one. -/
def eventBlock (off : Nat) : Option Nat :=
  (eventRows.find? (fun r => decide (r.1 ≤ off) && dimsHit r.2.1 (off - r.1))).map (fun r => r.2.2)

/-- The offset of the enable register of an event register: the next word, and TIL_FAULT_EN for a tile half (03 Table 7). -/
def eventEn (off : Nat) : Nat :=
  if eventBlock off = some 4 then 0x1000008 + 0x10000 * ((off - 0x1000000) / 0x10000) else off + 4

/-- The event register at an offset. -/
def Dev.event (d : Dev) (off : Nat) : EventReg := mapGet {} d.regs.events off

/-- Store an event register. -/
def Dev.putEvent (off : Nat) (e : EventReg) (d : Dev) : Dev :=
  { d with regs := { d.regs with events := mapPut d.regs.events off e } }

/-- The configuration of one function (14). -/
def Dev.func (d : Dev) (f : Nat) : FuncCfg := mapGet {} d.pci.funcs f

/-- Whether a function issues requests of its own: Bus Master Enable, and not in D3hot (14 R391, Table 1). -/
def FuncCfg.dma (c : FuncCfg) : Bool := c.busMaster && !c.d3

/-- Send the message of one MSI-X entry: masked, or unable to leave, it sets the pending bit (14 R391, R393). -/
def Dev.msixSend (f i : Nat) (d : Dev) : Dev :=
  let k := 2048 * f + i
  let e := mapGet {} d.pci.msix k
  let c := d.func f
  if e.masked || c.msixMask || !c.msixOn || !c.dma || !d.pci.dlUp then
    { d with pci := { d.pci with msix := mapPut d.pci.msix k { e with pending := true } } }
  else d.emit (.msi f e.addr e.data)

/-- Whether the function of context c is enabled (14 R393). -/
def Dev.vfOn (d : Dev) (c : Nat) : Bool := d.pci.vfEnable && decide (c < d.pci.numVfs)

/-- Whether the host reaches a function's BARs: the link is up and its Memory Space is enabled; the virtual functions share
one such bit, kept at function 1 (14 R383; log 27); a function in D3hot takes no memory access. -/
def Dev.barOpen (d : Dev) (f : Nat) : Bool :=
  d.pci.dlUp && (d.func (min f 1)).memSpace && !(d.func f).d3 && (f == 0 || d.vfOn (f - 1))

/-- The window of pool entries of context c: base and count (14 R393, Table 5). -/
def Dev.vecWindow (d : Dev) (c : Nat) : Nat × Nat :=
  let w := d.word (offPci + 0x1008 + 0x10 * c)
  (fld w 10 0, min (fld w 21 16) 32)

/-- Where pool entry p is sent: the lowest-numbered enabled context whose window holds it, else the physical function (14 R393). -/
def Dev.vecRoute (d : Dev) (p : Nat) : Nat × Nat :=
  match (List.range Config.contexts).find? (fun c =>
      d.vfOn c && decide ((d.vecWindow c).1 ≤ p) && decide (p < (d.vecWindow c).1 + (d.vecWindow c).2)) with
  | some c => (c + 1, p - (d.vecWindow c).1)
  | none => (0, p)

/-- Send vector p of the pool (14 R393). -/
def Dev.sendVector (p : Nat) (d : Dev) : Dev :=
  let r := d.vecRoute p
  d.msixSend r.1 r.2

/-- Send the vector of block b, and its interrupt to the general core that takes block events (14 R393, 15 R400). -/
def Dev.sendBlock (b : Nat) (d : Dev) : Dev :=
  (d.sendVector (fld (d.word (offPci + 0x100 + 4 * b)) 10 0)).emit (.coreIrq (fld (d.word (offGc + 0x10)) 4 0) b)

/-- Advance SEQ for a set of flags (17 R439, R441). -/
def Dev.seqAdvance (off : Nat) (mask : W16) (now : Nat) (d : Dev) : Dev :=
  let e := d.event off
  let d1 := d.putEvent off { e with flags := e.flags ||| mask, seq := e.seq + 1, last := some now, pend := none }
  if mask &&& (d.word (eventEn off)).setWidth 16 = 0 then d1
  else d1.sendBlock ((eventBlock off).getD 0)

/-- Hardware sets one or more flags of an event register in one cycle (17 R439-R441). -/
def Dev.setEvent (off : Nat) (mask : W16) (d : Dev) : Dev :=
  if mask = 0 then d else
  let e := d.event off
  match e.pend with
  | some m => d.putEvent off { e with flags := e.flags ||| mask, pend := some (m ||| mask) }
  | none =>
    match e.last with
    | some t =>
      if d.clk < t + Config.seqGap then d.putEvent off { e with flags := e.flags ||| mask, pend := some mask }
      else d.seqAdvance off mask d.clk
    | none => d.seqAdvance off mask d.clk

/-- Set one flag of an event register. -/
def Dev.setFlag (off i : Nat) (d : Dev) : Dev := d.setEvent off (BitVec.ofNat 16 (2 ^ i))

/-- Set one flag where a condition holds. -/
def Dev.setFlagIf (b : Bool) (off i : Nat) (d : Dev) : Dev := if b then d.setFlag off i else d

/-- One port (13). -/
def Dev.port (d : Dev) (p : Nat) : PortState := mapGet {} d.lnk.ports p

/-- Store one port. -/
def Dev.putPort (p : Nat) (s : PortState) (d : Dev) : Dev :=
  { d with lnk := { d.lnk with ports := mapPut d.lnk.ports p s } }

/-- Change one port. -/
def Dev.modPort (p : Nat) (f : PortState → PortState) (d : Dev) : Dev := d.putPort p (f (d.port p))

/-- This part's node ID (13 R365). -/
def Dev.node (d : Dev) : Nat := fld (d.word offLnk) 19 0

/-- This part's domain (02 R26). -/
def Dev.domain (d : Dev) : Nat := fld (d.word (offFt + 0x14)) 15 0

/-- Schedule time (02 R37). -/
def Dev.sched (d : Dev) : W64 := d.ft.now - d.ft.slip

/-- Whether a schedule-relative event with this target is due (02 R37, R44). -/
def Dev.due (d : Dev) (target : W64) : Bool := decide (0 ≤ ftDiff d.sched target)

/-- Whether a target lies within the schedule range when it is issued (02 R45). -/
def Dev.inSchedRange (d : Dev) (target : W64) : Bool := decide (ftDiff target d.sched ≤ 2 ^ 62)

/-- Whether schedule-relative events are released (02 Table 1). -/
def Dev.releasing (d : Dev) : Bool :=
  match d.ft.mode with
  | .locked | .holdover | .master => true
  | .free | .acquire => false

/-- The slot length in ns (02 Table 8: other values act as the nearest limit). -/
def Dev.slotNs (d : Dev) : Nat := clampN 1000 1000000000 (d.word (offFt + 0x30)).toNat

/-- The slot length in ftu (02 R39). -/
def Dev.slotFtu (d : Dev) : Nat := d.slotNs * 1024

/-- Whether context c is confined (16 R421). -/
def Dev.confinedCtx (d : Dev) (c : Nat) : Bool := decide (c < 64) && d.sec.confined.getLsbD c

/-- Run a list of changes. -/
def runAll {α : Type} (l : List α) (f : α → Dev → Dev) (d : Dev) : Dev := l.foldl (fun d x => f x d) d

/-! ## Tiles and halves -/

/-- One logical tile. -/
def Dev.tile (d : Dev) (t : Nat) : TileState := mapGet {} d.tiles t
/-- Store one tile. -/
def Dev.putTile (t : Nat) (s : TileState) (d : Dev) : Dev := { d with tiles := mapPut d.tiles t s }
/-- Change one tile. -/
def Dev.modTile (t : Nat) (f : TileState → TileState) (d : Dev) : Dev := d.putTile t (f (d.tile t))

/-- One half of a tile. -/
def TileState.half (t : TileState) (h : Nat) : HalfState := if h = 0 then t.h0 else t.h1
/-- Store one half. -/
def TileState.putHalf (h : Nat) (s : HalfState) (t : TileState) : TileState :=
  if h = 0 then { t with h0 := s } else { t with h1 := s }
/-- One half of a tile. -/
def Dev.half (d : Dev) (t h : Nat) : HalfState := (d.tile t).half h
/-- Store one half. -/
def Dev.putHalf (t h : Nat) (s : HalfState) (d : Dev) : Dev := d.modTile t (TileState.putHalf h s)
/-- Change one half. -/
def Dev.modHalf (t h : Nat) (f : HalfState → HalfState) (d : Dev) : Dev := d.putHalf t h (f (d.half t h))

end Sys2Proof.Machine
end

