-- ==== Sys2Proof/Machine/Framing.lean ====
section
/-! DEFINITION. The framing of a port's transmitter (13 R350, R372, R373): flits into Reed-Solomon codewords, symbols over the lanes, alignment markers. -/
namespace Sys2Proof.Machine

/-- The bits of a codeword's message: 514 symbols of 10 bits. -/
def rsMessageBits : Nat := 5140

/-- The 514 symbols of a message, low bits first (log 9). -/
def rsMessage (bits : Nat) : List Symbol := (List.range 514).map (fun i => BitVec.ofNat 10 (bits / 2 ^ (10 * i)))

/-- An RS(544,514) codeword: the message, then 30 parity symbols, whose code the spec does not give (log 17). -/
def rsCodeword (msg : List Symbol) : List Symbol := msg ++ (List.range 30).map (Config.rsParity msg)

/-- What lane i of n gets of a codeword: one symbol in turn, lane 0 first. -/
def laneShare (n i : Nat) (cw : List Symbol) : List Symbol := (List.range (cw.length / n)).map (fun j => listGet 0 cw (n * j + i))

/-- The physical lanes that carry data, in lane order (13 R372, R373): with eight, lane 8 stands in for a lane that has been
swapped out; with four, the healthiest four. -/
def PortState.dataLanes (s : PortState) : List Nat :=
  if s.lanes = 4 then s.txLanes
  else (List.range 8).map (fun i => if s.txSwapped && s.txSpare == some i then 8 else i)

/-- A codeword over the lanes; during a swap lane 8 carries a copy of the lane that it will replace (13 R372). -/
def PortState.spread (s : PortState) (cw : List Symbol) : List (Nat × List Symbol) :=
  let l := s.dataLanes.mapIdx (fun i k => (k, laneShare s.dataLanes.length i cw))
  match s.txSpare with
  | some k => if s.txSwapped then l else l ++ (l.filter (fun x => x.1 == k)).map (fun x => (8, x.2))
  | none => l

/-- The flits between two alignment markers: a marker takes one flit slot in 16,384 (13 R350). -/
def markerSpan : Nat := 16383

/-- Where a marker's slot has come, every lane carries its marker, which holds the lane's number. -/
def PortState.markIfDue (s : PortState) : PortState :=
  if s.txSlot < markerSpan then { s with txSlot := s.txSlot + 1 } else { s with txSlot := 1, wire := .marker s.dataLanes :: s.wire }

/-- A flit joins the message that fills, back to back with the flit before it; a full message leaves as a codeword. -/
def PortState.frameFlit (fl : List Byte) (s0 : PortState) : PortState :=
  let s := s0.markIfDue
  let bits := s.txBits + leNat fl * 2 ^ s.txLen
  let n := s.txLen + 512
  if n < rsMessageBits then { s with txBits := bits, txLen := n }
  else { s with txBits := bits / 2 ^ rsMessageBits, txLen := n - rsMessageBits, wire := .codeword (s.spread (rsCodeword (rsMessage bits))) :: s.wire }

end Sys2Proof.Machine
end

