-- ==== Sys2Proof/Machine/LinkOps.lean ====
section
/-! DEFINITION. Operations of the links (13): packets as flits, credits, routing and sending. -/
namespace Sys2Proof.Machine

/-- Packet types of 13 Table 5. -/
def tyWrite : Nat := 0x01
def tyRead : Nat := 0x02
def tyAtomic : Nat := 0x03
def tySignal : Nat := 0x04
def tyOpen : Nat := 0x05
def tyClose : Nat := 0x06
def tyReadResp : Nat := 0x10
def tyAck : Nat := 0x11
def tyAtomicResp : Nat := 0x12
def tyBeat : Nat := 0x20
def tySlip : Nat := 0x21
def tyControl : Nat := 0x22
def tyProbe : Nat := 0x23
def tySeal : Nat := 0x24

/-- Response status of 13 Table 6. -/
def stOk : Nat := 0
def stRefused : Nat := 1
def stMemError : Nat := 2
def stNoRoute : Nat := 3
def stSeal : Nat := 4
def stRetry : Nat := 5
def stFrozen : Nat := 6

/-- A request is answered once; a response and a VC0 packet are not (13 R355). -/
def isRequest (ty : Nat) : Bool := decide (1 ≤ ty) && decide (ty ≤ 6)

/-- The type of the answer to a request: data for a READ, the old value for an ATOMIC and a SIGNAL, else an ACK (13 R355). -/
def respType (ty : Nat) : Nat :=
  if ty = tyRead then tyReadResp else if ty = tyAtomic ∨ ty = tySignal then tyAtomicResp else tyAck

/-- The bytes of a packet header (13 Table 4). -/
def headerBytes (pk : Packet) : List Byte :=
  leBytes 4 (pk.dst % 2 ^ 20 + 2 ^ 20 * (pk.type % 256)) ++
  leBytes 4 (pk.src % 2 ^ 20 + 2 ^ 20 * (pk.endpoint % 256)) ++
  leBytes 6 (pk.addr % 2 ^ 44) ++ leBytes 2 pk.len ++ leBytes 4 pk.seq.toNat ++ leBytes 2 pk.rtag.toNat ++
  leBytes 1 pk.op ++ leBytes 1 (pk.hops % 32 + 32 * b2n pk.sealed + 64 * b2n pk.kphase)

/-- The packet that header bytes, a channel and a class spell (13 Table 4). -/
def parsePacket (vc : Nat) (cls : Bool) (bs : List Byte) : Packet :=
  { vc := vc, cls := cls
    dst := bitsN (leAt bs 0 4) 19 0, type := bitsN (leAt bs 0 4) 27 20
    src := bitsN (leAt bs 4 4) 19 0, endpoint := bitsN (leAt bs 4 4) 27 20
    addr := bitsN (leAt bs 8 6) 43 0, len := leAt bs 14 2, seq := BitVec.ofNat 32 (leAt bs 16 4)
    rtag := BitVec.ofNat 16 (leAt bs 20 2), op := leAt bs 22 1
    hops := bitsN (leAt bs 23 1) 4 0, sealed := bitsN (leAt bs 23 1) 5 5 == 1, kphase := bitsN (leAt bs 23 1) 6 6 == 1
    data := sliceB bs 24 (if bitsN (leAt bs 0 4) 27 20 = tyRead then 0 else leAt bs 14 2) }

/-- One bit step of the flit CRC: polynomial 0x8BB7, most significant bit first (13 Table 2; log 9). -/
def crc16Bit (c : W16) : W16 := if c.getMsbD 0 then (c <<< 1) ^^^ 0x8BB7#16 else c <<< 1

/-- One byte of the flit CRC. -/
def crc16Byte (c : W16) (b : Byte) : W16 := iter crc16Bit 8 (c ^^^ ((b.setWidth 16) <<< 8))

/-- The CRC-16 of a flit over its bytes 0 to 61 (13 Table 2). -/
def crc16 (bs : List Byte) : W16 := bs.foldl crc16Byte 0xFFFF#16

/-- A list in chunks of n elements, at most k of them. -/
def chunks {α : Type} (n : Nat) : Nat → List α → List (List α)
  | 0, _ => []
  | k + 1, l => if l.isEmpty then [] else l.take n :: chunks n k (l.drop n)

/-- The flits a packet takes at a port: the header, the data, a 16-byte tag on a sealed port, in bodies of 60 bytes (13 R351,
R354). -/
def PortState.flitCount (s : PortState) (pk : Packet) : Nat := (24 + pk.data.length + (if s.isSealed then 16 else 0) + 59) / 60

/-- One flit: the flit header, 60 bytes of body, the CRC (13 Table 2). -/
def mkFlit (vc : Nat) (sop eop lcf cls : Bool) (body : List Byte) : List Byte :=
  let h := leBytes 2 (vc % 4 + 4 * b2n sop + 8 * b2n eop + 16 * b2n lcf + 32 * b2n cls) ++ sliceB body 0 60
  h ++ leBytes 2 (crc16 h).toNat

/-- Bytes of a packet as flits of its channel and class. -/
def bodyFlits (vc : Nat) (cls : Bool) (bs : List Byte) : List (List Byte) :=
  let bodies := chunks 60 ((bs.length + 59) / 60) bs
  bodies.mapIdx (fun i b => mkFlit vc (i == 0) (i + 1 == bodies.length) false cls b)

/-- Whether dimension-order mode is on (13 R364). -/
def Dev.dor (d : Dev) : Bool := fbit (d.word (offLnk + 4)) 0

/-- The credit counter of a channel and class: one per class in dimension-order mode (13 R358). -/
def Dev.creditIdx (d : Dev) (vc : Nat) (cls : Bool) : Nat := vc + (if d.dor && cls then 4 else 0)

/-- A port is usable when it is ACTIVE and in routes (13 R362). -/
def PortState.usable (s : PortState) : Bool := decide (s.mode = .active) && s.inRoutes

/-- A port whose transmitter carries BEATs and other VC0 traffic (13 Table 9, R368). -/
def PortState.beats (s : PortState) : Bool :=
  match s.mode with
  | .active | .drained | .retrain => true
  | _ => false

/-- A port that carries flits: in EXCHANGE too, probes and the messages of the key exchange (13 Table 9, R367). -/
def PortState.carries (s : PortState) : Bool := s.beats || decide (s.mode = .exchange)

/-- Whether a port's transmitter works: its quadrant has its SerDes reference (13 R368, 18 R471). -/
def Dev.txWorks (d : Dev) (p : Nat) : Bool := !d.pwr.sdLost.contains (p / 8)

/-- Word i of entry e of a route table: a port's, or the origin's (13 R361, R380). -/
def Dev.routeWord (d : Dev) (arr : Option Nat) (e i : Nat) : W32 :=
  match arr with
  | some p => d.word (offPort p + 0x4000 + 16 * e + 4 * i)
  | none => d.word (offLnk + 0x4000 + 16 * e + 4 * i)

/-- Whether a prefix key matches a node: valid, LEN at most 20, and the top LEN bits equal (13 R361). -/
def keyMatches (key : W32) (node : Nat) : Bool :=
  let len := fld key 24 20
  fbit key 25 && decide (len ≤ 20) && (fld key 19 0 / 2 ^ (20 - len) == node / 2 ^ (20 - len))

/-- The entry that matches with the longest prefix, the lowest index among equals (13 R361). -/
def Dev.routeEntry (d : Dev) (arr : Option Nat) (node : Nat) : Option Nat :=
  ((List.range 1024).foldl (fun best e =>
    let key := d.routeWord arr e 0
    if keyMatches key node then
      match best with
      | none => some (e, fld key 24 20)
      | some (b, l) => if fld key 24 20 > l then some (e, fld key 24 20) else some (b, l)
    else best) none).map Prod.fst

/-- Free credits of a port for a packet's channel. -/
def Dev.portCredits (d : Dev) (p : Nat) (pk : Packet) : Nat :=
  listGet 0 (d.port p).credits (d.creditIdx pk.vc pk.cls)

/-- The usable port of a mask with the most free credits, the lowest number among equals (13 R362). -/
def Dev.bestByCredit (d : Dev) (mask : W32) (pk : Packet) : Option Nat :=
  ((List.range Config.ports).foldl (fun best p =>
    if fbit mask p && (d.port p).usable then
      match best with
      | none => some (p, d.portCredits p pk)
      | some (b, c) => if d.portCredits p pk > c then some (p, d.portCredits p pk) else some (b, c)
    else best) none).map Prod.fst

/-- The lowest-numbered usable port of a mask (13 R364). -/
def Dev.lowestUsable (d : Dev) (mask : W32) : Option Nat :=
  (List.range Config.ports).find? (fun p => fbit mask p && (d.port p).usable)

/-- The output port that the prefix tables give (13 R361, R362). -/
def Dev.tableRoute (d : Dev) (arr : Option Nat) (pk : Packet) : Option Nat :=
  match d.routeEntry arr pk.dst with
  | none => none
  | some e =>
    if pk.vc ≤ 1 then
      let w := d.routeWord arr e 2
      let pri := fld w 4 0
      let alt := fld w 12 8
      if fbit w 5 && (d.port pri).usable then some pri
      else if fbit w 13 && (d.port alt).usable then some alt else none
    else d.bestByCredit (d.routeWord arr e 1) pk

/-- Widths and sizes of the three dimensions (13 Table 16): each field width acts as written, 0 to 10. -/
def Dev.dimWidth (d : Dev) (i : Nat) : Nat := fld (d.word (offLnk + 8)) (4 * i + 3) (4 * i)
def Dev.dimSize (d : Dev) (i : Nat) : Nat := fld (d.word (offLnk + 0xC)) (10 * i + 9) (10 * i) + 1
def Dev.dimTorus (d : Dev) (i : Nat) : Bool := fbit (d.word (offLnk + 8)) (12 + i)
def Dev.dimLow (d : Dev) : Nat → Nat
  | 0 => 0
  | i + 1 => d.dimLow i + d.dimWidth i
/-- Coordinate i of a node (13 R364). -/
def Dev.coord (d : Dev) (node i : Nat) : Nat := (node / 2 ^ d.dimLow i) % 2 ^ d.dimWidth i
/-- The mask of ports that face a direction of a dimension. -/
def Dev.dimMask (d : Dev) (i : Nat) (plus : Bool) : W32 := d.word (offLnk + 0x10 + 8 * i + (if plus then 0 else 4))

/-- The dimension to correct, x before y before z (13 R364). -/
def Dev.dorDim (d : Dev) (dst : Nat) : Option Nat := [0, 1, 2].find? (fun i => d.coord d.node i != d.coord dst i)

/-- The direction taken in a dimension: the shorter way round a torus and plus on a tie, by sign on a mesh (13 R364). -/
def Dev.dorPlus (d : Dev) (dst i : Nat) : Bool :=
  let a := d.coord d.node i
  let b := d.coord dst i
  if d.dimTorus i then
    let s := d.dimSize i
    let f := (b + s - a % s) % s
    decide (2 * f ≤ s)
  else decide (a < b)

/-- Whether the move crosses a wrap link (13 R364). -/
def Dev.dorWrap (d : Dev) (i : Nat) (plus : Bool) : Bool :=
  d.dimTorus i && (if plus then d.coord d.node i + 1 == d.dimSize i else d.coord d.node i == 0)

/-- The CLASS of a packet on its way out in a dimension: set by a wrap link, cleared by a turn (13 R364). -/
def Dev.dorClass (d : Dev) (arr : Option Nat) (pk : Packet) (i : Nat) (plus : Bool) : Bool :=
  if d.dorWrap i plus then true else
  match arr with
  | some p => if fbit (d.dimMask i true) p || fbit (d.dimMask i false) p then pk.cls else false
  | none => false

/-- Whether dimension-order routing applies to a destination: its bits above the coordinate fields equal this part's (13 R364). -/
def Dev.dorApplies (d : Dev) (dst : Nat) : Bool :=
  d.dor && (dst / 2 ^ d.dimLow 3 == d.node / 2 ^ d.dimLow 3) && (d.dorDim dst).isSome

/-- The output port and class of a packet (13 R360, R364). -/
def Dev.route (d : Dev) (arr : Option Nat) (pk : Packet) : Option (Nat × Bool) :=
  if d.dorApplies pk.dst then
    let i := (d.dorDim pk.dst).getD 0
    let plus := d.dorPlus pk.dst i
    let cls := d.dorClass arr pk i plus
    let q := if pk.vc ≤ 1 then d.lowestUsable (d.dimMask i plus)
             else d.bestByCredit (d.dimMask i plus) { pk with cls := cls }
    q.map (fun p => (p, cls))
  else (d.tableRoute arr pk).map (fun p => (p, pk.cls))

/-- The transmit key in use on a sealed port. -/
def PortState.txKey (s : PortState) : SealKey := listGet {} s.txKeys (b2n s.txPhase)

/-- The packet as it leaves a port: the phase of the key on a sealed port, and in a BEAT the time at which it leaves (13 R368,
R377). -/
def Dev.dress (p : Nat) (pk : Packet) (d : Dev) : Packet :=
  let s := d.port p
  { pk with
    kphase := s.isSealed && s.txPhase
    data := if pk.type = tyBeat then leBytes 8 d.ft.now.toNat ++ pk.data.drop 8 else pk.data }

/-- Data under the key stream of a key (13 R376): it encrypts and decrypts. -/
def SealKey.crypt (k : SealKey) (bs : List Byte) : List Byte :=
  bs.mapIdx (fun i b => b ^^^ Config.sealStream k.key k.session.toNat k.count i)

/-- The bytes of a packet as sent (13 R354, R376): on a sealed port the data is encrypted and a tag over header and data
follows. -/
def PortState.packetBytes (s : PortState) (pk : Packet) : List Byte :=
  if s.isSealed then
    let b := headerBytes pk ++ s.txKey.crypt pk.data
    b ++ leBytes 16 (Config.sealTag s.txKey.key s.txKey.session.toNat s.txKey.count b).toNat
  else headerBytes pk ++ pk.data

/-! ## Link control (13 R353) -/

/-- A link control body with a command (13 Table 3). -/
def PortState.linkBody (s : PortState) (cmd lane : Nat) (swapSeq : W32) : List Byte :=
  leBytes 2 s.rxSeq.toNat ++ leBytes 1 (1 + 2 * b2n s.nak) ++ leBytes 1 0 ++ s.owed.flatMap (leBytes 2) ++
  leBytes 1 (cmd % 16 + 16 * (lane % 16)) ++ leBytes 3 0 ++ leBytes 4 swapSeq.toNat ++ leBytes 32 0

/-- Send a link control flit: it returns the credits owed and the pending NAK (13 R353). -/
def Dev.sendLink (p cmd lane : Nat) (swapSeq : W32) (d : Dev) : Dev :=
  let s := d.port p
  let body := s.linkBody cmd lane swapSeq
  (d.putPort p { s.frameFlit (mkFlit 0 false false true false body) with owed := [0, 0, 0, 0, 0, 0, 0, 0], nak := false, sinceLink := 0 }).emit (.linkCtl p body)

/-- A link control flit leaves at least once per 256 flits (13 R353). -/
def Dev.linkIfDue (p : Nat) (d : Dev) : Dev := if 256 ≤ (d.port p).sinceLink then d.sendLink p 0 0 0 else d

/-! ## Arbitration and credits (13 R351, R357-R359, Table 7) -/

/-- The queue of the task an endpoint runs, if any (11 Table 1). -/
def Dev.epQueue (d : Dev) (ep : Nat) : Option Nat :=
  if ep < 136 then (d.half (ep / 2) (ep % 2)).queue
  else if 168 ≤ ep ∧ ep < 176 then ((mapFind d.eng.churns (ep - 168)).bind (fun c => c.queue))
  else if 184 ≤ ep ∧ ep < 192 then ((mapFind d.eng.breezes (ep - 184)).bind (fun c => c.queue))
  else none

/-- FT_GUARD in ftu, at least 8 ns (02 R38). -/
def Dev.guardFtu (d : Dev) : Nat := 1024 * max 8 (fld (d.word (offFt + 0x34)) 15 0)

/-- Whether the guard holds back a VC1 transfer of this part (02 R38): it starts no earlier than FT_GUARD after its slot's
start, a window being a run of whole slots. -/
def Dev.guardHeld (d : Dev) (pk : Packet) : Bool :=
  pk.vc == 1 && pk.src == d.node && (match (d.epQueue pk.endpoint).bind (fun q => (mapFind d.fe.sqs q).bind (fun s => s.window)) with
  | some w => decide (ftDiff d.sched w.start % (d.slotFtu : Int) < (d.guardFtu : Int))
  | none => false)

/-- The packets under one key after which a port enters FAULT (13 R376). -/
def sealLimit : Nat := 2 ^ 60

/-- The next packet of a channel that may begin at a port. -/
def Dev.nextPacket (d : Dev) (p vc : Nat) : Option Packet :=
  let s := d.port p
  if s.isSealed && decide (sealLimit ≤ s.txKey.count) then none else s.txq.find? (fun k => k.vc == vc && !d.guardHeld k)

/-- Whether a flit of a channel can leave: a credit for its class, room among the 8,192 flits of the replay buffer, and a
port that carries the channel (13 R352, R358, Table 9). -/
def Dev.canSend (d : Dev) (p vc : Nat) : Bool :=
  let s := d.port p
  d.txWorks p && (if vc = 0 then s.carries else decide (s.mode = .active)) && decide (s.replay.length < 8192) &&
  (match listGet [] s.txf vc with
  | f :: _ => decide (0 < listGet 0 s.credits (d.creditIdx vc (bitsN (leAt f 0 2) 5 5 == 1)))
  | [] => match d.nextPacket p vc with
    | some k => decide (0 < listGet 0 s.credits (d.creditIdx vc k.cls))
    | none => false)

/-- The channel of the next flit (13 Table 7): VC0 first; VC1 up to VC1_CAP flits in each 256; VC2 and VC3 flit by flit in
turn. The second answer says that VC1 begins a new 256, the slots left of the last one having nothing to carry. -/
def Dev.pickVc (d : Dev) (p : Nat) : Option (Nat × Bool) :=
  let s := d.port p
  let cap := fld (d.word (offPort p)) 15 8
  if d.canSend p 0 then some (0, false)
  else if d.canSend p 1 && decide (s.vc1Run < cap) then some (1, false)
  else if d.canSend p 2 && (!s.vc3Next || !d.canSend p 3) then some (2, false)
  else if d.canSend p 3 then some (3, false)
  else if d.canSend p 1 && decide (0 < cap) then some (1, true)
  else none

/-- The next packet of a channel begins: its flits are formed, under the next count of the key on a sealed port. -/
def Dev.beginPacket (p vc : Nat) (d : Dev) : Dev :=
  match d.nextPacket p vc with
  | none => d
  | some pk =>
    let s := d.port p
    let pk' := d.dress p pk
    (d.putPort p { s with
      txq := s.txq.erase pk
      txf := s.txf.set vc (bodyFlits vc pk.cls (s.packetBytes pk'))
      txKeys := if s.isSealed then s.txKeys.set (b2n s.txPhase) { s.txKey with count := s.txKey.count + 1 } else s.txKeys }).emit (.packet p pk')

/-- One flit of a channel leaves: it takes a credit and the next flit sequence and stays in the replay buffer (13 R352). -/
def Dev.sendFlit (p vc : Nat) (fresh : Bool) (d : Dev) : Dev :=
  let s := d.port p
  match listGet [] s.txf vc with
  | [] => d
  | f :: rest =>
    let ci := d.creditIdx vc (bitsN (leAt f 0 2) 5 5 == 1)
    let run := if fresh then 0 else s.run
    let ones := (if fresh then 0 else s.vc1Run) + (if vc = 1 then 1 else 0)
    (d.putPort p { s.frameFlit f with
      txf := s.txf.set vc rest
      txSeq := s.txSeq + 1
      replay := s.replay ++ [f]
      credits := s.credits.set ci (listGet 0 s.credits ci - 1)
      run := if run = 255 then 0 else run + 1
      vc1Run := if run = 255 then 0 else ones
      vc3Next := if vc = 2 then true else if vc = 3 then false else s.vc3Next
      sinceLink := s.sinceLink + 1 }).linkIfDue p

/-- Flits leave a port in the order of its arbitration as far as credits allow, at most n. -/
def Dev.pumpPort (p : Nat) : Nat → Dev → Dev
  | 0, d => d
  | n + 1, d =>
    match d.pickVc p with
    | none => d
    | some (vc, fresh) =>
      Dev.pumpPort p n ((if (listGet [] (d.port p).txf vc).isEmpty then d.beginPacket p vc else d).sendFlit p vc fresh)

/-- The flits that wait at a port. -/
def PortState.waiting (s : PortState) : Nat := (s.txq.map s.flitCount).sum + (s.txf.map List.length).sum

/-- Send what waits at a port (13 R358). -/
def Dev.drainTxq (p : Nat) (d : Dev) : Dev := d.pumpPort p (d.port p).waiting

/-- Hand a packet to a port: sent as far as credits allow, behind what its channel has waiting (13 R358). -/
def Dev.sendOn (p : Nat) (pk : Packet) (d : Dev) : Dev := (d.modPort p (fun s => { s with txq := s.txq ++ [pk] })).drainTxq p

/-- Send a packet to the partner of a port that this part creates: SEALED where the port is sealed (13 R377). -/
def Dev.sendOwn (p : Nat) (pk : Packet) (d : Dev) : Dev := d.sendOn p { pk with sealed := (d.port p).isSealed }

/-- Send a packet that this part creates or forwards (13 R360, R377): its status says where no route is found or a sealed
packet would leave on an unsealed port. The origin sets SEALED. A packet to this part itself is delivered here: of those
this part creates so only CONTROL exists, which came on no port and is discarded (R374). -/
def Dev.sendPacket (arr : Option Nat) (pk : Packet) (d : Dev) : Nat × Dev :=
  if arr.isNone && pk.dst == d.node then (stOk, d) else
  match d.route arr pk with
  | none =>
    (stNoRoute, match arr with
      | some p => d.modPort p (fun s => { s with noRoute := s.noRoute + 1 })
      | none => { d with lnk := { d.lnk with noRouteOrigin := d.lnk.noRouteOrigin + 1 } })
  | some (p, cls) =>
    if arr.isSome && pk.sealed && !(d.port p).isSealed then (stSeal, d)
    else (stOk, if arr.isSome then d.sendOn p { pk with cls := cls } else d.sendOwn p { pk with cls := cls })

/-- A packet created by this part (13 R360: HOPS starts at 31). -/
def mkPacket (d : Dev) (vc dst ty endpoint addr len : Nat) (seq : W32) (rtag : W16) (op : Nat) (data : List Byte) : Packet :=
  { vc := vc, cls := false, dst := dst, type := ty, src := d.node, endpoint := endpoint, addr := addr, len := len,
    seq := seq, rtag := rtag, op := op, hops := 31, sealed := false, kphase := false, data := data }

/-- The response to a request, formed by this part (13 R355; responses travel on VC3, R357). -/
def mkResponse (d : Dev) (pk : Packet) (status : Nat) (data : List Byte) : Packet :=
  mkPacket d 3 pk.src (respType pk.type) pk.endpoint 0 data.length 0 pk.rtag status data

/-- Answer a request that came in on a port. -/
def Dev.respond (pk : Packet) (status : Nat) (data : List Byte) (d : Dev) : Dev :=
  (d.sendPacket none (mkResponse d pk status data)).2

/-- Set the NO_ROUTE event of the arrival port with the count (13 Table 15). -/
def Dev.noRouteEvent (arr : Option Nat) (d : Dev) : Dev :=
  match arr with
  | some p => d.setFlag (evPort p) 8
  | none => d

end Sys2Proof.Machine
end

