-- ==== Sys2Proof/Machine/RasOps.lean ====
section
/-! DEFINITION. Operations of availability (19): noting an error for the fault log, the tile map and the error counts. -/
namespace Sys2Proof.Machine

/-- Change RAS state. -/
def Dev.modRas (f : RasState → RasState) (d : Dev) : Dev := { d with ras := f d.ras }

/-- Note an event for the fault log, with FT_NOW at detection; with LOG_EN = 0 nothing is logged (19 R479, R480). -/
def Dev.note (block kind unit : Nat) (addr info : W64) (record : List Byte) (d : Dev) : Dev :=
  if fbit (d.word offRas) 0 then
    d.modRas (fun r => { r with log := r.log ++ [{ block := block, kind := kind, unit := unit, time := d.ft.now, addr := addr, info := info, record := record }] })
  else d

/-- The physical tile of a logical tile: that of 01 R11 until a retirement changes it (19 R481). -/
def Dev.physOf (d : Dev) (t : Nat) : Nat := mapGet (18 * (t / 17) + t % 17) d.ras.tmap t

/-- A physical tile's entry. -/
def Dev.phys (d : Dev) (p : Nat) : PhysTile := mapGet {} d.ras.ptiles p

/-- The state of a physical tile: the last of each quadrant's 18 is its spare until a retirement changes it (01 R11). -/
def Dev.physMode (d : Dev) (p : Nat) : PhysMode :=
  match (d.phys p).mode with
  | some m => m
  | none => if p % 18 = 17 then .spare else .active

/-- The logical tile of an active physical tile. -/
def Dev.logicalOf (d : Dev) (p : Nat) : Nat := ((List.range Config.tiles).find? (fun t => d.physOf t == p)).getD 0

/-- The quadrant of a logical tile (01 R10, R12). -/
def Dev.quadOf (d : Dev) (t : Nat) : Nat := d.physOf t / 18

/-- Change a physical tile's entry. -/
def Dev.modPhys (p : Nat) (f : PhysTile → PhysTile) (d : Dev) : Dev :=
  d.modRas (fun r => { r with ptiles := mapMod {} r.ptiles p f })

/-- An error found in a tile's store (07 R204; 19 Table 3 KIND 2 and 3, Table 6): logged with the store and the physical
tile, and counted; a corrected count that reaches the threshold sets TILE_CE. -/
def Dev.tileError (ue : Bool) (t store : Nat) (addr : W64) (d : Dev) : Dev :=
  let p := d.physOf t
  let d1 := (d.note 4 (if ue then 3 else 2) t addr (BitVec.ofNat 64 (store + 256 * p)) []).modPhys p (fun q =>
    if ue then { q with ue := min 255 (q.ue + 1) } else { q with ce := min 255 (q.ce + 1) })
  d1.setFlagIf (!ue && decide ((d1.phys p).ce = Nat.max 1 (fld (d.word offRas) 15 8))) evRas 2

end Sys2Proof.Machine
end

