-- ==== Sys2Proof/Machine/MemBase.lean ====
section
/-! DEFINITION. The stores themselves: HBM by interleaved address with its error code and retirement, the tile stores behind a tile window, and sync memory (07, 03 R75). -/
namespace Sys2Proof.Machine

/-! ## The HBM map (07 R187-R189) -/

/-- Bytes of HBM: 640 GiB. -/
def hbmSize : Nat := 0xA000000000
/-- Bytes of one stack behind its window: 80 GiB. -/
def stackSize : Nat := 0x1400000000
/-- Base of the stack-local windows and their spacing (07 Table 1). -/
def stackBase : Nat := 0x20000000000
def stackSpan : Nat := 0x2000000000
/-- Base of the tile windows and their size (07 Table 1). -/
def tileBase : Nat := 0x80000000000
def tileSpan : Nat := 0x2000000
/-- Sync memory and registers (07 Table 1). -/
def syncBase : Nat := 0x90000000000
def syncSize : Nat := 0x20000
def regBase : Nat := 0xA0000000000
def regSize : Nat := 0x4000000

/-- The fold of a row into the pseudo-channel (07 R187). -/
def rowFold (r : Nat) : Nat := Nat.xor (Nat.xor (bitsN r 7 0) (bitsN r 15 8)) (bitsN r 21 16)
/-- Stack, pseudo-channel and row of an interleaved address (07 R187). -/
def granOf (a : Nat) : Nat × Nat × Nat :=
  let g := a / 1024
  let r := g / 256
  let pc := Nat.xor (g % 256) (rowFold r)
  (pc % 8, pc / 8, r)
/-- The interleaved address of a stack-local offset (07 R188, R189). -/
def interOf (s off : Nat) : Nat :=
  let j := off / 1024
  let r := j / 32
  (r * 256 + Nat.xor (s + 8 * (j % 32)) (rowFold r)) * 1024 + off % 1024
/-- The stack-local offset of an interleaved address. -/
def stackOff (a : Nat) : Nat :=
  let g := granOf a
  (g.2.2 * 32 + g.2.1) * 1024 + a % 1024

/-- One stack (07). -/
def Dev.stack (d : Dev) (s : Nat) : StackMem := mapGet {} d.mem.hbmStacks s
/-- Change one stack. -/
def Dev.modStack (s : Nat) (f : StackMem → StackMem) (d : Dev) : Dev :=
  { d with mem := { d.mem with hbmStacks := mapMod {} d.mem.hbmStacks s f } }
/-- Change memory state. -/
def Dev.modMem (f : MemState → MemState) (d : Dev) : Dev := { d with mem := f d.mem }

/-- The key of a granule within its stack. -/
def granKey (p r : Nat) : Nat := p * 4194304 + r
/-- Spares in use in a pseudo-channel. -/
def StackMem.used (m : StackMem) (p : Nat) : Nat := (m.remap.filter (fun e => e.1 / 4194304 == p)).length
/-- The lowest free spare of a pseudo-channel (07 R208). -/
def StackMem.spare (m : StackMem) (p : Nat) : Option Nat :=
  (List.range 256).find? (fun i => !(m.remap.any (fun e => e.1 / 4194304 == p && e.2.1 == i)))
/-- Whether a granule is retired. -/
def StackMem.retired (m : StackMem) (k : Nat) : Bool := (mapFind m.remap k).isSome

/-- The controller begins a retirement of its own (07 R207, R208): ignored where the granule is retired or already
queued, refused with SPARE_OUT where no spare is free. -/
def Dev.autoRetire (s k : Nat) (d : Dev) : Dev :=
  let m := d.stack s
  if m.retired k || m.queue.contains k then d
  else if (m.spare (k / 4194304)).isNone then d.setFlag (evMem s) 4
  else d.modStack s (fun m => { m with queue := m.queue ++ [k] })

/-- ERR_ADDR and ERR_INFO record an error (07 Table 8). -/
def Dev.recordErr (key : Nat) (ue : Bool) (source : Nat) (d : Dev) : Dev :=
  let g := granOf key
  d.modStack g.1 (fun m => { m with
    errAddr := BitVec.ofNat 64 (stackOff key / 64 * 64)
    errInfo := BitVec.ofNat 32 (g.2.1 + 32 * b2n ue + 64 * source) })

/-- An uncorrectable HBM error is reported (07 R205, R207). -/
def Dev.hbmUe (key source : Nat) (d : Dev) : Dev :=
  let g := granOf key
  let d1 := ((d.recordErr key true source).modStack g.1 (fun m => { m with ueCnt := m.ueCnt + 1 })).setFlag (evMem g.1) 1
  if fbit (d.word 0x2000000) 1 then d1.autoRetire g.1 (granKey g.2.1 g.2.2) else d1

/-- A hit of the tracking table: most recently hit first, 64 granules (07 R207). -/
def trackHit (k : Nat) (l : List (Nat × Nat)) : List (Nat × Nat) :=
  let n := ((l.find? (fun e => e.1 == k)).map Prod.snd).getD 0
  ((k, n + 1) :: l.filter (fun e => e.1 != k)).take 64

/-- A corrected HBM error (07 R204, R207). -/
def Dev.hbmCe (key source : Nat) (d : Dev) : Dev :=
  let g := granOf key
  let k := granKey g.2.1 g.2.2
  let d1 := ((d.recordErr key false source).modStack g.1 (fun m => { m with
    ceCnt := m.ceCnt + 1, track := trackHit k m.track })).setFlag (evMem g.1) 0
  let th := fld (d.word 0x2000000) 15 8
  let n := (((d1.stack g.1).track.find? (fun e => e.1 == k)).map Prod.snd).getD 0
  if th ≠ 0 ∧ th ≤ n then
    (d1.modStack g.1 (fun m => { m with track := m.track.filter (fun e => e.1 != k) })).autoRetire g.1 k
  else d1

/-- The interleaved keys of n bytes from a local HBM address, if all are backed (07 R184, R188). -/
def hbmKeys (a n : Nat) : Option (List Nat) :=
  if a + n ≤ hbmSize then some ((List.range n).map (fun i => a + i))
  else if stackBase ≤ a ∧ a < stackBase + 8 * stackSpan then
    let s := (a - stackBase) / stackSpan
    let off := (a - stackBase) % stackSpan
    if off + n ≤ stackSize then some ((List.range n).map (fun i => interOf s (off + i))) else none
  else none

/-- Drop repeats that follow one another. -/
def runs : List Nat → List Nat
  | [] => []
  | x :: l =>
    match runs l with
    | [] => [x]
    | y :: r => if x = y then y :: r else x :: y :: r

/-- The 64-byte blocks of a list of byte keys. -/
def blocksOf (ks : List Nat) : List Nat := runs (ks.map (· / 64))

/-- The open region that covers a block which has not been written since it was opened (07 R195). -/
def Dev.sealedFresh (d : Dev) (b : Nat) : Option SealEntry :=
  (d.mem.seals.find? (fun e => decide (e.2.mode = .opened) && decide (e.2.base ≤ b / 4096) && decide (b / 4096 < e.2.base + e.2.rows) &&
    !e.2.written.contains b)).map Prod.snd

/-- The location index of a block (07 R195). -/
def blockLoc (b : Nat) : Nat :=
  let g := granOf (b * 64)
  ((g.1 * 32 + g.2.1) * 4194304 + g.2.2) * 16 + b % 16

/-- The bytes of a block as the controller delivers them: of an open region, what decryption gives (07 R195, log 25). -/
def Dev.blockBytes (d : Dev) (b : Nat) : List Byte :=
  match d.sealedFresh b with
  | none => bytesGet d.mem.hbm (64 * b) 64
  | some e => sliceB (Config.xtsRead e.key e.gen.toNat (blockLoc b) (bytesGet d.mem.hbm (64 * b) 64)) 0 64

/-- The byte at a key. -/
def Dev.hbmByte (d : Dev) (k : Nat) : Byte :=
  match d.sealedFresh (k / 64) with
  | none => mapGet 0#8 d.mem.hbm k
  | some _ => listGet 0#8 (d.blockBytes (k / 64)) (k % 64)

/-- A block of an open region is about to be written: it stands from now on as it was delivered until then. -/
def Dev.firstWrite (b : Nat) (d : Dev) : Dev :=
  match d.sealedFresh b with
  | none => d
  | some _ => d.modMem (fun m => { m with
      hbm := bytesSet m.hbm (64 * b) (d.blockBytes b)
      seals := m.seals.map (fun e =>
        if decide (e.2.mode = .opened) && decide (e.2.base ≤ b / 4096) && decide (b / 4096 < e.2.base + e.2.rows) then
          (e.1, { e.2 with written := b :: e.2.written }) else e) })

/-- Whether a pseudo-channel of a stack is under soft post-package repair, which holds its accesses (07 R210). -/
def StackMem.repairs (m : StackMem) (p : Nat) : Bool :=
  match m.work with
  | some (.sppr q _) => q == p
  | some (.retire _ _) => false
  | some (.release _ _) => false
  | none => false

/-- Whether a block's pseudo-channel is under repair. -/
def Dev.repairs (d : Dev) (b : Nat) : Bool := (d.stack (granOf (b * 64)).1).repairs (granOf (b * 64)).2.1

/-- The command being done has to wait (07 R210). -/
def Dev.stalled (d : Dev) : Dev := d.modMem (fun m => { m with stall := true })

/-- The correctable errors of blocks that an access meets are found: each is counted and written back corrected
(07 R203, R204). -/
def Dev.hbmMend (bs : List Nat) (source : Nat) (d : Dev) : Dev :=
  runAll (bs.filter (fun b => d.mem.weak.contains b)) (fun b d =>
    (d.modMem (fun m => { m with weak := m.weak.filter (· != b) })).hbmCe (b * 64) source) d

/-- Read HBM bytes: none where a block holds an uncorrectable error, which is reported (07 R205), or has to be waited
for. -/
def Dev.hbmRead (ks : List Nat) (source : Nat) (d : Dev) : Option (List Byte) × Dev :=
  let bs := blocksOf ks
  if bs.any d.repairs then (none, d.stalled) else
  let d1 := d.hbmMend bs source
  match bs.find? (fun b => d.mem.bad.contains b) with
  | some b => (none, d1.hbmUe (b * 64) source)
  | none => (some (ks.map d.hbmByte), d1)

/-- Whether a write covers a whole block. -/
def wholeBlock (ks : List Nat) (b : Nat) : Bool := (ks.filter (fun k => k / 64 == b)).length == 64

/-- Clear the lost-mask bit of a block that has been written whole (07 R206, R207). -/
def Dev.clearLost (b : Nat) (d : Dev) : Dev :=
  let g := granOf (b * 64)
  let k := granKey g.2.1 g.2.2
  match mapFind (d.stack g.1).remap k with
  | none => d
  | some e => d.modStack g.1 (fun m => { m with remap := mapPut m.remap k (e.1, e.2 &&& ~~~(1#16 <<< (b % 16))) })

/-- Write HBM bytes (07 R206): a whole block replaces one that holds an error; a partial write corrects a correctable
one and is not made into an uncorrectable one. The answer is false where some block was not written. -/
def Dev.hbmWrite (ks : List Nat) (data : List Byte) (d : Dev) : Bool × Dev :=
  if (blocksOf ks).any d.repairs then (false, d.stalled) else
  let d := (d.hbmMend ((blocksOf ks).filter (fun b => !wholeBlock ks b)) 2).modMem (fun m => { m with
    weak := m.weak.filter (fun b => !((blocksOf ks).contains b)) })
  let bs := (blocksOf ks).filter (fun b => d.mem.bad.contains b)
  let part := bs.filter (fun b => !wholeBlock ks b)
  let whole := bs.filter (fun b => wholeBlock ks b)
  let d0 := runAll ((blocksOf ks).filter (fun b => !part.contains b)) Dev.firstWrite d
  let d1 := d0.modMem (fun m => { m with
    hbm := (ks.zip data).foldl (fun h e => if part.contains (e.1 / 64) then h else mapSet 0#8 h e.1 e.2) m.hbm
    bad := m.bad.filter (fun b => !whole.contains b) })
  let d2 := runAll whole Dev.clearLost d1
  match part with
  | [] => (true, d2)
  | b :: _ => (false, d2.hbmUe (b * 64) 2)

/-- The seal entry that covers a row, if any (07 R194). -/
def Dev.sealOf (d : Dev) (row : Nat) : Option SealEntry :=
  (d.mem.seals.find? (fun e => decide (e.2.mode ≠ .free) && decide (e.2.base ≤ row) && decide (row < e.2.base + e.2.rows))).map Prod.snd

/-- The stacks of the granules of HBM keys whose sealed row does not admit an access (07 R196). -/
def Dev.sealedOff (d : Dev) (admits : SealEntry → Bool) (ks : List Nat) : List Nat :=
  (((runs (ks.map (· / 1024))).filter (fun g =>
    match d.sealOf (g / 256) with
    | some e => !admits e
    | none => false)).map (fun g => (granOf (g * 1024)).1)).eraseDups

/-- A sealed refusal is counted and reported on every stack it meets (07 R196). -/
def Dev.sealDeny (l : List Nat) (d : Dev) : Dev :=
  runAll l (fun s d => d.setFlag (evMem s) 7) (d.modMem (fun m => { m with denied := m.denied + 1 }))

/-- Whether a sealed row admits the part's own units that serve its owner: the vats, the vanes, NOTIFY and the step
controller, whose identifier the spec does not give; they carry the region owner's (log 25). -/
def unitAdmits (e : SealEntry) : Bool := decide (e.mode = .opened) && e.access.getLsbD 0

/-- Read HBM bytes for such a unit. -/
def Dev.ownRead (ks : List Nat) (d : Dev) : Option (List Byte) × Dev :=
  match d.sealedOff unitAdmits ks with
  | [] => d.hbmRead ks 0
  | l => (none, d.sealDeny l)
/-- Write HBM bytes for such a unit. -/
def Dev.ownWrite (ks : List Nat) (data : List Byte) (d : Dev) : Bool × Dev :=
  match d.sealedOff unitAdmits ks with
  | [] => d.hbmWrite ks data
  | l => (false, d.sealDeny l)

/-- Read bytes of HBM by stack-local offset, as an engine of the stack does. -/
def Dev.stackRead (s off n : Nat) (d : Dev) : Option (List Byte) × Dev :=
  d.ownRead ((List.range n).map (fun i => interOf s (off + i)))
/-- Write bytes of HBM by stack-local offset. -/
def Dev.stackWrite (s off : Nat) (data : List Byte) (d : Dev) : Bool × Dev :=
  d.ownWrite ((List.range data.length).map (fun i => interOf s (off + i))) data

/-! ## The tile stores behind a window (03 Table 4, 07 Table 4) -/

/-- Window offsets of the stores. -/
def winAcc : Nat := 0x1800000
def winBank (b : Nat) : Nat := 0x1C00000 + 0x20000 * b
def winTags : Nat := 0x1C40000
def winBuf : Nat := 0x1C41000

/-- The stores a window offset can name. -/
inductive TileStore where
  | mem | acc | bank (b : Nat) | tag | buf | reserved
deriving DecidableEq, Repr

/-- The store a window offset names (03 Table 4). -/
def storeAt (off : Nat) : TileStore :=
  if off < winAcc then .mem else if off < winBank 0 then .acc
  else if off < winBank 1 then .bank 0 else if off < winTags then .bank 1
  else if off < winBuf then .tag else if off < winBuf + 0x1000 then .buf else .reserved

/-- The store's number in a fault-log entry (19 Table 3). -/
def TileStore.num : TileStore → Nat
  | .mem => 0 | .acc => 1 | .tag => 2 | .bank _ => 3 | .buf => 5 | .reserved => 0

/-- The first byte and the size of the protected word at a window offset (07 R526, Table 4). -/
def protWord (off : Nat) : Nat × Nat :=
  match storeAt off with
  | .mem => (off / 8 * 8, 8)
  | .bank _ => (off / 8 * 8, 8)
  | .acc => (off / 4 * 4, 4)
  | .buf => (off / 4 * 4, 4)
  | .tag => (off, 1)
  | .reserved => (off, 1)

/-- The byte at a window offset; a reserved offset reads as zero (03 R76). -/
def TileState.byteAt (t : TileState) (off : Nat) : Byte :=
  match storeAt off with
  | .mem => mapGet 0 t.tmem off
  | .acc => ((mapGet 0#32 t.acc ((off - winAcc) / 4)) >>> (8 * (off % 4))).setWidth 8
  | .bank b => mapGet 0 (if b = 0 then t.bank0 else t.bank1) (off - winBank b)
  | .tag => mapGet 0 t.tags (off - winTags)
  | .buf => mapGet 0 t.win (off - winBuf)
  | .reserved => 0

/-- Set the byte at a window offset. -/
def TileState.setByte (off : Nat) (v : Byte) (t : TileState) : TileState :=
  match storeAt off with
  | .mem => { t with tmem := mapSet 0 t.tmem off v }
  | .acc =>
    let k := (off - winAcc) / 4
    let sh := 8 * (off % 4)
    { t with acc := mapSet 0 t.acc k ((mapGet 0#32 t.acc k &&& ~~~(0xFF#32 <<< sh)) ||| (v.setWidth 32 <<< sh)) }
  | .bank b => if b = 0 then { t with bank0 := mapSet 0 t.bank0 (off - winBank 0) v }
               else { t with bank1 := mapSet 0 t.bank1 (off - winBank 1) v }
  | .tag => { t with tags := mapSet 0 t.tags (off - winTags) v }
  | .buf => { t with win := mapSet 0 t.win (off - winBuf) v }
  | .reserved => t

/-- Whether a protected word meets a range. -/
def wordMeets (off n b : Nat) : Bool := decide (b < off + n) && decide (off < b + (protWord b).2)
/-- The first protected word of a range that holds an uncorrectable error. -/
def TileState.badIn (t : TileState) (off n : Nat) : Option Nat := t.bad.find? (wordMeets off n)
/-- The protected words of a range that hold a correctable error. -/
def TileState.weakIn (t : TileState) (off n : Nat) : List Nat := t.weak.filter (wordMeets off n)

/-- The bytes of a window range. -/
def TileState.bytes (t : TileState) (off n : Nat) : List Byte := (List.range n).map (fun i => t.byteAt (off + i))

/-- Write bytes at a window offset (07 R526): whole protected words clear an error, a part of a bad word is not made.
The answer is the first bad word left, if any. -/
def TileState.write (off : Nat) (data : List Byte) (t : TileState) : Option Nat × TileState :=
  let n := data.length
  let whole (b : Nat) : Bool := decide (off ≤ b) && decide (b + (protWord b).2 ≤ off + n)
  let hit (b : Nat) : Bool := decide (b < off + n) && decide (off < b + (protWord b).2)
  let t1 := (data.zip (List.range n)).foldl (fun t e =>
    let w := (protWord (off + e.2)).1
    if t.bad.contains w && !whole w then t else t.setByte (off + e.2) e.1) t
  (t.bad.find? (fun b => hit b && !whole b), { t1 with
    bad := t.bad.filter (fun b => !(hit b && whole b))
    weak := t.weak.filter (fun b => !(hit b && whole b)) })

/-- The local address of a window offset. -/
def winAddr (t off : Nat) : W64 := BitVec.ofNat 64 (tileBase + tileSpan * t + off)

/-- The correctable words of a range that a read meets are found: each is logged and counted, and written back corrected
(07 R203, R204). -/
def Dev.tileMend (t off n : Nat) (d : Dev) : Dev :=
  runAll ((d.tile t).weakIn off n) (fun b d =>
    (d.modTile t (fun u => { u with weak := u.weak.filter (· != b) })).tileError false t (storeAt b).num (winAddr t b)) d

/-- Read bytes of a tile's stores: none where an uncorrectable word is met, which is logged (07 R204, R205). -/
def Dev.tileRead (t off n : Nat) (d : Dev) : Option (List Byte) × Dev :=
  let d1 := d.tileMend t off n
  match (d.tile t).badIn off n with
  | some b => (none, d1.tileError true t (storeAt b).num (winAddr t b))
  | none => (some ((d.tile t).bytes off n), d1)

/-- The ends of a range that cover only part of a protected word, which a write has to read (07 R526). -/
def partEnds (off n : Nat) : List Nat :=
  if n = 0 then [] else [off, off + n - 1].filter (fun o =>
    let w := protWord o
    !(decide (off ≤ w.1) && decide (w.1 + w.2 ≤ off + n)))

/-- Write bytes of a tile's stores; false where a word was not written (07 R526). A part of a word that holds a
correctable error corrects it. -/
def Dev.tileWrite (t off : Nat) (data : List Byte) (d : Dev) : Bool × Dev :=
  let d := runAll (partEnds off data.length) (fun o d => d.tileMend t o 1) d
  let r := (d.tile t).write off data
  let d1 := d.putTile t r.2
  match r.1 with
  | some b => (false, d1.tileError true t (storeAt b).num (winAddr t b))
  | none => (true, d1)

/-! ## Sync memory (07 R193) -/

/-- A watch word. -/
def Dev.sync64 (d : Dev) (i : Nat) : W64 := mapGet 0 d.sync.words i
/-- Change synchronisation state. -/
def Dev.modSync (f : SyncState → SyncState) (d : Dev) : Dev := { d with sync := f d.sync }

/-- An error found in sync memory is logged (07 R204, 19 Table 3). -/
def Dev.syncError (ue : Bool) (i : Nat) (d : Dev) : Dev :=
  d.note 9 (if ue then 16 else 15) 0 (BitVec.ofNat 64 (syncBase + 8 * i)) 0 []

/-- The correctable error of a watch word that a read meets is found (07 R204). -/
def Dev.syncMend (i : Nat) (d : Dev) : Dev :=
  if d.mem.weakSync.contains i then (d.modMem (fun m => { m with weakSync := m.weakSync.filter (· != i) })).syncError false i else d

/-- The canonical form of the part's byte stores: in HBM, in every tile store and in sync memory the keys rise and no
entry equals what an unlisted key reads as (log 3). -/
def Memory.wf (d : Dev) : Bool :=
  mapWf 0 d.mem.hbm && mapWf 0 d.sync.words && d.tiles.all (fun e =>
    mapWf 0 e.2.tmem && mapWf 0 e.2.acc && mapWf 0 e.2.tags && mapWf 0 e.2.bank0 && mapWf 0 e.2.bank1 && mapWf 0 e.2.win)

/-- The value an atomic operation leaves (05 R140). -/
def atomNew (op : AtomOp) (old x c : W64) : W64 :=
  match op with
  | .add => old + x
  | .sig => old + x
  | .swap => x
  | .cas => if old = c then x else old
  | .maxu => if old.toNat < x.toNat then x else old
  | .maxs => if old.toInt < x.toInt then x else old

end Sys2Proof.Machine
end

