-- ==== Sys2Proof/Machine/VatOps.lean ====
section
/-! DEFINITION. Operations of the vat adders (08): vat words, bucket ranges, and the admission of contributions and markers. -/
namespace Sys2Proof.Machine

/-- Change engine state. -/
def Dev.modEng (f : EngState → EngState) (d : Dev) : Dev := { d with eng := f d.eng }
/-- One stack's vat. -/
def Dev.vat (d : Dev) (s : Nat) : VatState := mapGet {} d.eng.vats s
/-- Change one stack's vat. -/
def Dev.modVat (s : Nat) (f : VatState → VatState) (d : Dev) : Dev :=
  d.modEng (fun e => { e with vats := mapMod {} e.vats s f })
/-- The key of a bucket. -/
def bKey (s b : Nat) : Nat := 4096 * s + b
/-- A bucket that is not FREE. -/
def Dev.bucket (d : Dev) (s b : Nat) : Option Bucket := mapFind d.eng.buckets (bKey s b)
/-- Store a bucket. -/
def Dev.putBucket (s b : Nat) (k : Bucket) (d : Dev) : Dev :=
  d.modEng (fun e => { e with buckets := mapPut e.buckets (bKey s b) k })

/-- The bucket table of a stack: base offset and entries (08 Table 13). -/
def Dev.vatTable (d : Dev) (s : Nat) : Nat := (d.word64 (offVat s)).toNat % 2 ^ 37 / 4096 * 4096
def Dev.vatLen (d : Dev) (s : Nat) : Nat := fld (d.word (offVat s + 8)) 12 0
/-- The offset of an entry. -/
def Dev.bucketOff (d : Dev) (s b : Nat) : Nat := d.vatTable s + 128 * b

/-- Bytes of an element as it arrives. -/
def Bucket.esz (k : Bucket) : Nat := if k.f32 then 4 else 2
/-- Length of the intake range. -/
def Bucket.intakeLen (k : Bucket) : Nat := 64 + k.elems * k.esz
/-- Length of one bitmap. -/
def Bucket.mapLen (k : Bucket) : Nat := (k.nc + 511) / 512 * 64

/-- Whether two ranges meet. -/
def meets (a n b m : Nat) : Bool := decide (a < b + m) && decide (b < a + n)

/-- What a stack-local access meets among the ranges of buckets not FREE (08 R217, R219). -/
inductive VatHit where
  | none
  | intake (b : Nat)
  | guarded
deriving DecidableEq, Repr

/-- The buckets of a stack that are not FREE. -/
def Dev.bucketsOf (d : Dev) (s : Nat) : List (Nat × Bucket) :=
  (d.eng.buckets.filter (fun e => e.1 / 4096 == s)).map (fun e => (e.1 % 4096, e.2))

/-- What an access meets (08 R217, R219). -/
def Dev.vatHit (d : Dev) (s off n : Nat) : VatHit :=
  let bs := d.bucketsOf s
  match bs.find? (fun e => meets off n e.2.intake e.2.intakeLen) with
  | some e => .intake e.1
  | none =>
    if bs.any (fun e => meets off n (d.bucketOff s e.1) 128 || meets off n e.2.data (8 * e.2.elems) ||
        meets off n e.2.roster (2 * e.2.mapLen)) then .guarded else .none

/-- The limit of a vat word (08 R214). -/
def vatMax : Int := 9223372036854775807

/-- Keep a value inside a vat word: the word and whether it saturated. -/
def vatSat (v : Int) : Int × Bool :=
  if v > vatMax then (vatMax, true) else if v < -vatMax then (-vatMax, true) else (v, false)

/-- A contribution as a vat integer: rounded half to even and saturated (08 R214 to_vat). -/
def toVat (c : Num) (x : Int) : Int × Bool :=
  match roundNum .rne 4096 0 (c.scale (-x)) with
  | .fin m e => vatSat (m * 2 ^ e.toNat)
  | _ => (0, false)

/-- Set flag bits of a bucket: SAT 0, TORN 1, NONFINITE 2, ERROR 3, EMPTY 4, FORCED 5, LATE 6 (08 Table 1). -/
def Bucket.flag (i : Nat) (k : Bucket) : Bucket := { k with flags := k.flags ||| BitVec.ofNat 8 (2 ^ i) }

/-- An uncorrectable vat word: ERROR is set and the word is left (08 R223). -/
def Dev.vatError (s b : Nat) (d : Dev) : Dev :=
  match d.bucket s b with
  | none => d
  | some k => (d.putBucket s b (k.flag 3)).setFlag (evVat s) 4

/-- Write bytes for a bucket: where a block with an uncorrectable error cannot be made, the bucket takes ERROR (07 R206). -/
def Dev.vatPut (s b off : Nat) (bs : List Byte) (d : Dev) : Dev :=
  let r := d.stackWrite s off bs
  if r.1 then r.2 else r.2.vatError s b

/-- Add one element (08 R214, R215). -/
def Dev.vatElem (s b e : Nat) (c : Num) (d : Dev) : Dev :=
  match d.bucket s b with
  | none => d
  | some k =>
    if !c.isFin then d.putBucket s b { k.flag 2 with nan := k.nan || decide (c = .nan) } else
    let k1 := match c with
      | .fin _ _ => { k with maxexp := if k.maxexp < c.log2 then c.log2 else k.maxexp }
      | _ => k
    let q := toVat c k.x
    let off := k.data + 8 * e
    let r := d.stackRead s off 8
    match r.1 with
    | none => (r.2.putBucket s b k1).vatError s b
    | some bs =>
      let sum := vatSat (signedN 64 (leNat bs) + q.1)
      (r.2.putBucket s b (if q.2 || sum.2 then k1.flag 0 else k1)).vatPut s b off (leBytes 8 (BitVec.ofInt 64 sum.1).toNat)

/-- Set bit i of a bucket's bitmap in HBM; an uncorrectable block leaves it as it is and sets ERROR (07 R205). -/
def Dev.setRosterBit (s b base i : Nat) (d : Dev) : Dev :=
  match d.stackRead s (base + i / 8) 1 with
  | (some [x], d1) => d1.vatPut s b (base + i / 8) [x ||| BitVec.ofNat 8 (2 ^ (i % 8))]
  | (_, d1) => d1.vatError s b

/-- An operation discarded as late (08 R220, R243). -/
def Dev.vatLate (s b : Nat) (k : Bucket) (d : Dev) : Dev :=
  let d1 := if k.mode = .final then d else d.putBucket s b { k.flag 6 with late := k.late + 1 }
  (d1.modVat s (fun v => { v with late := v.late + 1 })).setFlag (evVat s) 3

/-- The elements of contribution bytes. -/
def contribElems (f32 : Bool) (bs : List Byte) : List Num :=
  let f := if f32 then Fmt.f32 else Fmt.bf16
  (List.range (bs.length / (if f32 then 4 else 2))).map (fun i => f.decode (elemBits f bs i))

/-- An admitted operation with its stamp (08 R220). -/
def Dev.vatApply (s b : Nat) (op : VatOp) (stamp : W64) (d : Dev) : Dev :=
  match d.bucket s b with
  | none => d
  | some k =>
    let late := match k.mode with
      | .closing | .final => true
      | .zeroing | .opened => k.dl && decide (0 ≤ ftDiff stamp k.deadline)
    if late then d.vatLate s b k else
    match op with
    | .data src e0 bs =>
      let i := src - k.nodeBase
      if k.marks.contains i then d.putBucket s b { k with surplus := k.surplus + 1 } else
      let d1 := (d.putBucket s b { k with seen := if k.seen.contains i then k.seen else i :: k.seen }).setRosterBit s b k.roster i
      (contribElems k.f32 bs).zipIdx.foldl (fun d e => d.vatElem s b (e0 + e.2) e.1) d1
    | .marker src val =>
      let i := src - k.nodeBase
      if k.marks.contains i then d.putBucket s b { k with surplus := k.surplus + 1 } else
      (d.putBucket s b { k with marks := i :: k.marks, nrecv := k.nrecv + 1, w := k.w + BitVec.ofNat 64 (val.toNat % 2 ^ 32) }).setRosterBit
        s b (k.roster + k.mapLen) i

/-- An admitted operation reaches the vat: held during ZEROING, else applied (08 R219, R220). -/
def Dev.vatTake (s b : Nat) (op : VatOp) (d : Dev) : Dev :=
  match d.bucket s b with
  | none => d
  | some k =>
    if k.mode = .zeroing then d.putBucket s b { k with held := k.held ++ [(op, d.sched)] }
    else d.vatApply s b op d.sched

/-- A refused intake operation (08 R219). -/
def Dev.vatRefuse (s : Nat) (d : Dev) : Dev :=
  (d.modVat s (fun v => { v with refused := v.refused + 1 })).setFlag (evVat s) 2

/-- Whether a node is inside a bucket's contributor range. -/
def Bucket.inRange (k : Bucket) (node : Nat) : Bool := decide (k.nodeBase ≤ node) && decide (node < k.nodeBase + k.nc)

/-- A write that reaches an intake (08 Table 2): false where it is refused. -/
def Dev.vatWrite (s b off node : Nat) (bs : List Byte) (d : Dev) : Bool × Dev :=
  match d.bucket s b with
  | none => (false, d)
  | some k =>
    let e := (off - (k.intake + 64)) / k.esz
    if k.intake + 64 ≤ off ∧ (off - (k.intake + 64)) % k.esz = 0 ∧ bs.length % k.esz = 0 ∧
        e + bs.length / k.esz ≤ k.elems ∧ k.inRange node = true then
      (true, d.vatTake s b (.data node e bs))
    else (false, d.vatRefuse s)

/-- An `atom.sig` that reaches an intake (08 Table 2): false where it is refused. -/
def Dev.vatSig (s b off node : Nat) (val : W64) (d : Dev) : Bool × Dev :=
  match d.bucket s b with
  | none => (false, d)
  | some k =>
    if off = k.intake ∧ bitsN val.toNat 63 52 = 0 ∧ bitsN val.toNat 51 32 = node ∧ k.inRange node = true then
      (true, d.vatTake s b (.marker node val))
    else (false, d.vatRefuse s)

end Sys2Proof.Machine
end

