-- ==== Sys2Proof/Machine/SendOps.lean ====
section
/-! DEFINITION. Requests to other parts (11 R297-R299, 13 R355-R357): tags, the order tables, sending, and where an answer goes. -/
namespace Sys2Proof.Machine

/-- Change link state. -/
def Dev.modLnk (f : LinkState → LinkState) (d : Dev) : Dev := { d with lnk := f d.lnk }

/-- The channel of a request: VC1 for a task of a scheduled queue inside its open window on a locked part (13 R357). -/
def Dev.vcOf (d : Dev) (ep : Nat) : Nat :=
  match d.epQueue ep with
  | some q => if d.wins.contains q && d.releasing then 1 else 2
  | none => 2

/-- The 64-byte-aligned pieces a write touches (13 R355). -/
def piecesOf (addr len : Nat) : Nat := (addr + len + 63) / 64 - addr / 64

/-- How many requests a packet counts as (11 R298, 13 R355). -/
def countOf (ty addr len : Nat) : Nat :=
  if ty = tyWrite then piecesOf addr len else if ty = tyAtomic ∨ ty = tySignal then 1 else 0

/-- A piece of a movement descriptor is answered: a read's data is kept, a write is acknowledged, a failure noted with
its address. -/
def mvAnswer (rtag : W16) (status : Nat) (data : List Byte) (e : MvEntry) : MvEntry :=
  let addr := match e.reads.find? (fun r => r.rtag == rtag) with
    | some r => some r.src
    | none => (e.writes.find? (fun w => w.1 == rtag)).map Prod.snd
  match addr with
  | none => e
  | some a =>
    { e with
      reads := if status = 0 then updWhere (fun r => r.rtag == rtag) (fun r => { r with got := some data }) e.reads
               else e.reads.filter (fun r => r.rtag != rtag)
      writes := e.writes.filter (fun w => w.1 != rtag)
      fail := if status ≠ 0 ∧ e.fail = none then some (status, a) else e.fail }

/-- A mirror write of a churn unit is answered (08 R233): its data, or its record with release ordering. -/
def mirrorAnswer (status : Nat) (c : ChurnState) : ChurnState :=
  { c with mirror := c.mirror.map (fun m =>
             if m.recordSent then { m with acked := decide (status = 0), failed := m.failed || decide (status ≠ 0) }
             else { m with out := m.out - 1, failed := m.failed || decide (status ≠ 0) }) }

/-- A piece of a block's restoring comes (19 R489). -/
def restoreAnswer (rtag : W16) (status : Nat) (data : List Byte) (r : Restore) : Restore :=
  { r with
    parts := r.parts.map (fun p => if p.1 = some rtag then (none, some data) else p)
    failed := r.failed || (r.parts.any (fun p => p.1 == some rtag) && status != 0) }

/-- An answer, or the end of a request without one, taken by what waits for it. -/
def Dev.deliver (use : ReqFor) (rtag : W16) (status : Nat) (data : List Byte) (d : Dev) : Dev :=
  match use with
  | .global t h idx => d.modHalf t h (fun s =>
      let upd (g : GlobOp) : GlobOp := { g with status := some status, value := BitVec.ofNat 64 (leNat (data.take 8)) }
      { s with globs := updWhere (fun g => g.idx == idx) upd s.globs })
  | .move t ch => d.modTile t (fun s =>
      { s with chans := mapMod [] s.chans ch (fun l => l.map (mvAnswer rtag status data)) })
  | .mirror s => d.modEng (fun e => { e with churns := mapMod {} e.churns s (mirrorAnswer status) })
  | .lamb s => d.modEng (fun e => { e with churns := mapMod {} e.churns s (fun c =>
                 { c with pairOut := c.pairOut - 1, pairFail := c.pairFail || decide (status ≠ 0) }) })
  | .core g => d.emit (.access { kind := .engine, node := d.node, endpoint := 136 + g, owner := 0xFF } status data)
  | .restore => { d with step := { d.step with restores := d.step.restores.map (restoreAnswer rtag status data) } }
  | .openEntry => d
  | .closeEntry => d
  | .other => d

/-- Find an outstanding request. -/
def Dev.findReq (d : Dev) (rtag : W16) : Option OutReq := d.lnk.requests.find? (fun r => r.rtag == rtag)

/-- The entry of a source for a node (11 R297). -/
def Dev.order (d : Dev) (ep node : Nat) : Option OrderEntry :=
  d.sync.orders.find? (fun o => o.ep == ep && o.node == node)
/-- Change the entry of a source for a node. -/
def Dev.modOrder (ep node : Nat) (f : OrderEntry → OrderEntry) (d : Dev) : Dev :=
  d.modSync (fun s => { s with orders := updWhere (fun o => o.ep == ep && o.node == node) f s.orders })

/-- A request ends: it leaves the outstanding list, its order-table entry counts its answer, and what waited gets it. -/
def Dev.endReq (r : OutReq) (status : Nat) (data : List Byte) (d : Dev) : Dev :=
  let d1 := d.modLnk (fun l => { l with requests := l.requests.filter (fun q => q.rtag != r.rtag) })
  (d1.modOrder r.ep r.pk.dst (fun o => { o with unacked := o.unacked - r.pieces })).deliver r.use r.rtag status data

/-- The owner for whom an endpoint acts (07 R196, 11 Table 1). -/
def Dev.epOwner (d : Dev) (ep : Nat) : Nat :=
  if ep < 136 then (d.half (ep / 2) (ep % 2)).owner
  else if 168 ≤ ep ∧ ep < 176 then (mapGet {} d.eng.churns (ep - 168)).who.owner
  else if 184 ≤ ep ∧ ep < 192 then (mapGet {} d.eng.breezes (ep - 184)).who.owner
  else 0xFF

/-- Whether a request is a confined context's write that would leave on a port without a seal (16 R421 rule 2). -/
def Dev.unsealedWrite (d : Dev) (r : OutReq) : Bool :=
  d.confinedCtx (d.epOwner r.ep) && decide (countOf r.pk.type r.pk.addr r.pk.len ≠ 0) &&
  (match d.route none r.pk with
  | some (p, _) => !(d.port p).isSealed
  | none => false)

/-- Take an order-table entry out (11 R297). -/
def Dev.dropOrder (ep node : Nat) (d : Dev) : Dev :=
  d.modSync (fun s => { s with orders := s.orders.filter (fun o => !(o.ep == ep && o.node == node)) })

/-- An OPEN ends without its entry: the entry goes, and what waited for it ends with the same status (11 R297). -/
def Dev.openFailed (ep node status : Nat) (d : Dev) : Dev :=
  let mine := d.sync.stalled.filterMap (fun t => (d.findReq t).filter (fun q => q.ep == ep && q.pk.dst == node))
  let d1 := (d.dropOrder ep node).modSync (fun s => { s with
    stalled := s.stalled.filter (fun t => !(mine.any (fun q => q.rtag == t))) })
  runAll mine (fun q d => d.endReq q status []) d1

/-- A request ends before it left. -/
def Dev.endUnsent (r : OutReq) (status : Nat) (d : Dev) : Dev :=
  let d1 := d.endReq r status []
  match r.use with
  | .openEntry => d1.openFailed r.ep r.pk.dst status
  | .closeEntry => d1.dropOrder r.ep r.pk.dst
  | .global _ _ _ | .move _ _ | .mirror _ | .lamb _ | .core _ | .restore | .other => d1

/-- Put a request on its way; where it cannot leave it ends with that status (13 R361; 16 R421). -/
def Dev.launch (r : OutReq) (d : Dev) : Dev :=
  if d.unsealedWrite r then d.endUnsent r stSeal
  else
    let q := d.sendPacket none r.pk
    if q.1 = stOk then q.2 else q.2.endUnsent r q.1

/-- The first tag from one on that no outstanding request has, among n. -/
def freeTag (l : List OutReq) : Nat → W16 → W16
  | 0, t => t
  | n + 1, t => if l.any (fun r => r.rtag == t) then freeTag l n (t + 1) else t

/-- Take a new tag for a request and record it. -/
def Dev.newReq (ep : Nat) (use : ReqFor) (pk : Packet) (d : Dev) : OutReq × Dev :=
  let tag := freeTag d.lnk.requests d.lnk.requests.length d.lnk.nextTag
  let r : OutReq := { rtag := tag, ep := ep, pk := { pk with rtag := tag, endpoint := ep }, pieces := countOf pk.type pk.addr pk.len, use := use }
  (r, d.modLnk (fun l => { l with nextTag := tag + 1, requests := l.requests ++ [r] }))

/-- The least recently used entry of a source that can close (11 R297). -/
def Dev.orderVictim (d : Dev) (ep : Nat) : Option OrderEntry :=
  d.sync.orders.foldl (fun best o =>
    if o.ep == ep && decide (o.phase = .ready) && o.unacked == 0 then
      match best with
      | none => some o
      | some b => if o.used < b.used then some o else best
    else best) none

/-- Send an OPEN or a CLOSE for an entry (11 R297). -/
def Dev.sendOrder (ty ep node : Nat) (use : ReqFor) (d : Dev) : Dev :=
  let r := d.newReq ep use (mkPacket d 2 node ty ep 0 0 0 0 0 [])
  r.2.launch r.1

/-- The unlanded writes that a source may have to one node (11 R298). -/
def maxUnlanded : Nat := 16777216

/-- A counted request (11 R297, R298): it leaves with its sent count where its source's entry is ready and the writes not yet
acknowledged allow it; otherwise it waits, an entry being opened, or the least recently used one closed first. -/
def Dev.orderSend (rtag : W16) (d : Dev) : Dev :=
  match d.findReq rtag with
  | none => d
  | some r =>
    let hold (d : Dev) : Dev := d.modSync (fun s => { s with stalled := s.stalled ++ [rtag] })
    match d.order r.ep r.pk.dst with
    | some o =>
      if o.phase = .ready ∧ o.unacked + r.pieces ≤ maxUnlanded then
        let r1 := { r with pk := { r.pk with seq := o.sent } }
        let d1 := (d.modOrder r.ep r.pk.dst (fun o => { o with
          sent := o.sent + BitVec.ofNat 32 r.pieces, unacked := o.unacked + r.pieces, used := d.sync.useClock + 1 })).modSync
            (fun s => { s with useClock := s.useClock + 1 })
        (d1.modLnk (fun l => { l with requests := updWhere (fun q => q.rtag == rtag) (fun _ => r1) l.requests })).launch r1
      else hold d
    | none =>
      let opening (d : Dev) : Dev :=
        (d.modSync (fun s => { s with orders := s.orders ++ [{ ep := r.ep, node := r.pk.dst, used := s.useClock }] })).sendOrder
          tyOpen r.ep r.pk.dst .openEntry
      if (d.sync.orders.filter (fun o => o.ep == r.ep)).length < 64 then opening (hold d)
      else if d.sync.orders.any (fun o => o.ep == r.ep && decide (o.phase = .closing)) then hold d
      else match d.orderVictim r.ep with
        | none => hold d
        | some v =>
          let d1 := (hold (d.modOrder v.ep v.node (fun o => { o with phase := .closing }))).sendOrder tyClose v.ep v.node .closeEntry
          if (d1.order v.ep v.node).isNone then opening d1 else d1

/-- Try again everything that waits for an order-table entry, in order. -/
def Dev.orderPump (d : Dev) : Dev :=
  runAll d.sync.stalled Dev.orderSend (d.modSync (fun s => { s with stalled := [] }))

/-- Issue a request to another part from an endpoint: its tag and the part after. -/
def Dev.request (ep : Nat) (use : ReqFor) (pk : Packet) (d : Dev) : W16 × Dev :=
  let r := d.newReq ep use pk
  (r.1.rtag, if countOf pk.type pk.addr pk.len = 0 then r.2.launch r.1 else r.2.orderSend r.1.rtag)

/-- Requests in their packet forms (13 Table 5). -/
def Dev.pkWrite (d : Dev) (ep node loc : Nat) (data : List Byte) : Packet :=
  mkPacket d (d.vcOf ep) node tyWrite ep loc data.length 0 0 0 data
def Dev.pkRead (d : Dev) (ep node loc len : Nat) : Packet := mkPacket d (d.vcOf ep) node tyRead ep loc len 0 0 0 []
def atomCode : AtomOp → Nat
  | .add => 0 | .swap => 1 | .cas => 2 | .maxu => 3 | .maxs => 4 | .sig => 5
def Dev.pkAtomic (d : Dev) (ep node loc : Nat) (op : AtomOp) (x c : W64) : Packet :=
  match op with
  | .sig => mkPacket d (d.vcOf ep) node tySignal ep loc 8 0 0 5 (leBytes 8 x.toNat)
  | .cas => mkPacket d (d.vcOf ep) node tyAtomic ep loc 16 0 0 2 (leBytes 8 x.toNat ++ leBytes 8 c.toNat)
  | .add | .swap | .maxu | .maxs => mkPacket d (d.vcOf ep) node tyAtomic ep loc 8 0 0 (atomCode op) (leBytes 8 x.toNat)

/-- An answer arrives for an outstanding request (11 R297, R299; 13 R355). -/
def Dev.answered (r : OutReq) (status : Nat) (data : List Byte) (d : Dev) : Dev :=
  if status = stRetry then d.modSync (fun s => { s with retries := s.retries ++ [r.rtag] }) else
  let d1 := d.endReq r status data
  match r.use with
  | .openEntry =>
    if status = stOk then (d1.modOrder r.ep r.pk.dst (fun o => { o with phase := .ready })).orderPump
    else (d1.openFailed r.ep r.pk.dst status).orderPump
  | .closeEntry =>
    (d1.dropOrder r.ep r.pk.dst).orderPump
  | .global _ _ _ | .move _ _ | .mirror _ | .lamb _ | .core _ | .restore | .other => d1.orderPump

end Sys2Proof.Machine
end

