-- ==== Sys2Proof/Machine/SyncOps.lean ====
section
/-! DEFINITION. Operations of synchronisation (11): committing a watch word and testing every waiter on it, watch entries, vanes, and the ledger with its held signals. -/
namespace Sys2Proof.Machine

/-- A condition of `wait.w` (05 R135): 5 to 7 match nothing. -/
def condW (cc : Nat) (w v : W64) : Bool :=
  match cc with
  | 0 => w == v
  | 1 => w != v
  | 2 => decide (0 ≤ ftDiff w v)
  | 3 => w &&& v != 0
  | 4 => w &&& v == 0
  | _ => false

/-- Set a predicate; p0 stays 1 (05 R118). -/
def HalfState.setPred (p : Nat) (b : Bool) (s : HalfState) : HalfState :=
  if p = 0 then s else
  { s with preds := if b then s.preds ||| BitVec.ofNat 8 (2 ^ p) else s.preds &&& ~~~(BitVec.ofNat 8 (2 ^ p)) }

/-- A completed instruction's token signal starts its two cycles (05 R131). -/
def HalfState.signal (sig : Option Nat) (seq pc bank : Nat) (word : W64) (source : Nat) (s : HalfState) : HalfState :=
  match sig with
  | some tok => { s with sigs := s.sigs ++ [{ tok := tok, seq := seq, pc := pc, bank := bank, word := word, source := source }] }
  | none => s

/-- A wait releases (05 R130): issue goes on and the token of the wait is signalled. -/
def HalfState.unwait (s : HalfState) : HalfState :=
  match s.wait with
  | none => s
  | some w => ({ s with wait := none, mode := (if decide (s.mode = HalfMode.wait) then HalfMode.run else s.mode) }).signal w.sig w.seq w.pc w.bank w.word 0

/-- Test a half's `wait.w` against a committed value: of watch word i, or of its doorbell count (05 R135, 11 R302). -/
def HalfState.testWord (db : Bool) (i : Nat) (v : W64) (s : HalfState) : HalfState :=
  match s.wait with
  | some w =>
    match w.what with
    | .word wdb idx cc x _ pd =>
      if wdb == db && (db || idx == i) && condW cc v x then (s.setPred pd true).unwait else s
    | .token _ => s
    | .fence _ _ _ => s
    | .time _ _ _ => s
  | none => s

/-- Test every tile half that waits on a word (11 R302). -/
def Dev.testHalves (i : Nat) (v : W64) (d : Dev) : Dev :=
  { d with tiles := d.tiles.map (fun e => (e.1, { e.2 with h0 := e.2.h0.testWord false i v, h1 := e.2.h1.testWord false i v })) }

/-- Test watch entry n against a value (11 R303): the first match fires it, counts the hit and disarms it. -/
def Dev.testWatch (n i : Nat) (v : W64) (d : Dev) : Dev :=
  let c := d.word (offWatch n)
  if fbit c 31 && fld c 13 0 == i && condW (fld c 16 14) v (d.word64 (offWatch n + 4)) then
    let d1 := (d.setWord (offWatch n) (c &&& 0x7FFFFFFF#32)).modSync (fun s => { s with hits := mapMod 0 s.hits n (· + 1) })
    if n < 32 then d1.emit (.coreIrq n 9) else d1.sendVector (fld c 30 20)
  else d

/-- A vane entry's internal state. -/
def Dev.vane (d : Dev) (n : Nat) : VaneState := mapGet {} d.sync.vanes n
/-- Change a vane entry's internal state. -/
def Dev.modVane (n : Nat) (f : VaneState → VaneState) (d : Dev) : Dev :=
  d.modSync (fun s => { s with vanes := mapMod {} s.vanes n f })
/-- EXPECT and NLIST: other values act as 16 (11 Table 9). -/
def Dev.vaneExpect (d : Dev) (n : Nat) : Nat :=
  let e := fld (d.word (offVane n)) 5 1
  if 1 ≤ e ∧ e ≤ 16 then e else 16
def Dev.vaneNlist (d : Dev) (n : Nat) : Nat := min 16 (fld (d.word (offVane n)) 10 6)
def Dev.vaneParent (d : Dev) (n : Nat) : W64 := d.word64 (offVane n + 0xC)
def Dev.vaneSense (d : Dev) (n : Nat) : Nat := fld (d.word (offVane n + 8)) 13 0
/-- BROKEN in a word (11 R307). -/
def brokenBit : W64 := 0x4000000000000000#64

/-- Queue what a vane has to do. -/
def Dev.vaneDo (l : List VaneAct) (d : Dev) : Dev := d.modSync (fun s => { s with work := s.work ++ l })

/-- The node and local address of a global address (07 R186). -/
def gNode (a : W64) : Nat := a.toNat / 2 ^ 44
def gLoc (a : W64) : Nat := a.toNat % 2 ^ 44

/-- Read bytes of this part's memory by local address, as the part's own hardware does. -/
def Dev.plainRead (loc n : Nat) (d : Dev) : Option (List Byte) × Dev :=
  if tileBase ≤ loc ∧ loc < tileBase + Config.tiles * tileSpan then
    d.tileRead ((loc - tileBase) / tileSpan) ((loc - tileBase) % tileSpan) n
  else if syncBase ≤ loc ∧ loc + n ≤ syncBase + syncSize then
    let ws := runs ((List.range n).map (fun i => (loc + i - syncBase) / 8))
    let d1 := runAll ws Dev.syncMend d
    match ws.find? (fun i => d.mem.badSync.contains i) with
    | some i => (none, d1.syncError true i)
    | none => (some ((List.range n).map (fun i => ((d.sync64 ((loc + i - syncBase) / 8)) >>> (8 * ((loc + i) % 8))).setWidth 8)), d1)
  else
    match hbmKeys loc n with
    | some ks => d.ownRead ks
    | none => (none, d)

/-- The addresses of a release list, in list order; none where they cannot be read (11 R308, R310). -/
def Dev.vaneList (n : Nat) (d : Dev) : Option (List W64) × Dev :=
  let len := d.vaneNlist n
  let r := d.plainRead (gLoc (d.word64 (offVane n + 0x14)) / 64 * 64) (8 * len)
  (r.1.map (fun bs => (List.range len).map (fun i => BitVec.ofNat 64 (leAt bs (8 * i) 8))), r.2)

/-- A vane entry breaks, once (11 R310): bit 62 goes to its SENSE word and every listed word, and 2^62 to its parent's
ARRIVE word. No operation of R140 sets one bit of a word of another part: there, the word is raised to the SENSE word with
bit 62 (DESIGN CHOICE, unsafe, log 12). -/
def Dev.vaneBreakNow (n : Nat) (d : Dev) : Dev :=
  if (d.vane n).broken then d else
  let d1 := (d.modVane n (fun v => { v with broken := true })).setFlag evSyn 3
  let s := d1.vaneSense n
  let v := d1.sync64 s ||| brokenBit
  let r := d1.vaneList n
  let mark (a : W64) : VaneAct := if gNode a = d.node then .brk (gLoc a) else .maxu (gNode a) (gLoc a) v
  let p := r.2.vaneParent n
  r.2.vaneDo ([VaneAct.set s v] ++ ((r.1.getD []).map mark) ++
    (if p = 0 then [] else [VaneAct.add (gNode p) (gLoc p) brokenBit]))

/-- A committed ARRIVE word (11 R308 on_arrive). -/
def Dev.vaneArrive (n : Nat) (v : W64) (d : Dev) : Dev :=
  if (v &&& brokenBit) != 0 then d.vaneBreakNow n else
  let e := d.vaneExpect n
  let f := (d.vane n).fwd
  let k := (v.toNat % 2 ^ 62 - e * f) / e
  if k = 0 then d else
  let d1 := d.modVane n (fun s => { s with fwd := s.fwd + k })
  let p := d1.vaneParent n
  d1.vaneDo ((List.range k).map (fun j =>
    if p = 0 then VaneAct.set (d1.vaneSense n) (BitVec.ofNat 64 (f + j + 1)) else VaneAct.add (gNode p) (gLoc p) 1))

/-- A committed SENSE word (11 R308 on_sense). -/
def Dev.vaneSensed (n : Nat) (v : W64) (d : Dev) : Dev :=
  if (v &&& brokenBit) != 0 then d.vaneBreakNow n else
  let r := d.vaneList n
  match r.1 with
  | none => r.2.vaneBreakNow n
  | some l => r.2.vaneDo (l.map (fun a => VaneAct.maxu (gNode a) (gLoc a) v))

/-- An enabled, unbroken vane entry sees a committed value of a word (11 R308). -/
def Dev.testVane (n i : Nat) (v : W64) (d : Dev) : Dev :=
  if !fbit (d.word (offVane n)) 0 || (d.vane n).broken then d else
  let d1 := if fld (d.word (offVane n + 4)) 13 0 == i then d.vaneArrive n v else d
  if d1.vaneSense n == i && !(d1.vane n).broken then d1.vaneSensed n v else d1

/-- Entries enabled by software among the vanes and armed among the watches: only those whose words were written. -/
def Dev.vaneIds (d : Dev) : List Nat := (List.range Config.vanes).filter (fun n => (mapFind d.regs.words (offVane n)).isSome)
def Dev.watchIds (d : Dev) : List Nat := (List.range Config.watchEntries).filter (fun n => (mapFind d.regs.words (offWatch n)).isSome)

/-- A value is committed to a watch word and tested against every armed waiter (11 R302). -/
def Dev.commitWord (i : Nat) (v : W64) (d : Dev) : Dev :=
  let d1 := d.modSync (fun s => { s with words := mapSet 0 s.words i v })
  let d2 := d1.modMem (fun m => { m with badSync := m.badSync.filter (· != i), weakSync := m.weakSync.filter (· != i) })
  let d3 := runAll d2.watchIds (fun n d => d.testWatch n i v) (d2.testHalves i v)
  runAll d3.vaneIds (fun n d => d.testVane n i v) d3

/-- An uncorrectable watch word that a vane meets breaks its entries (11 R310). -/
def Dev.vaneWordBad (i : Nat) (d : Dev) : Dev :=
  runAll d.vaneIds (fun n d =>
    if fbit (d.word (offVane n)) 0 && (fld (d.word (offVane n + 4)) 13 0 == i || d.vaneSense n == i) then d.vaneBreakNow n else d) d

/-- A word of sync memory or HBM of this part is read and written as one (11 R305): none where it is uncorrectable. -/
def Dev.changeWord (loc : Nat) (f : W64 → W64) (d : Dev) : Option W64 × Dev :=
  if syncBase ≤ loc ∧ loc < syncBase + syncSize then
    let i := (loc - syncBase) / 8
    if d.mem.badSync.contains i then (none, (d.syncError true i).vaneWordBad i)
    else (some (d.sync64 i), (d.syncMend i).commitWord i (f (d.sync64 i)))
  else
    match hbmKeys loc 8 with
    | none => (none, d)
    | some ks =>
      let r := d.ownRead ks
      match r.1 with
      | none => (none, r.2)
      | some bs =>
        let old : W64 := BitVec.ofNat 64 (leNat bs)
        (some old, (r.2.ownWrite ks (leBytes 8 (f old).toNat)).2)

/-- An atomic on a word of sync memory or HBM of this part (05 R140, 11 R305). -/
def Dev.atomPlain (loc : Nat) (op : AtomOp) (x c : W64) (d : Dev) : Option W64 × Dev := d.changeWord loc (fun old => atomNew op old x c)

/-- The endpoint that a vane entry's own signals carry: the sync memory has none of its own in 11 Table 1, and the
command front end's stands for it (log 12). -/
def vaneEp : Nat := 196

/-- One piece of vane work. -/
def Dev.vaneStep (a : VaneAct) (d : Dev) : Dev :=
  match a with
  | .set w v => d.commitWord w v
  | .add node loc v =>
    if node = d.node then (d.atomPlain loc .sig v 0).2 else (d.request vaneEp .other (d.pkAtomic vaneEp node loc .sig v 0)).2
  | .maxu node loc v =>
    if node = d.node then (d.atomPlain loc .maxu v 0).2 else (d.request vaneEp .other (d.pkAtomic vaneEp node loc .maxu v 0)).2
  | .brk loc => (d.changeWord loc (· ||| brokenBit)).2

/-- Whether a piece of vane work has to wait: a forward is a release, so the vanes' earlier writes to other nodes have been
acknowledged before it leaves (11 R308, 05 R141). -/
def Dev.vaneHeld (a : VaneAct) (d : Dev) : Bool :=
  match a with
  | .add node _ _ => d.lnk.requests.any (fun r => r.ep == vaneEp && r.pk.dst != node && countOf r.pk.type r.pk.addr r.pk.len != 0)
  | .set _ _ => false
  | .maxu _ _ _ => false
  | .brk _ => false

/-- Do vane work until none is left or it has to wait, at most n pieces; what is left goes on at the next commit or
answer (log 12). -/
def Dev.vaneRun : Nat → Dev → Dev
  | 0, d => d
  | n + 1, d =>
    match d.sync.work with
    | [] => d
    | a :: rest => if d.vaneHeld a then d else Dev.vaneRun n ((d.modSync (fun s => { s with work := rest })).vaneStep a)

/-- The bound of pieces of vane work that one commit does. -/
def vaneFuel : Nat := 65536

/-- Commit a watch word with everything that follows from it on this part. -/
def Dev.syncPut (i : Nat) (v : W64) (d : Dev) : Dev := (d.commitWord i v).vaneRun vaneFuel

/-! ## The ledger (11 R298, R299, R527) -/

/-- The ledger key of a source. -/
def ledKey (node ep : Nat) : Nat := 256 * node + ep

/-- Whether a signal's count has landed (11 R298). -/
def Dev.landed (d : Dev) (h : HeldSig) : Bool :=
  match mapFind d.sync.ledger (ledKey h.who.node h.who.endpoint) with
  | some l => decide (0 ≤ (l - h.count).toInt)
  | none => true

/-- Advance a source's landed count; without an entry nothing is counted (11 R298, R527). -/
def Dev.land (node ep n : Nat) (d : Dev) : Dev :=
  match mapFind d.sync.ledger (ledKey node ep) with
  | some l => d.modSync (fun s => { s with ledger := mapPut s.ledger (ledKey node ep) (l + BitVec.ofNat 32 n) })
  | none => d

/-- A signal enters the hold buffer (11 R299). -/
def Dev.holdSig (h : HeldSig) (d : Dev) : Dev :=
  d.modSync (fun s => { s with hold := s.hold ++ [h], peak := max s.peak (s.hold.length + s.hostHold.length + 1) })
/-- Entries of the hold buffer in use, of its 256 (11 R299, R301). -/
def SyncState.held (s : SyncState) : Nat := s.hold.length + s.hostHold.length

end Sys2Proof.Machine
end

