-- ==== Sys2Proof/Machine/MemOps.lean ====
section
/-! DEFINITION. An access to this part's memory by local address: ranges, seals, confinement, buckets, tile windows, sync memory and HBM (07 R183-R197, R203-R206, R526; 03 R75, R76; 16 R421). -/
namespace Sys2Proof.Machine

/-- Local statuses beside those of 13 Table 6: an intake operation refused by 08 Table 2, and an access of the running
task to its reserved draught window (03 R70). Both travel as REFUSED. -/
def stIntake : Nat := 7
def stDraught : Nat := 8
/-- The status a response carries. -/
def wireStatus (s : Nat) : Nat := if s = stIntake ∨ s = stDraught then stRefused else s

/-- What an access asks. -/
inductive Want where
  | read | write | atomic
deriving DecidableEq, Repr

/-- Whether a sealed row admits an access (07 R196, R197): a host access acts for the context of its function, which must be
the owner (14 R387, R394; log 27). -/
def sealAdmits (e : SealEntry) (who : Who) : Bool :=
  decide (e.mode = .opened) &&
  match who.kind with
  | .engine => e.access.getLsbD 0 && e.owner == who.owner
  | .peer => e.access.getLsbD 1 && who.sealed
  | .host => e.access.getLsbD 2 && who.ideRun && e.owner == who.owner
  | .ingest => e.access.getLsbD 3

/-- Whether tile t is allotted to context c (12 R319). -/
def Dev.tileAllot (d : Dev) (c t : Nat) : Bool := fbit (d.word (0x101004 + 0x10 * c + 4 * (t / 32))) (t % 32)
/-- The confined contexts to which a tile is allotted. -/
def Dev.tileOwners (d : Dev) (t : Nat) : List Nat :=
  (List.range Config.contexts).filter (fun c => d.confinedCtx c && d.tileAllot c t)

/-- The rows an HBM access touches, each with the stack of its first granule there. -/
def rowsOf (ks : List Nat) : List (Nat × Nat) := (runs (ks.map (· / 1024))).map (fun g => (g / 256, (granOf (g * 1024)).1))

/-- Whether the seals or the confinement of its issuer refuse an access (07 R196, 16 R421 rule 2): the stacks whose sealed
granules refuse it, none where the confinement does. -/
def Dev.rowRefused (d : Dev) (who : Who) (want : Want) (ks : List Nat) : Option (List Nat) :=
  match d.sealedOff (fun e => sealAdmits e who) ks with
  | [] =>
    if decide (who.kind = .engine) && d.confinedCtx who.owner && decide (want ≠ .read) && (rowsOf ks).any (fun r => (d.sealOf r.1).isNone) then some []
    else none
  | l => some l

/-- What an HBM access meets among the buckets (08 R217, R219): through the interleaved view, granule by granule. -/
def Dev.bucketMeets (d : Dev) (a : Nat) (ks : List Nat) : VatHit :=
  if a < hbmSize then
    if (runs (ks.map (· / 8))).any (fun w => decide (d.vatHit (granOf (w * 8)).1 (stackOff (w * 8)) 8 ≠ .none)) then
      (if (runs (ks.map (· / 8))).any (fun w => match d.vatHit (granOf (w * 8)).1 (stackOff (w * 8)) 8 with
          | .intake _ => true | .guarded => false | .none => false) then .intake 4096 else .guarded)
    else .none
  else d.vatHit ((a - stackBase) / stackSpan) ((a - stackBase) % stackSpan) ks.length

/-- Perform an operation on HBM bytes. -/
def Dev.hbmOp (ks : List Nat) (op : MemOp) (d : Dev) : Nat × List Byte × Dev :=
  match op with
  | .read _ =>
    match d.hbmRead ks 0 with
    | (some bs, d1) => (stOk, bs, d1)
    | (none, d1) => (stMemError, [], d1)
  | .write bs =>
    let r := d.hbmWrite ks bs
    (if r.1 then stOk else stMemError, [], r.2)
  | .atomic op x c =>
    match d.hbmRead ks 0 with
    | (none, d1) => (stMemError, [], d1)
    | (some bs, d1) => (stOk, bs, (d1.hbmWrite ks (leBytes 8 (atomNew op (BitVec.ofNat 64 (leNat bs)) x c).toNat)).2)

/-- What an operation wants, and its length. -/
def opWant : MemOp → Want
  | .read _ => .read | .write _ => .write | .atomic _ _ _ => .atomic
def opLen : MemOp → Nat
  | .read n => n | .write bs => bs.length | .atomic _ _ _ => 8

/-- An access to HBM through either view (07 R184, R196, R205, R206; 08 R217, R219). -/
def Dev.hbmAccess (who : Who) (a : Nat) (ks : List Nat) (op : MemOp) (d : Dev) : Nat × List Byte × Dev :=
  match d.rowRefused who (opWant op) ks with
  | some [] => (stRefused, [], d)
  | some l => (stSeal, [], d.sealDeny l)
  | none =>
    let s := (a - stackBase) / stackSpan
    let off := (a - stackBase) % stackSpan
    match d.bucketMeets a ks with
    | .none => d.hbmOp ks op
    | .guarded => if decide (opWant op = .read) then d.hbmOp ks op else (stRefused, [], d)
    | .intake b =>
      if a < hbmSize then (stRefused, [], d) else
      match op with
      | .write bs =>
        let r := d.vatWrite s b off who.node bs
        (if r.1 then stOk else stIntake, [], r.2)
      | .atomic .sig x _ =>
        let r := d.vatSig s b off who.node x
        (if r.1 then stOk else stIntake, leBytes 8 0, r.2)
      | .atomic _ _ _ => (stIntake, [], d.vatRefuse s)
      | .read _ => (stIntake, [], d.vatRefuse s)

/-- The half that a window offset belongs to (03 Table 3): half 0 in normal mode. -/
def TileState.halfAt (t : TileState) (off : Nat) : Nat :=
  if !t.twin then 0 else
  match storeAt off with
  | .mem => off / 0xC00000
  | .acc => (off - winAcc) / 0x200000
  | .bank b => (off - winBank b) / 0x10000
  | .tag => (off - winTags) / 2048
  | .buf => (off - winBuf) / 0x800
  | .reserved => 0

/-- Whether a window offset lies in what a FROZEN half keeps from writes: its tile memory, slots and tags (03 R73). -/
def TileState.frozenAt (t : TileState) (off : Nat) : Bool :=
  decide ((t.half (t.halfAt off)).mode = .frozen) &&
  match storeAt off with
  | .mem => true
  | .acc => true
  | .tag => true
  | .bank _ => false
  | .buf => false
  | .reserved => false

/-- Whether a write at a window offset is taken by its half, where it is not frozen: slots and tags only while IDLE or
STOPPED; the bank that executes never; the window buffer and reserved offsets never (03 R69, R76). -/
def TileState.takes (t : TileState) (off : Nat) : Bool :=
  let h := t.half (t.halfAt off)
  match storeAt off with
  | .mem => true
  | .acc => decide (h.mode = .idle) || decide (h.mode = .stopped)
  | .tag => decide (h.mode = .idle) || decide (h.mode = .stopped)
  | .bank b => h.bank != b
  | .buf => false
  | .reserved => false

/-- The reserved draught window that a range of tile memory meets, for the running task of a half (03 R70). -/
def HalfState.reserved (s : HalfState) (off n : Nat) : Option (Nat × Nat) := s.resv.find? (fun x => meets off n x.1 x.2)

/-- Whether an access of a running half meets its own reserved draught window (03 R70). -/
def Dev.draughtHit (d : Dev) (who : Who) (t off n : Nat) : Bool :=
  decide (who.kind = .engine) && decide (who.node = d.node) && (who.endpoint / 2 == t) && decide (who.endpoint < 136) &&
  ((d.half t (who.endpoint % 2)).reserved off n).isSome

/-- Whether an access of a twin half to n bytes of its own tile's window meets the other half's part, but for reads of
accumulator memory (07 R192). Reserved offsets are no half's. -/
def TileState.crosses (t : TileState) (h off n : Nat) (want : Want) : Bool :=
  t.twin && (List.range n).any (fun i =>
    decide (storeAt (off + i) ≠ .reserved) && t.halfAt (off + i) != h && !(decide (want = .read) && decide (storeAt (off + i) = .acc)))

/-- Whether an access of n bytes to a tile window is refused by 07 R192 or 16 R421 rule 4. -/
def Dev.winRefused (d : Dev) (who : Who) (t off n : Nat) (want : Want) : Bool :=
  let own := decide (who.kind = .engine) && decide (who.node = d.node) && (who.endpoint / 2 == t) && decide (who.endpoint < 136)
  let owners := d.tileOwners t
  (own && (d.tile t).crosses (who.endpoint % 2) off n want) || (!owners.isEmpty && !owners.contains who.owner) ||
    (decide (who.kind = .engine) && d.confinedCtx who.owner && decide (want ≠ .read) && !d.tileAllot who.owner t)

/-- The runs of bytes whose offsets satisfy a test, each with its first offset. -/
def takenRuns (ok : Nat → Bool) : Nat → List Byte → List (Nat × List Byte)
  | _, [] => []
  | off, b :: bs =>
    let r := takenRuns ok (off + 1) bs
    if ok off then
      match r with
      | [] => [(off, [b])]
      | (o, l) :: rest => if o = off + 1 then (off, b :: l) :: rest else (off, [b]) :: r
    else r

/-- Write runs of bytes to a tile's stores; false where some word was not written. -/
def Dev.tileWrites (t : Nat) : List (Nat × List Byte) → Dev → Bool × Dev
  | [], d => (true, d)
  | (o, bs) :: rest, d =>
    let r := d.tileWrite t o bs
    let q := Dev.tileWrites t rest r.2
    (r.1 && q.1, q.2)

/-- Whether a window offset lies in the bank that its half executes. -/
def TileState.executes (t : TileState) (off : Nat) : Bool :=
  match storeAt off with
  | .bank b => (t.half (t.halfAt off)).bank == b
  | .mem => false
  | .acc => false
  | .tag => false
  | .buf => false
  | .reserved => false

/-- A write through a tile window: refused whole where it meets what a frozen half keeps; otherwise each byte goes where
its store takes it, and a write to an executing bank is ignored and logged (03 R69, R73, R76; 19 Table 3 KIND 4). -/
def Dev.winWrite (t off : Nat) (bs : List Byte) (d : Dev) : Nat × List Byte × Dev :=
  let ts := d.tile t
  let offs := (List.range bs.length).map (fun i => off + i)
  if offs.any ts.frozenAt then (stFrozen, [], d) else
  let r := d.tileWrites t (takenRuns ts.takes off bs)
  let d1 := match offs.find? ts.executes with
    | some o => r.2.note 4 4 t (winAddr t o) 0 []
    | none => r.2
  (if r.1 then stOk else stMemError, [], d1)

/-- An access to a tile window (03 R75, R76; 07 R184, R192). -/
def Dev.winAccess (who : Who) (t off : Nat) (op : MemOp) (d : Dev) : Nat × List Byte × Dev :=
  let n := opLen op
  if tileSpan < off + n ∨ d.winRefused who t off n (opWant op) = true then (stRefused, [], d)
  else if d.draughtHit who t off n then (stDraught, [], d)
  else
    match op with
    | .read _ =>
      match d.tileRead t off n with
      | (some bs, d1) => (stOk, bs, d1)
      | (none, d1) => (stMemError, [], d1)
    | .write bs => d.winWrite t off bs
    | .atomic _ _ _ => (stRefused, [], d)

/-- Write watch words one at a time (07 R193, 11 R302). -/
def Dev.syncPuts (i : Nat) : List W64 → Dev → Dev
  | [], d => d
  | v :: vs, d => Dev.syncPuts (i + 1) vs (d.syncPut i v)

/-- The 64-bit words of a byte string. -/
def wordsOf (bs : List Byte) : List W64 := (List.range (bs.length / 8)).map (fun i => BitVec.ofNat 64 (leAt bs (8 * i) 8))

/-- An access to sync memory (07 R193): aligned words only. -/
def Dev.syncAccess (off : Nat) (op : MemOp) (d : Dev) : Nat × List Byte × Dev :=
  let n := opLen op
  if off % 8 ≠ 0 ∨ n % 8 ≠ 0 ∨ n = 0 ∨ syncSize < off + n then (stRefused, [], d) else
  match op with
  | .read _ =>
    let d1 := runAll (List.range (n / 8)) (fun i d => d.syncMend (off / 8 + i)) d
    match (List.range (n / 8)).find? (fun i => d.mem.badSync.contains (off / 8 + i)) with
    | some i => (stMemError, [], d1.syncError true (off / 8 + i))
    | none => (stOk, (List.range (n / 8)).flatMap (fun i => leBytes 8 (d.sync64 (off / 8 + i)).toNat), d1)
  | .write bs => (stOk, [], d.syncPuts (off / 8) (wordsOf bs))
  | .atomic op x c =>
    let r := d.atomPlain (syncBase + off) op x c
    match r.1 with
    | some old => (stOk, leBytes 8 old.toNat, r.2.vaneRun vaneFuel)
    | none => (stMemError, [], r.2.vaneRun vaneFuel)

/-- An access to this part's memory by local address: its status, the bytes it returns, and the part after (07 R184). -/
def Dev.memAccess (who : Who) (a : Nat) (op : MemOp) (d : Dev) : Nat × List Byte × Dev :=
  if decide (opWant op = .atomic) && a % 8 != 0 then (stRefused, [], d)
  else
    match hbmKeys a (opLen op) with
    | some ks => d.hbmAccess who a ks op
    | none =>
      if tileBase ≤ a ∧ a < tileBase + Config.tiles * tileSpan then
        d.winAccess who ((a - tileBase) / tileSpan) ((a - tileBase) % tileSpan) op
      else if syncBase ≤ a ∧ a < syncBase + syncSize then d.syncAccess (a - syncBase) op
      else (stRefused, [], d)

/-- The agent that a tile half is (07 R196, 11 R294). -/
def Dev.halfWho (d : Dev) (t h : Nat) : Who :=
  { kind := .engine, node := d.node, endpoint := 2 * t + h, owner := (d.half t h).owner }

/-- Add an element to a list that holds no repeats. -/
def addNew (x : Nat) (l : List Nat) : List Nat := if l.contains x then l else x :: l

/-- A correctable or an uncorrectable upset of one word of a tile's stores (07 R203, R526): the window buffer has parity
alone, which corrects nothing. -/
def TileState.upset (off : Nat) (ue : Bool) (t : TileState) : TileState :=
  let w := (protWord off).1
  if storeAt off = .reserved then t
  else if ue || decide (storeAt off = .buf) then { t with bad := addNew w t.bad, weak := t.weak.filter (· != w) }
  else if t.bad.contains w then t else { t with weak := addNew w t.weak }

/-- What a hardware upset leaves at a local address until a read of the word, or a scrub, finds it (07 R203, R204), or in
a weight stage. -/
def Dev.upsetAt (a : Nat) (ue : Bool) (d : Dev) : Dev :=
  match hbmKeys a 1 with
  | some [k] =>
    d.modMem (fun m =>
      if ue then { m with bad := addNew (k / 64) m.bad, weak := m.weak.filter (· != k / 64) }
      else if m.bad.contains (k / 64) then m else { m with weak := addNew (k / 64) m.weak })
  | _ =>
    if tileBase ≤ a ∧ a < tileBase + Config.tiles * tileSpan then
      d.modTile ((a - tileBase) / tileSpan) (TileState.upset ((a - tileBase) % tileSpan) ue)
    else if syncBase ≤ a ∧ a < syncBase + syncSize then
      let i := (a - syncBase) / 8
      d.modMem (fun m =>
        if ue then { m with badSync := addNew i m.badSync, weakSync := m.weakSync.filter (· != i) }
        else if m.badSync.contains i then m else { m with weakSync := addNew i m.weakSync })
    else d

/-- A hardware upset (07 R203). -/
def Dev.upset (a : Nat) (ecc : Ecc) (d : Dev) : Dev :=
  match ecc with
  | .clean => d
  | .corrected => d.upsetAt a false
  | .uncorrectable => d.upsetAt a true
  | .stageParity t lane =>
    if decide (t < Config.tiles) && decide (lane < 1024) then d.modTile t (fun u => { u with badLanes := addNew lane u.badLanes }) else d

/-! ## Accesses that wait (07 R210) -/

/-- Whether some stack is under soft post-package repair. -/
def Dev.repairing (d : Dev) : Bool := d.mem.hbmStacks.any (fun e => (List.range 32).any e.2.repairs)

/-- Do what a command asks, unless an access of it meets a pseudo-channel under repair: then `wait` says what stands in its
place until the repair ends. -/
def Dev.orWait (wait f : Dev → Dev) (d : Dev) : Dev := if d.repairing && (f d).mem.stall then wait d else f d

/-- A command of a unit that reaches memory: while a repair holds one of its accesses it does nothing, and its event comes
again when the repair has ended (07 R210, log 14). -/
def performMem (wf : Bool) (s : State) (f : Life → Dev → Dev) : Result := perform wf s (fun l d => d.orWait id (f l))

end Sys2Proof.Machine
end

