-- ==== Sys2Proof/Machine/Operands.lean ====
section
/-! DEFINITION. The fields of an Alanko instruction word and the encodings that are illegal whatever the state (05 R113-R117, 06 R149-R151). -/
namespace Sys2Proof.Machine

/-- Bits [hi:lo] of an instruction word. -/
def bw (w : W64) (hi lo : Nat) : Nat := bitsN w.toNat hi lo

/-! The header (05 Table 1). -/
def opc (w : W64) : Nat := bw w 63 57
def fPN (w : W64) : Bool := w.getLsbD 56
def fPG (w : W64) : Nat := bw w 55 53
def fWV (w : W64) : Bool := w.getLsbD 52
def fWT (w : W64) : Nat := bw w 51 47
def fSV (w : W64) : Bool := w.getLsbD 46
def fST (w : W64) : Nat := bw w 45 41

/-! The operand area (05 Table 2, 06 Table 1). -/
def fA (w : W64) : Nat := bw w 40 36
def fB (w : W64) : Nat := bw w 35 31
def fC (w : W64) : Nat := bw w 30 26
def fD (w : W64) : Nat := bw w 25 21
def fE (w : W64) : Nat := bw w 20 16
def fFN (w : W64) : Nat := bw w 15 0
/-- The sign-extended IMM31 of format I. -/
def imm31 (w : W64) : W64 := BitVec.ofInt 64 (signedN 31 (bw w 30 0))
def fFN4 (w : W64) : Nat := bw w 35 32
def imm32 (w : W64) : Nat := bw w 31 0
def fCC (w : W64) : Nat := bw w 30 27
/-- The sign-extended IMM27 of format C. -/
def imm27 (w : W64) : W64 := BitVec.ofInt 64 (signedN 27 (bw w 26 0))
def fTarget (w : W64) : Nat := bw w 13 0

/-- The token signalled on completion, if any. -/
def sigOf (w : W64) : Option Nat := if fSV w then some (fST w) else none

/-- Whether an opcode is reserved (05 Table 3, 06 Tables 2 and 6). -/
def reservedOpc (o : Nat) : Bool :=
  (decide (0x16 ≤ o) && decide (o ≤ 0x1F)) || (decide (0x24 ≤ o) && decide (o ≤ 0x3F)) ||
  (decide (0x48 ≤ o) && decide (o ≤ 0x5F)) || decide (0x6F ≤ o)

/-- A predicate named in a five-bit field: its top two bits are reserved (05 R117). -/
def predBad (n : Nat) : Bool := decide (8 ≤ n)

/-- A field that must be zero. -/
def nz (n : Nat) : Bool := n != 0

/-- Registers of a count code: 1, 2 or 4 (06 R178). -/
def cntRegs (c : Nat) : Nat := if c = 0 then 1 else if c = 1 then 2 else 4

/-- Encodings of the control opcodes that are illegal (05 R116, R117, R122-R128, R133-R144); a field that some form of the
instruction uses is not reserved in its other forms (log 28). -/
def badControl (w : W64) : Bool :=
  match opc w with
  | 0x00 => nz (bw w 40 0)
  | 0x01 => nz (fE w) || nz (bw w 15 5) || decide (15 < bw w 4 0) || (if bw w 4 0 = 15 then predBad (fD w) else nz (fD w))
  | 0x06 => decide (2 < fFN4 w) || nz (imm32 w / 64)
  | 0x07 => decide (1 < fFN4 w)
  | 0x0A => predBad (fA w) || nz (fD w) || nz (fE w) || nz (bw w 15 4) || decide (11 < bw w 3 0)
  | 0x0B => predBad (fA w) || decide (11 < fCC w)
  | 0x0C => predBad (fA w) || predBad (fB w) || predBad (fC w) || nz (fD w) || nz (fE w) || decide (4 < fFN w)
  | 0x0D => nz (fA w) || nz (bw w 35 14)
  | 0x0E => fA w == 0 || nz (bw w 35 14)
  | 0x0F => nz (fA w) || nz (fC w) || nz (fD w) || nz (fE w) || nz (fFN w)
  | 0x10 => nz (fFN4 w) || decide (9 < imm32 w)
  | 0x11 => nz (fA w) || decide (1 < fFN4 w)
  | 0x12 => nz (fA w) || decide (2 < fFN4 w) || nz (imm32 w)
  | 0x13 => nz (fA w) || nz (fC w) || nz (fD w) || nz (fE w) || nz (bw w 15 2)
  | 0x14 => predBad (fA w) || nz (fE w) || nz (bw w 15 4) || decide (4 < bw w 2 0)
  | 0x15 => nz (fA w) || nz (fFN4 w) || nz (bw w 31 16) || fWV w || fSV w || nz (fWT w) || nz (fST w)
  | 0x20 => nz (fA w) || nz (fC w) || nz (fD w) || nz (fE w) || nz (bw w 15 3)
  | 0x21 => nz (fC w) || nz (fD w) || nz (fE w) || nz (bw w 15 2)
  | 0x22 => nz (fA w) || nz (fD w) || nz (fE w) || nz (bw w 15 2)
  | 0x23 => nz (fE w) || nz (bw w 15 4) || decide (5 < bw w 2 0)
  | _ => false

/-- Encodings of the array opcodes that are illegal (06 R149, R151, R157, R158, R163). -/
def badArray (w : W64) : Bool :=
  match opc w with
  | 0x46 => nz (bw w 35 16) || nz (bw w 15 7)
  | 0x47 => nz (fB w) || nz (bw w 0 0) || nz (bw w 2 2) || nz (bw w 6 3) || nz (bw w 15 11) || nz (fE w)
  | 0x44 => nz (bw w 15 11)
  | 0x45 => nz (bw w 15 14) || nz (fE w)
  | _ => nz (bw w 15 11) || nz (fE w)

/-- Encodings of the vector opcodes that are illegal (06 R149, R168-R180). GS = 1 with a target format that has no scales is
accepted and has no effect (DESIGN CHOICE, unsafe, log 16). -/
def badVector (w : W64) : Bool :=
  nz (fE w) ||
  match opc w with
  | 0x60 => decide (10 < bw w 3 0) || nz (bw w 15 5) || (bw w 3 0 != 3 && nz (fD w))
  | 0x61 => nz (fC w) || nz (fD w) || decide (8 < fFN w)
  | 0x62 => nz (fD w) || decide (5 < bw w 2 0) || nz (bw w 3 3) || nz (bw w 15 5)
  | 0x63 => nz (fFN w)
  | 0x64 => nz (fD w) || decide (2 < fFN w) || (fFN w == 0 && nz (fC w))
  | 0x65 => nz (fC w) || nz (fD w) || nz (bw w 5 4) || nz (bw w 15 7)
  | 0x66 => nz (bw w 15 8) || bw w 5 4 == 3 || (bw w 7 7 == 0 && nz (fD w)) || (bw w 5 4 != 2 && nz (fC w))
  | 0x67 => nz (fA w % 4) || nz (fC w) || nz (fD w) || nz (bw w 5 0) || nz (bw w 15 7)
  | 0x68 => nz (fB w % 4) || nz (fC w) || nz (fD w) || nz (fFN w)
  | 0x69 => nz (bw w 15 8) || bw w 5 4 == 3 || (bw w 7 7 == 0 && nz (fD w)) || (bw w 5 4 != 2 && nz (fC w))
  | 0x6A => nz (fA w % 4) || nz (fC w % 4) || nz (fFN w)
  | 0x6B => nz (fC w) || nz (fD w) || nz (fFN w)
  | 0x6C => nz (fC w) || nz (fD w) || nz (bw w 15 5) || bw w 3 2 == 3 || decide (1 < bw w 1 0) || nz (fB w % cntRegs (bw w 3 2))
  | 0x6D => nz (fC w) || nz (fD w) || nz (bw w 15 5) || nz (bw w 1 0) || bw w 3 2 == 3 || nz (fB w % cntRegs (bw w 3 2))
  | 0x6E => nz (bw w 15 9) || (if bw w 8 8 = 0 then nz (fC w) || nz (fD w) else nz (fC w % 4))
  | _ => false

/-- Encodings that raise ILLEGAL whatever the state (05 R116). -/
def badFields (w : W64) : Bool :=
  if reservedOpc (opc w) then true
  else if opc w < 0x40 then badControl w
  else if opc w < 0x60 then badArray w
  else badVector w

/-- Tokens and branch targets that a twin half may not name (05 R116, R117, R133, R143): a token field that has no effect
is ignored. -/
def badTwin (w : W64) : Bool :=
  (fWV w && decide (15 < fWT w)) || (fSV w && decide (15 < fST w)) ||
  (decide (opc w = 0x0D ∨ opc w = 0x0E) && decide (8191 < fTarget w)) ||
  (opc w == 0x11 && nz (bw w 31 16)) || (opc w == 0x20 && decide (3 < bw w 2 0))

end Sys2Proof.Machine
end

