-- ==== Sys2Proof/Machine/TileOps.lean ====
section
/-! DEFINITION. Operations of a tile half (03, 05): registers, faults, the checks at issue, and issue into the scalar unit or a queue. -/
namespace Sys2Proof.Machine

/-- A scalar register: s0 reads zero (05 R118). -/
def HalfState.reg (s : HalfState) (n : Nat) : W64 := if n = 0 then 0 else mapGet 0 s.sregs n
/-- Write a scalar register: writes to s0 are ignored (05 R118). -/
def HalfState.setReg (n : Nat) (v : W64) (s : HalfState) : HalfState :=
  if n = 0 then s else { s with sregs := mapSet 0 s.sregs n v }
/-- A predicate: p0 reads 1 (05 R118). -/
def HalfState.pred (s : HalfState) (p : Nat) : Bool := p == 0 || s.preds.getLsbD p
/-- A lane of a vector register. -/
def HalfState.lane (s : HalfState) (v l : Nat) : W32 := mapGet 0 s.vregs (64 * v + l)
/-- Write lanes of vector registers from v up. -/
def HalfState.setLanes (v : Nat) (xs : List W32) (s : HalfState) : HalfState :=
  { s with vregs := xs.zipIdx.foldl (fun m e => mapSet 0 m (64 * v + e.2) e.1) s.vregs }
/-- The lanes of n registers from v up. -/
def HalfState.lanes (s : HalfState) (v n : Nat) : List W32 := (List.range (64 * n)).map (fun i => s.lane v i)
/-- A token count. -/
def HalfState.token (s : HalfState) (k : Nat) : Nat := mapGet 0 s.tokens k
/-- Lower a token count by one. -/
def HalfState.takeToken (k : Nat) (s : HalfState) : HalfState := { s with tokens := mapSet 0 s.tokens k (s.token k - 1) }

/-- Lower the token an instruction waits on. -/
def HalfState.takeWait (w : W64) (s : HalfState) : HalfState := if fWV w then s.takeToken (fWT w) else s
/-- The tokens a mask names. -/
def maskTokens (m : W32) : List Nat := (List.range 32).filter (fun i => m.getLsbD i)

/-- Whether every token of a mask has a count. -/
def HalfState.haveTokens (s : HalfState) (m : W32) : Bool := (maskTokens m).all (fun k => decide (1 ≤ s.token k))
/-- Lower every token of a mask. -/
def HalfState.takeTokens (m : W32) (s : HalfState) : HalfState := (maskTokens m).foldl (fun s k => s.takeToken k) s

/-- Whether an instruction's token wait is met (05 R129). -/
def HalfState.waitMet (w : W64) (s : HalfState) : Bool := !fWV w || decide (1 ≤ s.token (fWT w))

/-- The base and the size of a half's tile memory (03 Table 3). -/
def TileState.base (t : TileState) (h : Nat) : Nat := if t.twin then 0xC00000 * h else 0
def TileState.limit (t : TileState) : Nat := if t.twin then 0xC00000 else 0x1800000
/-- The slots of a half, and the physical slot of its first. -/
def TileState.slots (t : TileState) : Nat := if t.twin then 2048 else 4096
def TileState.slotBase (t : TileState) (h : Nat) : Nat := if t.twin then 2048 * h else 0
/-- The highest instruction index of a half's bank. -/
def TileState.pcMax (t : TileState) : Nat := if t.twin then 8191 else 16383

/-- The fault of a range of a half's tile memory: outside it, or in the reserved draught window (03 R70, 06 R154). -/
def Dev.rangeFault (d : Dev) (t h off n : Nat) : Option Nat :=
  if (d.tile t).limit < off + n then some fltMemRange
  else if ((d.half t h).reserved ((d.tile t).base h + off) n).isSome then some fltDraught
  else none

/-- A stop or a fault ends a descriptor that runs (03 R73, R74; 07 R200): of the data still to come it writes that of the
4 KiB in hand. -/
def MvEntry.endHere (e : MvEntry) : MvEntry :=
  match e.reads with
  | [] => e
  | r :: _ =>
    let at' := (e.reads.foldl (fun m x => min m x.off) r.off) / 4096
    let keep := e.reads.filter (fun x => x.off / 4096 == at')
    { e with reads := keep, cut := e.cut || decide (keep.length < e.reads.length) }
/-- The same for every descriptor of a half. -/
def TileState.endMoves (h : Nat) (t : TileState) : TileState :=
  { t with chans := t.chans.map (fun c => (c.1, c.2.map (fun e => if e.half == h then e.endHere else e))) }

/-- A half detects a fault (05 R145, R146): its class bit is set, the record names the earliest in program order, and its
descriptors end where they stand. -/
def Dev.raise (t h : Nat) (f : FaultInfo) (d : Dev) : Dev :=
  let s := d.half t h
  if s.mode = .frozen then d else
  let f' := match s.fault with
    | none => { f with time := d.ft.now }
    | some g => if f.seq < g.seq then { f with time := d.ft.now, more := true } else { g with more := true }
  ((d.modTile t (TileState.endMoves h)).modHalf t h (fun s => { s with
    fault := some f'
    faultPc := BitVec.ofNat 32 (f'.pc % 16384 + 16384 * f'.bank + 32768) })).setFlag (evTil t h) f.cls

/-- A precise fault of the instruction at the PC (05 R145). -/
def Dev.raiseHere (t h : Nat) (w : W64) (cls : Nat) (detail : W64) (d : Dev) : Dev :=
  let s := d.half t h
  d.raise t h { cls := cls, source := 0, channel := 0, seq := s.nextSeq, pc := s.pc, bank := s.bank, word := w, detail := detail, time := 0, precise := true }

/-- An imprecise fault of a queued instruction (05 R146): source 1 array, 2 vector. -/
def Dev.raiseQueued (t h : Nat) (e : QEntry) (source cls : Nat) (detail : W64) (d : Dev) : Dev :=
  d.raise t h { cls := cls, source := source, channel := 0, seq := e.seq, pc := e.pc, bank := e.bank, word := e.word, detail := detail, time := 0, precise := false }

/-- A precise fault is taken once every earlier operation of the scalar unit has completed; until then the instruction is
held (05 R145). `found` logs what its read met. -/
def Dev.faultHere (t h : Nat) (w : W64) (found : Dev → Dev) (cls : Nat) (detail : W64) (d : Dev) : Dev :=
  if (d.half t h).globs.any (fun g => !g.ofMove) then d else (found d).raiseHere t h w cls detail

/-- The signals of a token on their way. -/
def HalfState.coming (s : HalfState) (k : Nat) : Nat := (s.sigs.filter (fun p => p.tok == k)).length
/-- Whether one more signal of a token would take its count above 255 (05 R132), the signals on their way counted. -/
def HalfState.tokFull (s : HalfState) (k : Nat) : Bool := decide (255 ≤ s.token k + s.coming k)
/-- Whether a signal on its way from the scalar unit would take its count above 255. -/
def HalfState.sigDoomed (s : HalfState) : Bool :=
  s.sigs.any (fun p => p.source == 0 && decide (255 < s.token p.tok + s.coming p.tok))

/-- Whether a half may issue: running, not lulled, and no wait, fault, halt, end or overflowing signal holds it. -/
def Dev.mayIssue (d : Dev) (t h : Nat) : Bool :=
  let s := d.half t h
  decide (s.mode = .run) && !(d.tile t).lulled && s.wait.isNone && s.fault.isNone && !s.halting && s.ended.isNone && !s.sigDoomed

/-- The window offset of the instruction at a half's PC: twin half h uses the half of each bank at 64 KiB × h (03 Table 3). -/
def Dev.fetchOff (d : Dev) (t h : Nat) : Nat :=
  winBank (d.half t h).bank + (if (d.tile t).twin then 0x10000 * h else 0) + 8 * (d.half t h).pc

/-- The scalar register that a queued vector instruction writes, if any (06 R172, R175). -/
def vecWrites (w : W64) : Option Nat :=
  match opc w with
  | 0x62 => some (fA w)
  | 0x64 => if fFN w = 2 then some (fA w) else none
  | 0x6B => some (fA w)
  | _ => none

/-- Whether a scalar register has a write still to come: a queued vector instruction not yet started, or a load or
atomic not yet returned (05 R120). -/
def HalfState.busyReg (s : HalfState) (n : Nat) : Bool :=
  n != 0 && (s.vq.any (fun e => e.go && !e.started && vecWrites e.word == some n) ||
    s.globs.any (fun g => !g.ofMove && g.dst == n && (match g.kind with
      | .load _ => true
      | .atom _ => true
      | .store _ => false)))

/-- The checks of a fetched word before anything else (05 R116; 07 R205): the fault it raises, if any. -/
def Dev.fetchFault (d : Dev) (t h : Nat) (w : W64) : Option (Nat × W64) :=
  if (d.tile t).pcMax < (d.half t h).pc then some (fltIllegal, 0)
  else if ((d.tile t).badIn (d.fetchOff t h) 8).isSome then some (fltMemError, winAddr t (d.fetchOff t h))
  else if badFields w || ((d.tile t).twin && badTwin w) then some (fltIllegal, 0)
  else none

/-- A fetch finds the correctable error of its word (07 R204). -/
def Dev.fetchMend (t h : Nat) (d : Dev) : Dev :=
  if (d.tile t).pcMax < (d.half t h).pc then d else d.tileMend t (d.fetchOff t h) 8

/-- A fault of the fetch: an uncorrectable word is logged (07 R204). -/
def Dev.fetchRaise (t h : Nat) (w : W64) (f : Nat × W64) (d : Dev) : Dev :=
  d.faultHere t h w (fun d => if f.1 = fltMemError then d.tileError true t 3 f.2 else d) f.1 f.2

/-- Move on to the next instruction. -/
def HalfState.nextPc (s : HalfState) : HalfState := { s with pc := s.pc + 1, nextSeq := s.nextSeq + 1 }

/-- Whether an instruction's guard holds (05 R115). -/
def HalfState.guard (s : HalfState) (w : W64) : Bool := s.pred (fPG w) != fPN w

/-- The completion of an instruction of the scalar unit that completes as it issues: its token is signalled. -/
def HalfState.done (w : W64) (s : HalfState) : HalfState := (s.signal (sigOf w) s.nextSeq s.pc s.bank w 0).nextPc

/-- A scalar read met an uncorrectable word of tile memory or of sync memory, which is logged (07 R204). -/
def Dev.noteRead (t h : Nat) (a : W64) (d : Dev) : Dev :=
  if a.toNat < 0x1800000 then d.tileError true t 0 (winAddr t ((d.tile t).base h + a.toNat))
  else d.syncError true ((a.toNat - syncBase) / 8)

/-- Whether an instruction of the scalar unit whose guard holds completes as it issues, and so signals its token then: a
global operation completes when it is answered, a wait when it releases, and `end` never (05 Table 7). -/
def signalsAtIssue (w : W64) : Bool :=
  !(decide (0x21 ≤ opc w) && decide (opc w ≤ 0x23)) && !(opc w == 0x11 && fFN4 w == 1) && !(decide (0x12 ≤ opc w) && decide (opc w ≤ 0x15))

/-- Issue in the scalar unit (05 R115, R116, R120, R129, R130, R132, R145). `regs` are the scalar registers the instruction
reads or writes; `illegal` its operand-value check; `fault` its precise faults once its guard holds; `eff` its effect,
which also moves the PC. A held issue changes nothing. -/
def Dev.issueScalar (t h : Nat) (w : W64) (regs : List Nat) (illegal : HalfState → Bool)
    (fault : Dev → HalfState → Option (Nat × W64)) (eff : Dev → Dev) (d : Dev) : Dev :=
  let s := d.half t h
  if !d.mayIssue t h then d else
  let d := d.fetchMend t h
  match d.fetchFault t h w with
  | some f => d.fetchRaise t h w f
  | none =>
    if regs.any s.busyReg then d
    else if illegal s then d.faultHere t h w id fltIllegal 0
    else if !s.waitMet w then d
    else if fSV w && (signalsAtIssue w || !s.guard w) && (s.takeWait w).tokFull (fST w) then d.faultHere t h w id fltIllegal 0
    else if s.guard w then
      match fault d s with
      | some f => d.faultHere t h w (fun d => if f.1 = fltMemError then d.noteRead t h f.2 else d) f.1 f.2
      | none => eff (d.modHalf t h (HalfState.takeWait w))
    else d.modHalf t h (fun s => (s.takeWait w).done w)

/-- An effect on the half's registers alone, after which the instruction is complete. -/
def Dev.regEffect (t h : Nat) (w : W64) (f : HalfState → HalfState) (d : Dev) : Dev :=
  d.modHalf t h (fun s => (f s).done w)

/-- The entries of a queue, and its depth (03 Table 2). -/
def HalfState.queue? (s : HalfState) : QueueId → List QEntry
  | .array => s.aq | .vector => s.vq | .movement => s.mq
def HalfState.putQueue (q : QueueId) (l : List QEntry) (s : HalfState) : HalfState :=
  match q with
  | .array => { s with aq := l }
  | .vector => { s with vq := l }
  | .movement => { s with mq := l }
def queueDepth : QueueId → Nat
  | .array => 16 | .vector => 32 | .movement => 32

/-- The scalar operands an entry takes at issue (05 R120). -/
def HalfState.capture (s : HalfState) (w : W64) : List W64 :=
  [s.reg (fA w), s.reg (fB w), s.reg (fC w), s.reg (fD w), s.reg (fE w), s.reg 30, s.reg 31]

/-- Operand i of an entry: 0 to 4 for s[A] to s[D] and the register of bits [20:16], 5 and 6 for s30 and s31. -/
def QEntry.op (e : QEntry) (i : Nat) : W64 := listGet 0 e.ops i

/-- The entry an instruction leaves in its queue. -/
def HalfState.entry (s : HalfState) (w : W64) : QEntry :=
  { seq := s.nextSeq, pc := s.pc, bank := s.bank, word := w, go := s.guard w, ops := s.capture w }

/-- Issue into a queue (05 R120, R130, R145, R148): as in the scalar unit, but the token wait is the queue's; a full
queue holds issue. `upd` is what issue itself changes when the guard holds. -/
def Dev.issueQueue (t h : Nat) (w : W64) (q : QueueId) (regs : List Nat) (fault : Dev → HalfState → QEntry → Option (Nat × W64))
    (upd : QEntry → HalfState → HalfState) (d : Dev) : Dev :=
  let s := d.half t h
  if !d.mayIssue t h then d else
  let d := d.fetchMend t h
  match d.fetchFault t h w with
  | some f => d.fetchRaise t h w f
  | none =>
    if regs.any s.busyReg then d
    else
      let e := s.entry w
      match (if e.go then fault d s e else none) with
      | some f => d.faultHere t h w id f.1 f.2
      | none =>
        if queueDepth q ≤ (s.queue? q).length then d
        else d.modHalf t h (fun s => (((if e.go then upd e s else s).putQueue q (s.queue? q ++ [e]))).nextPc)

end Sys2Proof.Machine
end

