-- ==== Sys2Proof/Machine/ArrayOps.lean ====
section
/-! DEFINITION. What array instructions do (03 R48-R58, R74; 04 R90-R107; 06 R150-R167): shapes, sources, the fold, slot additions and rescale. -/
namespace Sys2Proof.Machine

/-- Depth of a format code (06 Table 3); 0 where the code is reserved. -/
def codeDepth (c : Nat) : Nat :=
  if c = 0 then 256 else if c ≤ 5 then 128 else if c ≤ 8 then 64 else if c = 9 then 1024 else 0
/-- Bytes of a K-chunk (06 Table 3). -/
def codeChunk (c : Nat) : Nat := if c = 1 ∨ c = 2 then 96 else if c = 8 then 256 else 128
/-- Whether a code has block scales. -/
def codeMx (c : Nat) : Bool := decide (c ≤ 5)

/-- The parameters of an array instruction in format AM (06 R151-R153). -/
structure AParams where
  opc   : Nat
  m     : Nat
  n     : Nat
  k     : Nat
  s     : Nat
  clr   : Bool
  reuse : Bool
  win   : Bool
  af    : Nat
  wfc   : Nat
  mode  : Nat
  sh    : W64
  ar    : W64
  wr    : W64
  ds    : W64
  xr    : W64
  wcols : Nat
deriving DecidableEq, Repr

/-- The parameters an entry names; `wld` takes the format of its weights for both (06 R157), and REUSE as every instruction
does (R156). -/
def aParams (twin : Bool) (e : QEntry) : AParams :=
  let w := e.word
  let sh := e.op 0
  { opc := opc w
    m := bitsN sh.toNat 11 0 + 1
    n := bitsN sh.toNat 29 16 + 1
    k := bitsN sh.toNat 47 32 + 1
    s := bitsN sh.toNat 59 48
    clr := bw w 0 0 == 1
    reuse := bw w 1 1 == 1
    win := bw w 2 2 == 1
    af := if opc w = 0x47 then bw w 10 7 else bw w 6 3
    wfc := bw w 10 7
    mode := bw w 13 11
    sh := sh
    ar := e.op 1
    wr := e.op 2
    ds := e.op 3
    xr := e.op 4
    wcols := if twin then 512 else 1024 }

/-- Derived counts: depth, K-chunks, slots per output row, n-blocks (03 R54). -/
def AParams.d (p : AParams) : Nat := codeDepth p.af
def AParams.kcs (p : AParams) : Nat := (p.k + p.d - 1) / p.d
def AParams.spm (p : AParams) : Nat := (p.n + 255) / 256
def AParams.nbs (p : AParams) : Nat := (p.n + p.wcols - 1) / p.wcols
def AParams.onePass (p : AParams) : Bool := p.nbs == 1 && p.kcs == 1
def AParams.isX (p : AParams) : Bool := p.opc == 0x41 || p.opc == 0x42
def AParams.isStrict (p : AParams) : Bool := p.opc == 0x43
def AParams.isDist (p : AParams) : Bool := p.opc == 0x45
def AParams.isWld (p : AParams) : Bool := p.opc == 0x47

/-- Whether the formats of an instruction are outside its permitted set (06 R151, R161, R162, R164). -/
def AParams.fmtBad (p : AParams) : Bool :=
  let grp := decide (p.af ≤ 7) && decide (p.wfc ≤ 7) && codeDepth p.af == codeDepth p.wfc
  if p.isX then !(p.af == 8 && p.wfc == 8)
  else if p.isStrict then !(decide (6 ≤ p.af) && decide (p.af ≤ 8) && decide (6 ≤ p.wfc) && decide (p.wfc ≤ 8))
  else if p.isDist then (if p.mode = 1 then !(p.af == 9 && p.wfc == 9) else decide (3 < p.mode) || !grp)
  else !grp

/-- A pair of bases in a register: [24:0] and [56:32], other bits 0, elements at a multiple of 32 (06 R153). -/
def basesBad (v : W64) : Bool := nz (bitsN v.toNat 31 25) || nz (bitsN v.toNat 63 57) || nz (bitsN v.toNat 24 0 % 32)

/-- Whether a window operand is malformed (06 R159). -/
def AParams.winBad (p : AParams) (twin : Bool) (s : HalfState) : Bool :=
  let v := p.ar.toNat
  let g := bitsN v 27 24
  let rows := if twin then 4 else 8
  nz (bitsN v 7 3) || nz (bitsN v 31 28) || nz (bitsN v 63 32) ||
  decide (g < 3) || decide (p.d < 2 ^ g) || decide (rows ≤ bitsN v 2 0) || decide (p.d < p.k) || p.isX || p.isStrict ||
  (List.range (p.d / 2 ^ g)).any (fun i => mapFind s.winFmt ((bitsN v 2 0 + i) % rows) != some p.af)

/-- Whether an instruction in format AM raises SHAPE at issue (06 R151-R153, R156, R157, R159, R161, R163, R164). -/
def AParams.shapeBad (p : AParams) (twin : Bool) (s : HalfState) : Bool :=
  nz (bitsN p.sh.toNat 15 12) || nz (bitsN p.sh.toNat 31 30) || nz (bitsN p.sh.toNat 63 60) || p.fmtBad ||
  (p.isWld && !p.onePass) ||
  (if p.win then p.winBad twin s else (!p.isWld && basesBad p.ar) || nz (bitsN p.ds.toNat 23 0 % 32)) ||
  (!p.reuse && (basesBad p.wr || nz (bitsN p.ds.toNat 55 32 % 32))) ||
  nz (bitsN p.ds.toNat 31 24) || nz (bitsN p.ds.toNat 63 56) ||
  (p.opc == 0x44 && (nz (bitsN p.xr.toNat 31 25) || nz (bitsN p.xr.toNat 63 57))) ||
  (p.reuse && (p.isX || p.isStrict || !p.onePass || s.stage != some (p.wfc, p.n, p.k)))

/-- The precise faults of an instruction in format AM (05 Table 8, 06 R152). -/
def amFault (t : Nat) (d : Dev) (s : HalfState) (e : QEntry) : Option (Nat × W64) :=
  let ts := d.tile t
  let p := aParams ts.twin e
  if p.shapeBad ts.twin s then some (fltShape, 0)
  else if !p.isWld && decide (ts.slots < p.s + p.m * p.spm) then some (fltSlotRange, BitVec.ofNat 64 (p.s + p.m * p.spm - 1))
  else none

/-- What issue records of the weight stage (06 R156). -/
def amIssue (twin : Bool) (e : QEntry) (s : HalfState) : HalfState :=
  let p := aParams twin e
  if p.reuse then s
  else if p.isX || p.isStrict || !p.onePass then { s with stage := none }
  else { s with stage := some (p.wfc, p.n, p.k) }

/-! ## Operands in tile memory (06 R153, R154) -/

/-- Scale bytes per row or column. -/
def AParams.sst (p : AParams) : Nat := p.kcs * (p.d / 32)
/-- The spans of tile memory an instruction reads: half-relative offset and length (06 R154, R163). -/
def AParams.spans (p : AParams) : List (Nat × Nat) :=
  let direct (base stride rows code : Nat) (sbase : Nat) : List (Nat × Nat) :=
    (List.range rows).map (fun i => (base + i * stride, p.kcs * codeChunk code)) ++
    (if codeMx code then (List.range rows).map (fun i => (sbase + i * p.sst, p.sst)) else [])
  (if p.win || p.isWld then [] else
    direct (bitsN p.ar.toNat 24 0) (bitsN p.ds.toNat 23 0) p.m p.af (bitsN p.ar.toNat 56 32)) ++
  (if p.reuse then [] else direct (bitsN p.wr.toNat 24 0) (bitsN p.ds.toNat 55 32) p.n p.wfc (bitsN p.wr.toNat 56 32)) ++
  (if p.opc = 0x44 then [(bitsN p.xr.toNat 24 0, (p.m + 7) / 8), (bitsN p.xr.toNat 56 32, (p.n + 7) / 8)] else [])

/-- The range fault of a list of spans: MEM_RANGE before DRAUGHT_WINDOW, with the address that fails (06 R154). -/
def Dev.spansFault (d : Dev) (t h : Nat) (l : List (Nat × Nat)) : Option (Nat × W64) :=
  let lim := (d.tile t).limit
  let s := d.half t h
  match l.find? (fun x => decide (lim < x.1 + x.2)) with
  | some x => some (fltMemRange, BitVec.ofNat 64 (max x.1 lim))
  | none =>
    (l.findSome? (fun x => (s.reserved ((d.tile t).base h + x.1) x.2).map (fun r =>
      (fltDraught, BitVec.ofNat 64 (max x.1 (r.1 - (d.tile t).base h))))))

/-- The first uncorrectable word of a list of half-relative spans, as a window offset. -/
def TileState.spansBad (t : TileState) (h : Nat) (l : List (Nat × Nat)) : Option Nat :=
  l.findSome? (fun x => t.badIn (t.base h + x.1) x.2)

/-- Bytes of a half's tile memory. -/
def TileState.mem (t : TileState) (h off n : Nat) : List Byte := t.bytes (t.base h + off) n

/-- The elements of packed bytes under their block scales: kk of them, then +0 (03 R56, 06 R154). -/
def opElems (code : Nat) (bs scales : List Byte) (d kk : Nat) : List Num :=
  match Fmt.ofCode code with
  | none => List.replicate d (.zero false)
  | some f => (List.range d).map (fun j =>
      if j < kk then
        let x := f.decode (elemBits f bs j)
        if codeMx code then scaled (leAt scales (j / 32) 1) x else x
      else .zero false)

/-- The activation vector of row m in K-chunk kc, direct (03 R52, 06 R153). -/
def TileState.actDirect (t : TileState) (h : Nat) (p : AParams) (m kc : Nat) : List Byte × List Byte :=
  (t.mem h (bitsN p.ar.toNat 24 0 + m * bitsN p.ds.toNat 23 0 + kc * codeChunk p.af) (codeChunk p.af),
   if codeMx p.af then t.mem h (bitsN p.ar.toNat 56 32 + m * p.sst + kc * (p.d / 32)) (p.d / 32) else [])

/-- Column of element j of the window vector for position m, and its physical row (03 R53). -/
def TileState.winPos (t : TileState) (h : Nat) (p : AParams) (m j : Nat) : Nat × Nat :=
  let v := p.ar.toNat
  let g := 2 ^ bitsN v 27 24
  let rows := if t.twin then 4 else 8
  ((bitsN v 2 0 + j / g) % rows + (if t.twin then 4 * h else 0), bitsN v 15 8 + m * bitsN v 23 16 + j % g)

/-- The window vector of output position m (03 R53): every element under the scale of its own row. -/
def TileState.actWindow (t : TileState) (h : Nat) (p : AParams) (m : Nat) : List Num :=
  match Fmt.ofCode p.af with
  | none => []
  | some f => (List.range p.d).map (fun j =>
      let rc := t.winPos h p m j
      if j < p.k ∧ rc.2 < 256 then
        let x := f.decode (elemBits f (t.bytes (winBuf + 0x200 * rc.1) 0x200) rc.2)
        if codeMx p.af then scaled (leAt (t.bytes (winBuf + 0x200 * rc.1 + 0x1F8) 8) (rc.2 / 32) 1) x else x
      else .zero false)

/-- The weights of output column n in K-chunk kc (03 R51; 06 R153, R160): one contiguous span from w_elem(n, kc), whichever
copy the instruction names, and one of scales. -/
def TileState.wgtBytes (t : TileState) (h : Nat) (p : AParams) (n kc : Nat) : List Byte × List Byte :=
  (t.mem h (bitsN p.wr.toNat 24 0 + n * bitsN p.ds.toNat 55 32 + kc * codeChunk p.wfc) (codeChunk p.wfc),
   if codeMx p.wfc then t.mem h (bitsN p.wr.toNat 56 32 + n * p.sst + kc * (p.d / 32)) (p.d / 32) else [])

/-! ## The tree over a K-chunk (04 R91-R93) -/

/-- Elements per leaf: 32 for MX formats, 8 for 16-bit formats and pieces, 128 bits for Hamming (04 Table 4, 06 Table 4). -/
def leafSize (code : Nat) : Nat := if codeMx code then 32 else if code = 9 then 128 else 8

/-- Cut a list into n runs of k. -/
def cutRuns {α : Type} (k : Nat) : Nat → List α → List (List α)
  | 0, _ => []
  | n + 1, l => l.take k :: cutRuns k n (l.drop k)

/-- The root's children for a product (04 R91, R92). -/
def treeDot (leaf : Nat) (w x : List Num) : Num × Num :=
  let ps := (w.zip x).map (fun e => e.1.mul e.2)
  treePair nodeSum ((cutRuns leaf (ps.length / leaf) ps).map (fun l => rto34 (sumExact l)))

/-- The root's children for L1 (04 R93). -/
def treeL1 (leaf : Nat) (w x : List Num) : Num × Num :=
  let ps := (w.zip x).map (fun e => (e.1.sub e.2).abs)
  treePair nodeSum ((cutRuns leaf (ps.length / leaf) ps).map (fun l => rto34 (sumExact l)))

/-- The root's children for min-plus and max-plus (04 R93). -/
def treeBest (best : Num → Num → Num) (leaf : Nat) (w x : List Num) : Num × Num :=
  let ps := (w.zip x).map (fun e => rto34 (e.1.add e.2))
  treePair best ((cutRuns leaf (ps.length / leaf) ps).map (fun l => match l with
    | [] => .zero false
    | a :: r => r.foldl best a))

/-- Bits of a K-chunk of binary elements, kk of them. -/
def bitElems (bs : List Byte) (d kk : Nat) : List Bool :=
  (List.range d).map (fun j => decide (j < kk) && (listGet (0 : Byte) bs (j / 8)).getLsbD (j % 8))

/-- The root's children for Hamming (06 Table 4). -/
def treeHamming (w x : List Bool) : Num × Num :=
  let ds := (w.zip x).map (fun e => e.1 != e.2)
  treePair nodeSum ((cutRuns 128 (ds.length / 128) ds).map (fun l => mkNum ((l.filter id).length : Nat) 0 false))

/-! ## Slot additions (04 R92, R97-R100) -/

/-- A stored slot value and a slot's tag; slots are physical. -/
def TileState.stored (t : TileState) (slot e : Nat) : W32 := mapGet 0 t.acc (256 * slot + e)
def TileState.tag (t : TileState) (slot : Nat) : Int := (mapGet (0 : Byte) t.tags slot).toInt
def TileState.setStored (slot e : Nat) (v : W32) (t : TileState) : TileState :=
  { t with acc := mapSet 0 t.acc (256 * slot + e) v, bad := t.bad.filter (· != winAcc + 1024 * slot + 4 * e) }
def TileState.setTag (slot : Nat) (v : Int) (t : TileState) : TileState :=
  { t with tags := mapSet 0 t.tags slot (BitVec.ofInt 8 v), bad := t.bad.filter (· != winTags + slot) }

/-- The exact sum a slot element takes (04 R92). -/
def slotExact (stored : W32) (tag : Int) (lr : Num × Num) : Num := (f32Num stored).add ((lr.1.add lr.2).scale tag)

/-- Whether an addition overflows (04 R97): finite operands, and a rounded result beyond the range. -/
def slotOver (stored : W32) (tag : Int) (lr : Num × Num) : Bool :=
  (f32Num stored).isFin && (lr.1.add lr.2).isFin && f32Max.lt (roundNum .rne 24 (-149) (slotExact stored tag lr)).abs

/-- The value a slot element stores when the addition is made: saturated where it overflows (04 R99). -/
def slotValue (stored : W32) (tag : Int) (lr : Num × Num) : W32 :=
  if slotOver stored tag lr then (if (slotExact stored tag lr).neg? then 0xFF7FFFFF#32 else 0x7F7FFFFF#32)
  else toF32 (slotExact stored tag lr)

/-- Rescale a slot (04 R97, R98). -/
def TileState.rescale (slot : Nat) (t : TileState) : TileState :=
  ((List.range 256).foldl (fun t e => t.setStored slot e (toF32 ((f32Num (t.stored slot e)).scale (-8)))) t).setTag slot (t.tag slot - 8)

/-- Add root sums to one slot, with at most n retries: the tile, the retries made, and whether it saturated (04 R97-R100). -/
def TileState.slotAdd (slot : Nat) (vals : List (Nat × (Num × Num))) : Nat → Nat → TileState → TileState × Nat × Bool
  | n, k, t =>
    let big := vals.any (fun v => slotOver (t.stored slot v.1) (t.tag slot) v.2)
    let put := vals.foldl (fun (u : TileState) v => u.setStored slot v.1 (slotValue (t.stored slot v.1) (t.tag slot) v.2)) t
    match n with
    | 0 => (put, k, big)
    | n + 1 =>
      if big && decide (-120 ≤ t.tag slot) then TileState.slotAdd slot vals n (k + 1) (t.rescale slot) else (put, k, big)

/-- Min-plus and max-plus at the slot (04 R93): no retry; beyond the range it stores the largest value. -/
def TileState.slotBest (best : Num → Num → Num) (slot : Nat) (vals : List (Nat × (Num × Num))) (t : TileState) : TileState × Nat × Bool :=
  let res (v : Nat × (Num × Num)) : Num := best (f32Num (t.stored slot v.1)) ((best v.2.1 v.2.2).scale (t.tag slot))
  let big (x : Num) : Bool := x.isFin && f32Max.lt (roundNum .rne 24 (-149) x).abs
  (vals.foldl (fun (u : TileState) v =>
    let x := res v
    u.setStored slot v.1 (if big x then (if x.neg? then 0xFF7FFFFF#32 else 0x7F7FFFFF#32) else toF32 x)) t, 0, vals.any (fun v => big (res v)))

/-! ## The fold (03 R54, 06 R155, R161-R165) -/

/-- The pieces (i, j) of a form's passes, in order (04 Table 6). -/
def AParams.pieces (p : AParams) : List (Nat × Nat) :=
  if p.opc = 0x41 then [(1, 0), (0, 1), (0, 0)]
  else if p.opc = 0x42 then [(2, 0), (1, 1), (0, 2), (1, 0), (0, 1), (0, 0)]
  else [(0, 0)]

/-- A pass: n-block, K-chunk and piece pair. -/
structure APass where
  nb : Nat
  kc : Nat
  ij : Nat × Nat
deriving DecidableEq, Repr

/-- What a run carries: the masks of `mma.m` read at its start. -/
structure AMasks where
  row : List Byte
  col : List Byte
deriving DecidableEq, Repr

/-- A mask bit (06 R163). -/
def maskBit (m : List Byte) (i : Nat) : Bool := (listGet (0 : Byte) m (i / 8)).getLsbD (i % 8)

/-- Whether an output row or column is computed. -/
def AParams.rowOn (p : AParams) (k : AMasks) (m : Nat) : Bool := p.opc != 0x44 || maskBit k.row m
def AParams.colOn (p : AParams) (k : AMasks) (n : Nat) : Bool := p.opc != 0x44 || maskBit k.col n

/-- The columns of an n-block. -/
def AParams.cols (p : AParams) (nb : Nat) : List Nat :=
  ((List.range p.wcols).map (fun l => nb * p.wcols + l)).filter (fun n => decide (n < p.n))
/-- The columns whose lane row has a computed lane, and so is loaded (03 R55, 06 R163). -/
def AParams.loaded (p : AParams) (k : AMasks) (nb : Nat) : List Nat :=
  (p.cols nb).filter (fun n => (p.cols nb).any (fun n' => n' / 256 == n / 256 && p.colOn k n'))

/-- The passes, in order; an n-block without a computed column is skipped (06 R163). -/
def AParams.passes (p : AParams) (k : AMasks) : List APass :=
  ((List.range p.nbs).filter (fun nb => (p.cols nb).any (p.colOn k))).flatMap (fun nb =>
    (List.range p.kcs).flatMap (fun kc => p.pieces.map (fun ij => { nb := nb, kc := kc, ij := ij })))

/-- The physical lane that holds a column. -/
def AParams.lane (p : AParams) (h n : Nat) : Nat := (if p.wcols = 512 then 512 * h else 0) + n % p.wcols

/-- Piece j of the elements of a span of binary32 values, as BF16 (04 R103, R104; 06 R161). -/
def pieceBytes (pc j : Nat) (bs : List Byte) : List Byte :=
  (List.range (bs.length / 4)).flatMap (fun i =>
    leBytes 2 (Fmt.bf16.convert .rne false (listGet (.zero false) (splitF32 pc (Fmt.f32.decode (leAt bs (4 * i) 4))) j)))

/-- Load the weight stage for a pass (03 R50, R51): nothing with reuse; an X form keeps its weight piece (04 R104). -/
def TileState.loadStage (h : Nat) (p : AParams) (k : AMasks) (a : APass) (t : TileState) : TileState :=
  if p.reuse then t
  else
    let ls := p.loaded k a.nb
    let word (n : Nat) : List Byte × List Byte :=
      let w := t.wgtBytes h p n a.kc
      if p.isX then (pieceBytes (if p.opc = 0x41 then 2 else 3) a.ij.2 w.1, []) else w
    { t with
      stage := ls.foldl (fun st n => mapPut st (p.lane h n) (word n)) t.stage
      badLanes := t.badLanes.filter (fun l => !(ls.any (fun n => p.lane h n == l))) }

/-- The spans a pass consumes: its weights, and the activation rows given (06 R167). -/
def AParams.passSpans (p : AParams) (k : AMasks) (a : APass) (rows : List Nat) : List (Nat × Nat) :=
  (if p.reuse then [] else (p.loaded k a.nb).flatMap (fun n =>
    [(bitsN p.wr.toNat 24 0 + n * bitsN p.ds.toNat 55 32 + a.kc * codeChunk p.wfc, codeChunk p.wfc)] ++
    (if codeMx p.wfc then [(bitsN p.wr.toNat 56 32 + n * p.sst + a.kc * (p.d / 32), p.d / 32)] else []))) ++
  (if p.win then [] else rows.flatMap (fun m =>
    [(bitsN p.ar.toNat 24 0 + m * bitsN p.ds.toNat 23 0 + a.kc * codeChunk p.af, codeChunk p.af)] ++
    (if codeMx p.af then [(bitsN p.ar.toNat 56 32 + m * p.sst + a.kc * (p.d / 32), p.d / 32)] else [])))

/-- The uncorrectable word of a physical slot or of its tag. -/
def TileState.slotBad (t : TileState) (slot : Nat) : Option Nat :=
  match t.badIn (winAcc + 1024 * slot) 1024 with
  | some b => some b
  | none => t.badIn (winTags + slot) 1

/-- What a pass meets that fails its check: a word behind the tile window, or a weight stage, which has no address. -/
inductive BadRead where
  | word (off : Nat)
  | stage
deriving DecidableEq, Repr

/-- The bytes of the window buffer that the vector of an output position takes: elements and their scales (03 R53). -/
def TileState.winReads (t : TileState) (h : Nat) (p : AParams) (m : Nat) : List (Nat × Nat) :=
  match Fmt.ofCode p.af with
  | none => []
  | some f => (List.range p.d).flatMap (fun j =>
      let rc := t.winPos h p m j
      let row := winBuf + 0x200 * rc.1
      let b0 := f.width * rc.2 / 8
      if rc.2 < 256 then [(row + b0, (f.width * rc.2 + f.width - 1) / 8 - b0 + 1)] ++ (if f.isMx then [(row + 0x1F8 + rc.2 / 32, 1)] else [])
      else [])

/-- The columns of an n-block that are computed in one slot, and that slot for an output row. -/
def AParams.groupCols (p : AParams) (k : AMasks) (nb gi : Nat) : List Nat :=
  (p.cols nb).filter (fun n => n / 256 == gi && p.colOn k n)
def AParams.groups (p : AParams) (nb : Nat) : List Nat := runs ((p.cols nb).map (· / 256))
def TileState.slotOf (t : TileState) (h : Nat) (p : AParams) (m gi : Nat) : Nat := t.slotBase h + p.s + m * p.spm + gi

/-- The window ranges that a pass reads beside tile memory: the window buffer, and the slot elements that it computes with
their tags. -/
def TileState.passReads (t : TileState) (h : Nat) (p : AParams) (k : AMasks) (a : APass) (rows : List Nat) : List (Nat × Nat) :=
  (if p.win then rows.flatMap (t.winReads h p) else []) ++
  rows.flatMap (fun m => (p.groups a.nb).flatMap (fun gi =>
    let slot := t.slotOf h p m gi
    (winTags + slot, 1) :: (p.groupCols k a.nb gi).map (fun n => (winAcc + 1024 * slot + 4 * (n % 256), 4))))

/-- The uncorrectable word or stage that a pass would consume (06 R167): in tile memory, in the window buffer, in the slots
it computes, or, with REUSE, in a stage whose parity fails. -/
def TileState.passBad (t : TileState) (h : Nat) (p : AParams) (k : AMasks) (a : APass) (rows : List Nat) : Option BadRead :=
  if p.reuse && (p.cols a.nb).any (fun n => p.colOn k n && t.badLanes.contains (p.lane h n)) then some .stage
  else if t.bad.isEmpty then none else
  match t.spansBad h (p.passSpans k a rows) with
  | some b => some (.word b)
  | none => ((t.passReads h p k a rows).findSome? (fun x => t.badIn x.1 x.2)).map .word

/-- The uncorrectable word that the rescales of a pass have read, `u` being the tile after it: a rescale reads all of its
slot (04 R97). -/
def TileState.rescaleBad (t u : TileState) (h : Nat) (p : AParams) (a : APass) (rows : List Nat) : Option BadRead :=
  if t.bad.isEmpty then none else
  (rows.findSome? (fun m => (p.groups a.nb).findSome? (fun gi =>
    let slot := t.slotOf h p m gi
    if t.tag slot = u.tag slot then none else t.slotBad slot))).map .word

/-- The correctable words of half-relative spans of tile memory that a read meets are found (07 R204). -/
def Dev.mendSpans (t h : Nat) (l : List (Nat × Nat)) (d : Dev) : Dev :=
  if (d.tile t).weak.isEmpty then d else runAll l (fun x d => d.tileMend t ((d.tile t).base h + x.1) x.2) d
/-- The same for ranges of the tile window. -/
def Dev.mendReads (t : Nat) (l : List (Nat × Nat)) (d : Dev) : Dev :=
  if (d.tile t).weak.isEmpty then d else runAll l (fun x d => d.tileMend t x.1 x.2) d

/-- The column mode of a lane: what a K-chunk adds to a slot element. -/
def TileState.laneRoots (t : TileState) (h : Nat) (p : AParams) (a : APass) (x : List Num) (xb : List Byte) (n : Nat) : Num × Num :=
  let st := mapGet ([], []) t.stage (p.lane h n)
  let kk := p.k - a.kc * p.d
  let leaf := leafSize p.wfc
  if p.isDist && p.mode == 1 then treeHamming (bitElems st.1 p.d kk) (bitElems xb p.d kk)
  else
    let w := opElems (if p.isX then 6 else p.wfc) st.1 st.2 p.d kk
    if p.isX then
      let pc := if p.opc = 0x41 then 2 else 3
      treeDot 8 w (x.map (fun y => listGet (.zero false) (splitF32 pc y) a.ij.1))
    else if p.isDist && p.mode == 0 then treeL1 leaf w x
    else if p.isDist && p.mode == 2 then treeBest Num.min leaf w x
    else if p.isDist && p.mode == 3 then treeBest Num.max leaf w x
    else treeDot leaf w x

/-- The strict loop of one lane over a K-chunk (04 R106). -/
def strictLoop (c : W32) (w x : List Num) (kk : Nat) : W32 :=
  ((w.zip x).take kk).foldl (fun c e => toF32 ((e.2.mul e.1).add (f32Num c))) c

/-- One activation row of a pass: what it adds to the slots of its n-block (03 R54). -/
def Dev.arrayRow (t h : Nat) (p : AParams) (k : AMasks) (a : APass) (m : Nat) (d : Dev) : Dev :=
  let ts := d.tile t
  let by' := ts.actDirect h p m a.kc
  let kk := p.k - a.kc * p.d
  let x := if p.win then ts.actWindow h p m else opElems p.af by'.1 by'.2 p.d kk
  (p.groups a.nb).foldl (fun d gi =>
    let ts := d.tile t
    let slot := ts.slotOf h p m gi
    let ns := p.groupCols k a.nb gi
    if p.isStrict then
      d.putTile t (ns.foldl (fun (u : TileState) n =>
        let st := mapGet ([], []) u.stage (p.lane h n)
        u.setStored slot (n % 256) (strictLoop (u.stored slot (n % 256)) (opElems p.wfc st.1 st.2 p.d kk) x kk)) ts)
    else
      let vals := ns.map (fun n => (n % 256, ts.laneRoots h p a x by'.1 n))
      let r := if p.isDist && p.mode == 2 then ts.slotBest Num.min slot vals
               else if p.isDist && p.mode == 3 then ts.slotBest Num.max slot vals
               else TileState.slotAdd slot vals 4 0 ts
      (d.putTile t r.1).modHalf t h (fun s => { s with
        rescale := s.rescale + BitVec.ofNat 64 r.2.1
        sat := if r.2.2 then s.sat + 1 else s.sat })) d

/-- Stream cycles of one activation row (06 R166). -/
def AParams.rowCycles (p : AParams) : Nat :=
  (if p.isStrict then 64 else if p.isDist then 2 else 1) * (if p.wcols = 512 then 2 else 1)

/-- Run passes with a budget of activation rows (03 R74): the part, whether it ran to its end, and a MEM_ERROR met, whose
pass has written no slot (06 R167). -/
def Dev.arrayPasses (t h : Nat) (p : AParams) (k : AMasks) : List APass → Nat → Dev → Dev × Bool × Option BadRead
  | [], _, d => (d, true, none)
  | a :: rest, budget, d =>
    if budget = 0 then (d, false, none) else
    let all := (List.range p.m).filter (p.rowOn k)
    let rows := all.take budget
    let d := (d.mendSpans t h (p.passSpans k a rows)).mendReads t ((d.tile t).passReads h p k a rows)
    let ts := d.tile t
    match ts.passBad h p k a rows with
    | some b => (d, false, some b)
    | none =>
      let d1 := (d.putTile t (ts.loadStage h p k a)).modTile t (fun u => { u with active := u.active + BitVec.ofNat 64 (rows.length * p.rowCycles) })
      let d2 := rows.foldl (fun d m => d.arrayRow t h p k a m) d1
      match ts.rescaleBad (d2.tile t) h p a rows with
      | some b => (d, false, some b)
      | none =>
      if rows.length < all.length then (d2, false, none)
      else Dev.arrayPasses t h p k rest (budget - rows.length) d2

/-- The clear value of an instruction's slots (03 R54, 06 Table 4). -/
def AParams.clearValue (p : AParams) : W32 :=
  if p.isDist && p.mode == 2 then 0x7F800000#32 else if p.isDist && p.mode == 3 then 0xFF800000#32 else 0

/-- Clear the named slots and their tags. -/
def TileState.clearSlots (h : Nat) (p : AParams) (t : TileState) : TileState :=
  (List.range (p.m * p.spm)).foldl (fun (u : TileState) i =>
    let slot := u.slotBase h + p.s + i
    ((List.range 256).foldl (fun (u : TileState) e => u.setStored slot e p.clearValue) u).setTag slot 0) t

/-- An uncorrectable word consumed by a queued instruction: logged, and MEM_ERROR (06 R167). -/
def Dev.queuedBad (t h : Nat) (e : QEntry) (source b : Nat) (d : Dev) : Dev :=
  (d.tileError true t (storeAt b).num (winAddr t b)).raiseQueued t h e source fltMemError (winAddr t b)

/-- The same for what a pass meets: a weight stage is logged and reported without an address, which it has not (log 16). -/
def Dev.passRaise (t h : Nat) (e : QEntry) (b : BadRead) (d : Dev) : Dev :=
  match b with
  | .word o => d.queuedBad t h e 1 o
  | .stage => (d.tileError true t 4 0).raiseQueued t h e 1 fltMemError 0

/-- Every row an instruction can stream: more than any budget it needs. -/
def AParams.allRows (p : AParams) : Nat := p.m * p.nbs * p.kcs * 6 + 1

/-- Run an instruction in format AM from its start for at most `budget` activation rows (03 R54, R74; 06 R154-R167). The
answer says whether it ran to its end. Which fault comes first where a strict product without CLR names a slot with a
nonzero tag and another of its reads faults too is not stated: DESIGN CHOICE, a range, then SHAPE, then MEM_ERROR (log 16). -/
def Dev.runAm (t h : Nat) (e : QEntry) (budget : Option Nat) (d : Dev) : Dev × Bool :=
  let ts := d.tile t
  let p := aParams ts.twin e
  match d.spansFault t h p.spans with
  | some f => (d.raiseQueued t h e 1 f.1 f.2, false)
  | none =>
    let mspans := if p.opc = 0x44 then [(bitsN p.xr.toNat 24 0, (p.m + 7) / 8), (bitsN p.xr.toNat 56 32, (p.n + 7) / 8)] else []
    let d := d.mendSpans t h mspans
    let ts := d.tile t
    match ts.spansBad h mspans with
    | some b => (d.queuedBad t h e 1 b, false)
    | none =>
      let k : AMasks := { row := ts.mem h (bitsN p.xr.toNat 24 0) ((p.m + 7) / 8), col := ts.mem h (bitsN p.xr.toNat 56 32) ((p.n + 7) / 8) }
      if p.isWld then
        let a : APass := { nb := 0, kc := 0, ij := (0, 0) }
        let d := d.mendSpans t h (p.passSpans k a [])
        let ts := d.tile t
        match ts.spansBad h (p.passSpans k a []) with
        | some b => (d.queuedBad t h e 1 b, false)
        | none => (d.putTile t (ts.loadStage h p k a), true)
      else if p.isStrict && !p.clr && (List.range (p.m * p.spm)).any (fun i => ts.tag (ts.slotBase h + p.s + i) != 0) then
        (d.raiseQueued t h e 1 fltShape 0, false)
      else
        let d1 := if p.clr then d.putTile t (ts.clearSlots h p) else d
        let r := d1.arrayPasses t h p k (p.passes k) (budget.getD p.allRows)
        match r.2.2 with
        | some b => (r.1.passRaise t h e b, false)
        | none => (r.1, r.2.1)

/-! ## Window loads (06 R158) -/

/-- Bytes of a window row's elements. -/
def wlBytes (c : Nat) : Nat := if c = 0 then 128 else if c ≤ 2 then 192 else if c ≤ 5 then 256 else 512

/-- The precise faults of `wl`. -/
def wlFault (t : Nat) (d : Dev) (_s : HalfState) (e : QEntry) : Option (Nat × W64) :=
  let rows := if (d.tile t).twin then 4 else 8
  if decide (rows ≤ bw e.word 2 0) || decide (7 < bw e.word 6 3) || basesBad (e.op 0) then some (fltShape, 0) else none

/-- What issue records of a window load (06 R159). -/
def wlIssue (e : QEntry) (s : HalfState) : HalfState := { s with winFmt := mapPut s.winFmt (bw e.word 2 0) (bw e.word 6 3) }

/-- Run a window load (06 R158, R525). -/
def Dev.runWl (t h : Nat) (e : QEntry) (d : Dev) : Dev × Bool :=
  let c := bw e.word 6 3
  let v := (e.op 0).toNat
  let spans := [(bitsN v 24 0, wlBytes c)] ++ (if codeMx c then [(bitsN v 56 32, 8)] else [])
  match d.spansFault t h spans with
  | some f => (d.raiseQueued t h e 1 f.1 f.2, false)
  | none =>
    let d := d.mendSpans t h spans
    let ts := d.tile t
    match ts.spansBad h spans with
    | some b => (d.queuedBad t h e 1 b, false)
    | none =>
      let row := winBuf + 0x200 * (bw e.word 2 0 + (if ts.twin then 4 * h else 0))
      let bs := sliceB (ts.mem h (bitsN v 24 0) (wlBytes c)) 0 0x200
      let sc := if codeMx c then ts.mem h (bitsN v 56 32) 8 else []
      let bytes := if codeMx c then bs.take 0x1F8 ++ sc else bs
      (d.putTile t ((ts.write row bytes).2), true)

/-- Run an array-queue entry; one whose half a fault has stopped runs nothing. -/
def Dev.runArray (t h : Nat) (e : QEntry) (budget : Option Nat) (d : Dev) : Dev × Bool :=
  if opc e.word = 0x46 then d.runWl t h e else d.runAm t h e budget

end Sys2Proof.Machine
end

