-- ==== Sys2Proof/Machine/VectorOps.lean ====
section
/-! DEFINITION. What vector instructions do (06 R168-R182): lanes, slots through held values, loads, conversions, reductions and best lists. -/
namespace Sys2Proof.Machine

/-- The held value of element e of a physical slot (04 R101). -/
def TileState.held (t : TileState) (slot e : Nat) : Num := (f32Num (t.stored slot e)).scale (-(t.tag slot))

/-- Which operand of a slot instruction holds its slot register: A for `ep.wr`, B for the others (06 Table 6). -/
def slotOp (w : W64) : Option Nat :=
  match opc w with
  | 0x67 | 0x69 | 0x6A | 0x6B | 0x6E => some 1
  | 0x68 => some 0
  | _ => none

/-- The bits of a slot register that must be 0 (06 R169, R180). -/
def slotRegBad (w : W64) (v : Nat) : Bool := if opc w = 0x6E then nz (bitsN v 31 12) else nz (v / 4096)

/-- The precise faults of a vector instruction (06 Table 6, R169, R173, R176, R180). -/
def vecFault (t : Nat) (d : Dev) (_s : HalfState) (e : QEntry) : Option (Nat × W64) :=
  let w := e.word
  let op := opc w
  let base := (e.op (if op = 0x65 then 1 else 0)).toNat
  let shape :=
    (decide (op = 0x65 ∨ op = 0x66 ∨ op = 0x69) && (decide (8 < bw w 3 0) || nz (bitsN base 24 0 % 16))) ||
    (op == 0x6E && nz (base % 512)) ||
    (match slotOp w with | some i => slotRegBad w (e.op i).toNat | none => false)
  if shape then some (fltShape, 0) else
  match slotOp w with
  | some i =>
    let slot := bitsN (e.op i).toNat 11 0
    if (d.tile t).slots ≤ slot then some (fltSlotRange, BitVec.ofNat 64 slot) else none
  | none => none

/-- The lesser and the greater of Table 7, as binary32 words. -/
def vMinMax (f : Num → Num → Num) (b x : W32) : W32 := toF32 (f (f32Num b) (f32Num x))

/-- The operations of `vop` (06 Table 7). -/
def vopLane (op : Nat) (b x c : W32) : W32 :=
  match op with
  | 0 => add32 b x
  | 1 => sub32 b x
  | 2 => mul32 b x
  | 3 => fma32 b x c
  | 4 => vMinMax Num.min b x
  | 5 => vMinMax Num.max b x
  | 6 => b &&& x
  | 7 => b ||| x
  | 8 => b ^^^ x
  | 9 => b + x
  | _ => b - x

/-- The functions of `vfn` (06 Table 8). -/
def vfnLane (fn : Nat) (x : W32) : W32 :=
  match fn with
  | 0 => x &&& 0x7FFFFFFF#32
  | 1 => x ^^^ 0x80000000#32
  | 2 => sqrt32 x
  | 3 => toF32 (f32Num x).rcp
  | 4 => toF32 (f32Num x).rsqrt
  | 5 => toF32 (f32Num x).exp2
  | 6 => toF32 (f32Num x).log2n
  | 7 => toF32 (mkNum x.toInt 0 false)
  | _ => numToI32 (f32Num x)

/-- The conditions of `vcmp` (06 R172). -/
def vcmpLane (cc : Nat) (b x : W32) : Bool :=
  let u := f32Num b
  let v := f32Num x
  let un := decide (u = .nan) || decide (v = .nan)
  match cc with
  | 0 => u.eqv v
  | 1 => !u.eqv v
  | 2 => u.lt v && !u.eqv v
  | 3 => u.lt v || u.eqv v
  | 4 => un
  | _ => !un

/-- Lanes of the operand C: a register, or one scalar in every lane (06 R170). -/
def laneOperand (s : HalfState) (e : QEntry) : List W32 :=
  if bw e.word 4 4 = 1 then List.replicate 64 (lo32 (e.op 2)) else s.lanes (fC e.word) 1

/-- A number of 64 bits from its bits, the first lowest. -/
def bitsWord (l : List Bool) : W64 := BitVec.ofNat 64 (packBits 1 (l.map b2n))

/-- Rounding of a store or an epilogue: mode and, for SR, the word of element j (06 R174, 04 R85). -/
def vecRound (e : QEntry) (j : Nat) : Round :=
  match bw e.word 5 4 with
  | 0 => .rne
  | 1 => .rto
  | _ => .sr (srWord (e.op 5).toNat (lo32 (e.op 6)).toNat (hi32 (e.op 6)).toNat ((e.op 2 + BitVec.ofNat 64 j).toNat))

/-- The saturation option: NS selects NONSAT (06 R173). -/
def vecSat (e : QEntry) : Bool := bw e.word 6 6 == 0

/-- Values converted to a format: element bytes and scale bytes (06 R173, R176). -/
def vecConvert (e : QEntry) (vs : List Num) : List Byte × List Byte :=
  match Fmt.ofCode (bw e.word 3 0) with
  | none => ([], [])
  | some f =>
    if f.isMx then
      let blocks := cutRuns 32 (vs.length / 32) vs
      let rs := blocks.mapIdx (fun b l =>
        let mode (j : Nat) : Round := vecRound e (32 * b + j)
        if bw e.word 7 7 = 1 then mxGiven f mode (vecSat e) (bitsN (e.op 3).toNat (8 * b + 7) (8 * b)) l
        else mxBlock f mode (vecSat e) l)
      (packElems f (rs.flatMap Prod.snd), rs.map (fun r => BitVec.ofNat 8 r.1))
    else (packElems f (vs.mapIdx (fun j v => f.convert (vecRound e j) (vecSat e) v)), [])

/-- Spans of elements and scales named by a register (06 R173). -/
def vecSpans (v : Nat) (code n : Nat) : List (Nat × Nat) :=
  match Fmt.ofCode code with
  | none => []
  | some f => [(bitsN v 24 0, n * f.width / 8)] ++ (if f.isMx then [(bitsN v 56 32, n / 32)] else [])

/-- A word of the destination that holds an uncorrectable error and is only partly covered (07 R526). -/
def TileState.partBad (t : TileState) (h : Nat) (l : List (Nat × Nat)) : Option Nat :=
  l.findSome? (fun x =>
    let off := t.base h + x.1
    t.bad.find? (fun b => decide (b < off + x.2) && decide (off < b + (protWord b).2) &&
      !(decide (off ≤ b) && decide (b + (protWord b).2 ≤ off + x.2))))

/-- Converted values written to a half's tile memory: nothing where a fault stops it (06 R182). The scales are written after
the elements where the two spans overlap (DESIGN CHOICE, unsafe, log 16). -/
def Dev.vecStore (t h : Nat) (e : QEntry) (vs : List Num) (d : Dev) : Dev :=
  let v := (e.op 0).toNat
  let spans := vecSpans v (bw e.word 3 0) vs.length
  match d.spansFault t h spans with
  | some f => d.raiseQueued t h e 2 f.1 f.2
  | none =>
    match (d.tile t).partBad h spans with
    | some b => d.queuedBad t h e 2 b
    | none =>
      let r := vecConvert e vs
      let b := (d.tile t).base h
      d.modTile t (fun u => (TileState.write (b + bitsN v 56 32) r.2 (TileState.write (b + bitsN v 24 0) r.1 u).2).2)

/-- An element of `vld` as binary32 (06 R173). -/
def vldLane (f : Fmt) (sat : Bool) (bits scale : Nat) : W32 :=
  match f with
  | .f32 => if f.decode bits = .nan then 0x7FC00000#32 else BitVec.ofNat 32 bits
  | .bf16 | .f16 => toF32 (f.decode bits)
  | .f4 | .e3m2 | .e2m3 | .e4m3 | .e5m2 | .i8 => toF32Sat sat (scaled scale (f.decode bits))

/-- VLD (06 R173). -/
def Dev.runVld (t h : Nat) (e : QEntry) (d : Dev) : Dev :=
  let v := (e.op 1).toNat
  let code := bw e.word 3 0
  let spans := vecSpans v code 64
  match d.spansFault t h spans with
  | some f => d.raiseQueued t h e 2 f.1 f.2
  | none =>
    let d := d.mendSpans t h spans
    match (d.tile t).spansBad h spans with
    | some b => d.queuedBad t h e 2 b
    | none =>
      match Fmt.ofCode code with
      | none => d
      | some f =>
        let ts := d.tile t
        let bs := ts.mem h (bitsN v 24 0) (64 * f.width / 8)
        let sc := if f.isMx then ts.mem h (bitsN v 56 32) 2 else []
        d.modHalf t h (HalfState.setLanes (fA e.word) ((List.range 64).map (fun j =>
          vldLane f (vecSat e) (elemBits f bs j) (leAt sc (j / 32) 1))))

/-- The tree over leaves already in tree format (06 R178 vtree), and its exact sum. -/
def vtreeSum (ls : List Num) : Num :=
  let r := treePair nodeSum ls
  r.1.add r.2

/-- VRED's lane 0 (06 R178). -/
def vredLane (sq acc : Bool) (a : W32) (xs : List W32) : W32 :=
  let s := vtreeSum (xs.map (fun x => if sq then rto34 ((f32Num x).mul (f32Num x)) else f32Num x))
  toF32 (if acc then (f32Num a).add s else s)

/-- VMV's three lanes (06 R179). -/
def vmvLanes (init : Bool) (cnt mean m2 : W32) (xs : List W32) : List W32 :=
  let cnt := if init then 0 else cnt
  let mean := if init then 0 else mean
  let m2 := if init then 0 else m2
  let n := xs.length
  let mb := div32 (toF32 (vtreeSum (xs.map f32Num))) (natF32 n)
  let q := toF32 (vtreeSum (xs.map (fun x =>
    let t := rto34 ((f32Num x).sub (f32Num mb))
    rto34 (t.mul t))))
  let c := cnt + BitVec.ofNat 32 n
  let f := div32 (natF32 n) (natF32 c.toNat)
  let dd := sub32 mb mean
  [c, fma32 dd f mean, fma32 (mul32 dd dd) (mul32 (natF32 cnt.toNat) f) (add32 m2 q)]

/-- A register whose first lanes are given and whose others are +0. -/
def padLanes (l : List W32) : List W32 := l ++ List.replicate (64 - l.length) 0

/-- The correctable words of a slot and its tag that a read meets are found (07 R204). -/
def Dev.mendSlot (t slot : Nat) (d : Dev) : Dev := d.mendReads t [(winAcc + 1024 * slot, 1024), (winTags + slot, 1)]

/-- The norm epilogue of one element (06 R177). A result of -∞ arises only from a non-finite operand, so an exact result below
zero becomes +0 whatever its size; one above the range of binary32 becomes +∞ (DESIGN CHOICE, unsafe, log 16). -/
def epL2 (h : Num) (rn cn : W32) : W32 :=
  let x := ((f32Num rn).add (f32Num cn)).add ((h.scale 1).negate)
  match x with
  | .fin m _ => if m < 0 then 0 else toF32 x
  | .zero _ => 0
  | .nan | .inf _ => toF32 x

/-- Insert a candidate after every entry that is not worse, keeping k (06 R180). -/
def topkPut (better : (W32 × W32) → (W32 × W32) → Bool) (k : Nat) (c : W32 × W32) (l : List (W32 × W32)) : List (W32 × W32) :=
  ((l.takeWhile (fun e => !better c e)) ++ [c] ++ l.dropWhile (fun e => !better c e)).take k

/-- Whether a candidate is better: by value, then by the lower index (06 R180). -/
def topkBetter (mx : Bool) (a b : W32 × W32) : Bool :=
  let x := f32Num a.1
  let y := f32Num b.1
  if x.eqv y then decide (a.2.toNat < b.2.toNat) else if mx then y.lt x else x.lt y

/-- VTOPK (06 R180). -/
def Dev.runVtopk (t h : Nat) (e : QEntry) (d : Dev) : Dev :=
  let w := e.word
  let ts := d.tile t
  let s := d.half t h
  let lst := (e.op 0).toNat
  let k := bw w 5 0 + 1
  let mx := bw w 6 6 == 1
  let slot := ts.slotBase h + bitsN (e.op 1).toNat 11 0
  let worst : W32 × W32 := (if mx then 0xFF800000#32 else 0x7F800000#32, 0xFFFFFFFF#32)
  match d.spansFault t h [(lst, 512)] with
  | some f => d.raiseQueued t h e 2 f.1 f.2
  | none =>
    let spans := if bw w 7 7 = 1 then [] else [(lst, 4 * k), (lst + 256, 4 * k)]
    let d := (d.mendSpans t h spans).mendSlot t slot
    let ts := d.tile t
    let bad := match ts.spansBad h spans with
      | some b => some b
      | none => ts.slotBad slot
    match bad with
    | some b => d.queuedBad t h e 2 b
    | none =>
      let old := ts.mem h lst 512
      let stored := (List.range k).map (fun i =>
        if bw w 7 7 = 1 then worst else (BitVec.ofNat 32 (leAt old (4 * i) 4), BitVec.ofNat 32 (leAt old (256 + 4 * i) 4)))
      let out := (List.range 256).foldl (fun l i =>
        let h0 := toF32Sat true (ts.held slot i)
        let v := if bw w 8 8 = 1 then epL2 (f32Num h0) (lo32 (e.op 3)) (s.lane (fC w + i / 64) (i % 64)) else h0
        if f32Num v = .nan then l else topkPut (topkBetter mx) k (v, hi32 (e.op 1) + BitVec.ofNat 32 i) l)
        (stored.foldl (fun l x => topkPut (topkBetter mx) k x l) [])
      let full := out ++ List.replicate (64 - out.length) worst
      d.modTile t (fun u => (TileState.write (u.base h + lst)
        (full.flatMap (fun x => leBytes 4 x.1.toNat) ++ full.flatMap (fun x => leBytes 4 x.2.toNat)) u).2)

/-- Run a vector-queue entry whole (06 R170-R180). -/
def Dev.runVector (t h : Nat) (e : QEntry) (d : Dev) : Dev :=
  let w := e.word
  let s := d.half t h
  let ts := d.tile t
  let regs (f : HalfState → HalfState) : Dev := d.modHalf t h f
  let slot := ts.slotBase h + bitsN (e.op ((slotOp w).getD 1)).toNat 11 0
  let fromSlot (k : Dev → Dev) : Dev :=
    let d := d.mendSlot t slot
    match (d.tile t).slotBad slot with
    | some b => d.queuedBad t h e 2 b
    | none => k d
  match opc w with
  | 0x60 => regs (HalfState.setLanes (fA w) (((s.lanes (fB w) 1).zip ((laneOperand s e).zip (s.lanes (fD w) 1))).map
      (fun x => vopLane (bw w 3 0) x.1 x.2.1 x.2.2)))
  | 0x61 => regs (HalfState.setLanes (fA w) ((s.lanes (fB w) 1).map (vfnLane (fFN w))))
  | 0x62 => regs (HalfState.setReg (fA w) (bitsWord (((s.lanes (fB w) 1).zip (laneOperand s e)).map (fun x => vcmpLane (bw w 2 0) x.1 x.2))))
  | 0x63 => regs (HalfState.setLanes (fA w) ((List.range 64).map (fun i =>
      if (e.op 3).getLsbD i then s.lane (fB w) i else s.lane (fC w) i)))
  | 0x64 =>
    let l := (e.op 2).toNat % 64
    (match fFN w with
    | 0 => regs (HalfState.setLanes (fA w) (List.replicate 64 (lo32 (e.op 1))))
    | 1 => regs (HalfState.setLanes (fA w) ((s.lanes (fA w) 1).set l (lo32 (e.op 1))))
    | _ => regs (HalfState.setReg (fA w) ((s.lane (fB w) l).setWidth 64)))
  | 0x65 => d.runVld t h e
  | 0x66 => d.vecStore t h e ((s.lanes (fB w) 1).map f32Num)
  | 0x67 => fromSlot (Dev.modHalf t h (HalfState.setLanes (fA w) ((List.range 256).map (fun i => toF32Sat (vecSat e) (ts.held slot i)))))
  | 0x68 => d.modTile t (fun u => TileState.setTag slot 0 ((s.lanes (fB w) 4).zipIdx.foldl (fun u x => TileState.setStored slot x.2 x.1 u) u))
  | 0x69 => fromSlot (Dev.vecStore t h e ((List.range 256).map (fun i => ts.held slot i)))
  | 0x6A => fromSlot (Dev.modHalf t h (HalfState.setLanes (fA w) ((List.range 256).map (fun i =>
      epL2 (ts.held slot i) (lo32 (e.op 3)) (s.lane (fC w + i / 64) (i % 64))))))
  | 0x6B =>
    let d := d.tileMend t (winTags + slot) 1
    (match (d.tile t).badIn (winTags + slot) 1 with
    | some b => d.queuedBad t h e 2 b
    | none => d.modHalf t h (HalfState.setReg (fA w) (BitVec.ofInt 64 (ts.tag slot))))
  | 0x6C => regs (HalfState.setLanes (fA w) (padLanes [vredLane (bw w 1 0 == 1) (bw w 4 4 == 1) (s.lane (fA w) 0)
      (s.lanes (fB w) (cntRegs (bw w 3 2)))]))
  | 0x6D => regs (HalfState.setLanes (fA w) (padLanes (vmvLanes (bw w 4 4 == 1) (s.lane (fA w) 0) (s.lane (fA w) 1) (s.lane (fA w) 2)
      (s.lanes (fB w) (cntRegs (bw w 3 2))))))
  | 0x6E => d.runVtopk t h e
  | _ => d

end Sys2Proof.Machine
end

