-- ==== Sys2Proof/Machine/TileRun.lean ====
section
/-! DEFINITION. Queues and channels at work (03 R64-R68, R73, R74; 05 R120, R129-R132, R139-R143; 07 R198-R201): starting the head of a queue, movement descriptors, and the sending of global operations. -/
namespace Sys2Proof.Machine

/-! ## Descriptors (07 R198, R199) -/

/-- A descriptor's fields (07 Table 2). -/
structure MvDesc where
  op    : Nat
  esz   : Nat
  sloc  : Bool
  dloc  : Bool
  sig   : Bool
  sigloc : Bool
  resv  : Nat
  len0  : Nat
  src   : W64
  dst   : W64
  cnt1  : Nat
  cnt2  : Nat
  sstr1 : Int
  dstr1 : Int
  sstr2 : Int
  dstr2 : Int
  siga  : W64
  sigv  : W64
deriving DecidableEq, Repr

/-- The fields that 64 bytes spell. -/
def mvDesc (bs : List Byte) : MvDesc :=
  let c := leAt bs 0 4
  { op := bitsN c 3 0, esz := 2 ^ bitsN c 5 4, sloc := bitsN c 6 6 == 1, dloc := bitsN c 7 7 == 1, sig := bitsN c 8 8 == 1
    sigloc := bitsN c 9 9 == 1, resv := bitsN c 31 10, len0 := leAt bs 4 4
    src := BitVec.ofNat 64 (leAt bs 8 8), dst := BitVec.ofNat 64 (leAt bs 16 8), cnt1 := leAt bs 24 4, cnt2 := leAt bs 28 4
    sstr1 := signedN 32 (leAt bs 32 4), dstr1 := signedN 32 (leAt bs 36 4), sstr2 := signedN 32 (leAt bs 40 4)
    dstr2 := signedN 32 (leAt bs 44 4), siga := BitVec.ofNat 64 (leAt bs 48 8), sigv := BitVec.ofNat 64 (leAt bs 56 8) }

/-- A global address: a local one stands on this part (07 R199). -/
def Dev.toGlobal (d : Dev) (isLoc : Bool) (a : W64) : W64 :=
  if isLoc then BitVec.ofNat 64 (d.node * 2 ^ 44 + gLoc a) else a

/-- The lowest and the highest of n multiples of a stride. -/
def stretch (n : Nat) (s : Int) : Int × Int := (min 0 (((n : Int) - 1) * s), max 0 (((n : Int) - 1) * s))

/-- Whether every address formed from a base keeps its node field (07 R199). -/
def keepsNode (base : W64) (l : List (Int × Int)) (last : Nat) : Bool :=
  let lo := l.foldl (fun a r => a + r.1) (gLoc base : Int)
  let hi := l.foldl (fun a r => a + r.2) (gLoc base : Int) + last
  decide (0 ≤ lo) && decide (hi < 2 ^ 44)

/-- Whether a descriptor is malformed (07 R201): nothing is changed. -/
def MvDesc.bad (m : MvDesc) : Bool :=
  let multE (x : Int) : Bool := decide (x % (m.esz : Int) = 0)
  decide (2 < m.op) || nz m.resv || decide (m.len0 < 1) || decide (0x40000000 < m.len0) || decide (m.cnt1 < 1) || decide (m.cnt2 < 1) ||
  (m.op == 2 && !(multE m.len0 && multE m.src.toNat && multE m.dst.toNat && multE m.sstr1 && multE m.dstr1 && multE m.sstr2 && multE m.dstr2)) ||
  (m.op != 1 && !keepsNode m.src [stretch m.cnt1 m.sstr1, stretch m.cnt2 m.sstr2] (m.len0 - 1)) ||
  (if m.op = 2 then !keepsNode m.dst [stretch m.cnt2 m.dstr2, stretch (m.len0 / m.esz) m.dstr1, stretch m.cnt1 m.esz] (m.esz - 1)
   else !keepsNode m.dst [stretch m.cnt1 m.dstr1, stretch m.cnt2 m.dstr2] (m.len0 - 1))

/-- An address offset from a base. -/
def addI (a : W64) (x : Int) : W64 := a + BitVec.ofInt 64 x

/-- A movement descriptor that still has a global write to send: it has not run, reads are out, or its signal is due. -/
def MvEntry.unsent (e : MvEntry) : Bool := !e.run || !e.reads.isEmpty || bitsN (leAt e.desc 0 4) 8 8 == 1

/-- The descriptors of a half that channels hold. -/
def TileState.chanMoves (t : TileState) (h : Nat) : List MvEntry := (t.chans.flatMap Prod.snd).filter (fun e => e.half == h)

/-! ## The scoreboard (03 R65) -/

/-- The slots an entry touches, half-relative, and whether it writes them. -/
def slotsOf (twin : Bool) (e : QEntry) : Option (Nat × Nat × Bool) :=
  let w := e.word
  if 0x40 ≤ opc w ∧ opc w < 0x60 then
    let p := aParams twin e
    if opc w = 0x46 ∨ opc w = 0x47 then none else some (p.s, p.m * p.spm, true)
  else (slotOp w).map (fun i => (bitsN (e.op i).toNat 11 0, 1, opc w == 0x68))

/-- Whether two entries conflict on a slot or its tag. -/
def slotConflict (twin : Bool) (e f : QEntry) : Bool :=
  match slotsOf twin e, slotsOf twin f with
  | some a, some b => meets a.1 a.2.1 b.1 b.2.1 && (a.2.2 || b.2.2)
  | _, _ => false

/-- The physical slots whose values or tags n bytes from a window offset hold. -/
def winSlots (off n : Nat) : List (Nat × Nat) :=
  let part (base unit size : Nat) : List (Nat × Nat) :=
    if meets off n base size then
      let lo := (max off base - base) / unit
      [(lo, (min (off + n) (base + size) - 1 - base) / unit - lo + 1)]
    else []
  part winAcc 1024 0x400000 ++ part winTags 1 4096

/-- The physical slots of its own tile that the descriptor at a half's tile-memory offset reads, as it stands now. -/
def Dev.mvSlots (d : Dev) (t h addr : Nat) : List (Nat × Nat) :=
  let u := d.tile t
  let m := mvDesc (u.bytes (u.base h + addr) 64)
  let src := d.toGlobal m.sloc m.src
  let win : Int := (tileBase + tileSpan * t : Nat)
  let a := stretch m.cnt1 m.sstr1
  let b := stretch m.cnt2 m.sstr2
  let lo : Int := (gLoc src : Int) + a.1 + b.1
  let hi : Int := (gLoc src : Int) + a.2 + b.2 + m.len0
  if m.op = 1 || m.bad || gNode src != d.node || decide (hi ≤ win + winAcc) || decide (win + winBuf ≤ lo) then [] else
  (List.range m.cnt2).flatMap (fun (i2 : Nat) => (List.range m.cnt1).flatMap (fun (i1 : Nat) =>
    let x : Int := (gLoc (addI (addI src (m.sstr2 * i2)) (m.sstr1 * i1)) : Int) - win
    winSlots (max x 0).toNat (x + m.len0 - max x 0).toNat))

/-- Whether an entry writes a slot that a list of physical slots names. -/
def writesSlot (u : TileState) (h : Nat) (e : QEntry) (l : List (Nat × Nat)) : Bool :=
  match slotsOf u.twin e with
  | some a => a.2.2 && l.any (fun x => meets (u.slotBase h + a.1) a.2.1 x.1 x.2)
  | none => false

/-- The descriptors of a half that earlier instructions issued and that no channel has run yet, by offset. -/
def Dev.movesBefore (d : Dev) (t h seq : Nat) : List Nat :=
  ((d.half t h).mq.filter (fun f => f.go && decide (f.seq < seq))).map (fun f => (f.op 1).toNat) ++
  (((d.tile t).chanMoves h).filter (fun f => !f.run && decide (f.seq < seq))).map (fun f => f.addr)

/-- Whether a started array instruction has released its slots to a later reader: a slot is released once it is final, before
the instruction completes, and the commands say when a reader starts (06 R167; DEDUCED, safe, log 16). -/
def finalFor (e f : QEntry) : Bool := f.started && decide (opc f.word < 0x60) && decide (opc e.word ≠ 0x68)

/-- Whether the head of a queue waits for an earlier conflicting access of another queue to a slot, which lasts until that
instruction has completed or has released the slot (03 R65). A descriptor waits in its channel (`mvWaits`). -/
def Dev.slotWaits (d : Dev) (t h : Nat) (q : QueueId) (e : QEntry) : Bool :=
  let s := d.half t h
  let u := d.tile t
  let other := match q with
    | .array => s.vq
    | .vector => s.aq
    | .movement => []
  e.go && decide (q ≠ .movement) && (other.any (fun f => f.go && decide (f.seq < e.seq) && slotConflict u.twin e f && !(q == .vector && finalFor e f)) ||
    (d.movesBefore t h e.seq).any (fun a => writesSlot u h e (d.mvSlots t h a)))

/-- Whether a descriptor in its channel waits for earlier array and vector instructions that write slots it reads. -/
def Dev.mvWaits (d : Dev) (t : Nat) (e : MvEntry) : Bool :=
  let s := d.half t e.half
  (s.aq ++ s.vq).any (fun f => f.go && decide (f.seq < e.seq) && !(f.started && decide (opc f.word < 0x60)) && writesSlot (d.tile t) e.half f (d.mvSlots t e.half e.addr))

/-- The head of a queue whose token wait is met and which nothing else holds (05 R129, R130): its half runs, no fault or
halt stops the queues, and no slot access of another queue comes before it. -/
def Dev.couldStart (d : Dev) (t h : Nat) (q : QueueId) : Option QEntry :=
  let s := d.half t h
  match s.queue? q with
  | [] => none
  | e :: _ =>
    if (decide (s.mode = .run) || decide (s.mode = .wait)) && s.fault.isNone && !s.halting && !e.started && s.waitMet e.word &&
        !d.slotWaits t h q e then some e else none

/-- The queues that come before one where waiters meet on a token (05 R131). -/
def queuesBefore : QueueId → List QueueId
  | .array => []
  | .vector => [.array]
  | .movement => [.array, .vector]

/-- The waiters of higher priority that stand ready to take a token: a `tok.wait` with all its tokens, and the heads of the
queues before (05 R131). -/
def Dev.rivals (d : Dev) (t h : Nat) (q : QueueId) (k : Nat) : Nat :=
  let s := d.half t h
  b2n (match s.wait with
    | some { what := .token m, .. } => m.getLsbD k && s.haveTokens m
    | _ => false) +
  ((queuesBefore q).filter (fun p => (d.couldStart t h p).any (fun e => fWV e.word && fWT e.word == k))).length

/-- The head of a queue that may start now: the count of its token also serves the waiters before it (05 R129-R131). -/
def Dev.ready (d : Dev) (t h : Nat) (q : QueueId) : Option QEntry :=
  (d.couldStart t h q).filter (fun e => !fWV e.word || decide (d.rivals t h q (fWT e.word) < (d.half t h).token (fWT e.word)))

/-- Drop the head of a queue. -/
def HalfState.popQueue (q : QueueId) (s : HalfState) : HalfState := s.putQueue q (s.queue? q).tail
/-- An entry leaves and completes: its token is signalled (05 R130). -/
def HalfState.finish (source : Nat) (e : QEntry) (s : HalfState) : HalfState := s.signal (sigOf e.word) e.seq e.pc e.bank e.word source
/-- SOURCE of a queue (05 Table 9). -/
def queueNum : QueueId → Nat
  | .array => 1 | .vector => 2 | .movement => 3

/-- The physical channel that an `mv` word names in half h (05 R143). -/
def mvChannel (twin : Bool) (h : Nat) (w : W64) : Nat := bw w 2 0 + (if twin then 4 * h else 0)

/-- Whether a physical lane is one of a half's. -/
def TileState.ownLane (t : TileState) (h l : Nat) : Bool := !t.twin || l / 512 == h
/-- Whether a window offset is a word of a run of physical slots or of their tags. -/
def slotWord (first n b : Nat) : Bool :=
  (decide (winAcc + 1024 * first ≤ b) && decide (b < winAcc + 1024 * (first + n))) ||
  (decide (winTags + first ≤ b) && decide (b < winTags + first + n))

/-- What an array instruction finds before it adds to its slots, `after` being the part once it has (03 R74). -/
def Dev.undoOf (d : Dev) (t h : Nat) (e : QEntry) (after : Dev) : ArrayUndo :=
  let u := d.tile t
  let p := aParams u.twin e
  let first := u.slotBase h + p.s
  let n := p.m * p.spm
  { acc := u.acc.filter (fun x => decide (256 * first ≤ x.1) && decide (x.1 < 256 * (first + n)))
    tags := u.tags.filter (fun x => decide (first ≤ x.1) && decide (x.1 < first + n))
    bad := u.bad.filter (slotWord first n)
    stage := u.stage.filter (fun x => u.ownLane h x.1)
    badLanes := u.badLanes.filter (u.ownLane h)
    active := (after.tile t).active - u.active
    rescale := (after.half t h).rescale - (d.half t h).rescale
    sat := (after.half t h).sat - (d.half t h).sat }

/-- Put back what an array instruction in progress found (03 R74). -/
def Dev.undoRun (t h : Nat) (e : QEntry) (x : ArrayUndo) (d : Dev) : Dev :=
  (d.modTile t (fun u =>
    let p := aParams u.twin e
    let first := u.slotBase h + p.s
    let n := p.m * p.spm
    { u with
      acc := x.acc.foldl (fun m c => mapSet 0 m c.1 c.2) (u.acc.filter (fun c => !(decide (256 * first ≤ c.1) && decide (c.1 < 256 * (first + n)))))
      tags := x.tags.foldl (fun m c => mapSet 0 m c.1 c.2) (u.tags.filter (fun c => !(decide (first ≤ c.1) && decide (c.1 < first + n))))
      bad := x.bad ++ u.bad.filter (fun b => !slotWord first n b)
      stage := x.stage.foldl (fun m c => mapPut m c.1 c.2) (u.stage.filter (fun c => !u.ownLane h c.1))
      badLanes := x.badLanes ++ u.badLanes.filter (fun l => !u.ownLane h l)
      active := u.active - x.active })).modHalf t h (fun s => { s with rescale := s.rescale - x.rescale, sat := s.sat - x.sat, undo := none })

/-- The head of a queue starts (05 R130): a guarded-off entry completes; an array or vector instruction has its whole
effect and stays until it completes, what an array instruction found being kept in case a stop ends it earlier; an `mv`
goes to its channel. -/
def Dev.startHead (t h : Nat) (q : QueueId) (d : Dev) : Dev :=
  match d.ready t h q with
  | none => d
  | some e =>
    let d1 := d.modHalf t h (HalfState.takeWait e.word)
    if !e.go then d1.modHalf t h (fun s => (s.popQueue q).finish (queueNum q) e)
    else
      let mark (s : HalfState) : HalfState := s.putQueue q (match s.queue? q with
        | [] => []
        | x :: r => { x with started := true } :: r)
      match q with
      | .array =>
        let d2 := d1.modHalf t h mark
        let r := d2.runArray t h e none
        if r.2 && !(aParams (d.tile t).twin e).isWld && opc e.word != 0x46 then
          r.1.modHalf t h (fun s => { s with undo := some (d2.undoOf t h e r.1) })
        else r.1
      | .vector => (d1.modHalf t h mark).runVector t h e
      | .movement => (d1.modHalf t h (HalfState.popQueue .movement)).modTile t (fun u =>
          { u with chans := mapMod [] u.chans (mvChannel u.twin h e.word) (fun l => l ++
            [{ half := h, seq := e.seq, pc := e.pc, bank := e.bank, word := e.word, addr := (e.op 1).toNat, sig := sigOf e.word }]) })

/-- Issue into a queue, the instruction starting at once where its queue is empty and it may (05 R120, R130). -/
def Dev.issueStart (t h : Nat) (w : W64) (q : QueueId) (regs : List Nat) (fault : Dev → HalfState → QEntry → Option (Nat × W64))
    (upd : QEntry → HalfState → HalfState) (d : Dev) : Dev :=
  let d1 := d.issueQueue t h w q regs fault upd
  if ((d.half t h).queue? q).isEmpty then d1.startHead t h q else d1

/-! ## Global operations (05 R139-R141) -/

/-- Whether an operation writes (05 R141). -/
def GlobKind.writes : GlobKind → Bool
  | .load _ => false
  | .store _ => true
  | .atom _ => true

/-- The release condition of `atom.sig` (05 R141). -/
def Dev.sigMayGo (d : Dev) (t h : Nat) (g : GlobOp) : Bool :=
  let s := d.half t h
  let far (node : Nat) : Bool := node == d.node || node != g.node
  s.globs.all (fun f => !(decide (f.seq < g.seq) && f.kind.writes) || (f.sent && (f.status.isSome || !far f.node))) &&
  s.mq.all (fun e => !(decide (e.seq < g.seq) && e.go)) &&
  ((d.tile t).chanMoves h).all (fun e => !decide (e.seq < g.seq) ||
    (!e.unsent && e.writes.all (fun w => !far (gNode w.2))))

/-- Whether an earlier operation of the half on the same aligned word is still to be performed (05 R139). -/
def Dev.sameWordBefore (d : Dev) (t h : Nat) (g : GlobOp) : Bool :=
  (d.half t h).globs.any (fun f => decide (f.seq < g.seq) && f.node == g.node && f.loc / 8 == g.loc / 8 && f.status.isNone)

/-- Store what came back for a global operation. -/
def Dev.globAnswer (t h idx : Nat) (status : Nat) (v : W64) (d : Dev) : Dev :=
  let upd (g : GlobOp) : GlobOp := { g with sent := true, status := some status, value := v }
  d.modHalf t h (fun s => { s with globs := updWhere (fun g => g.idx == idx) upd s.globs })

/-- The memory operation of a global operation. -/
def GlobOp.memOp (g : GlobOp) : MemOp :=
  match g.kind with
  | .load w32 => .read (if w32 then 4 else 8)
  | .store w32 => .write (leBytes (if w32 then 4 else 8) g.x.toNat)
  | .atom op => .atomic op g.x g.c

/-- The request packet of a global operation. -/
def Dev.globPacket (d : Dev) (t h : Nat) (g : GlobOp) : Packet :=
  let ep := 2 * t + h
  match g.kind with
  | .load w32 => d.pkRead ep g.node g.loc (if w32 then 4 else 8)
  | .store w32 => d.pkWrite ep g.node g.loc (leBytes (if w32 then 4 else 8) g.x.toNat)
  | .atom op => d.pkAtomic ep g.node g.loc op g.x g.c

/-- Send a global operation where it may go: one on this part is performed unless a repair holds it (07 R210), another's
request leaves (05 R138-R141). -/
def Dev.globTry (t h : Nat) (g : GlobOp) (d : Dev) : Dev :=
  if g.sent || d.sameWordBefore t h g || (decide (g.kind = .atom .sig) && !d.sigMayGo t h g) then d
  else if g.node = d.node then
    d.orWait id (fun d =>
      let r := d.memAccess (d.halfWho t h) g.loc g.memOp
      r.2.2.globAnswer t h g.idx r.1 (BitVec.ofNat 64 (leNat r.2.1)))
  else
    let d1 := d.modHalf t h (fun s => { s with globs := updWhere (fun f => f.idx == g.idx) (fun f => { f with sent := true }) s.globs })
    (d1.request (2 * t + h) (.global t h g.idx) (d1.globPacket t h g)).2

/-- Send every operation of a half that may now go, in program order. -/
def Dev.globPump (t h : Nat) (d : Dev) : Dev := runAll (d.half t h).globs (fun g d => d.globTry t h g) d

/-! ## Movement descriptors (07 R199-R201) -/

/-- A piece of a move: source, destination, length (07 R200). -/
abbrev MvPiece := W64 × W64 × Nat

/-- Cut a run into pieces that cross no 64-byte boundary of the destination (07 R200). -/
def cutPieces : Nat → W64 → W64 → Nat → List MvPiece
  | 0, _, _, _ => []
  | fuel + 1, s, t, n =>
    if n = 0 then [] else
    let k := min n (64 - t.toNat % 64)
    (s, t, k) :: cutPieces fuel (s + BitVec.ofNat 64 k) (t + BitVec.ofNat 64 k) (n - k)

/-- The pieces of a descriptor in order (07 R199 mv_run); the source of a fill is not read, and stands at its destination. -/
def MvDesc.pieces (m : MvDesc) (src dst : W64) : List MvPiece :=
  (List.range m.cnt2).flatMap (fun (i2 : Nat) => (List.range m.cnt1).flatMap (fun (i1 : Nat) =>
    let s := addI (addI src (m.sstr2 * i2)) (m.sstr1 * i1)
    if m.op = 2 then
      (List.range (m.len0 / m.esz)).map (fun (j : Nat) =>
        (s + BitVec.ofNat 64 (j * m.esz), addI (addI dst (m.dstr2 * i2)) (m.dstr1 * j + (i1 * m.esz : Nat)), m.esz))
    else
      let t := addI (addI dst (m.dstr2 * i2)) (m.dstr1 * i1)
      cutPieces m.len0 (if m.op = 1 then t else s) t m.len0))

/-- One address of the two by which an HBM byte is seen. -/
def canonLoc (a : Nat) : Nat :=
  if stackBase ≤ a ∧ a < stackBase + 8 * stackSpan ∧ (a - stackBase) % stackSpan < stackSize then
    interOf ((a - stackBase) / stackSpan) ((a - stackBase) % stackSpan) else a

/-- The bytes of pieces, as node and local address. -/
def mvBytes (l : List W64) : List (Nat × Nat) := l.map (fun a => (gNode a, canonLoc (gLoc a)))

/-- The fault of a move that a status stands for (07 R184, R201, R205): a refusal that this part makes under R184, a
sealed row's among them, is a range; an intake operation refused, a frozen range and any refusal elsewhere are REMOTE. -/
def moveFault (isHere : Bool) (st : Nat) : Nat :=
  if st = stMemError then fltMemError else if st = stDraught then fltDraught
  else if isHere && (st == stRefused || st == stSeal) then fltMemRange else fltRemote

/-- An address of a move as its descriptor names it: one taken as local has no node bits (05 Table 9; log 28). -/
def MvEntry.named (e : MvEntry) (ofSrc : Bool) (a : W64) : W64 :=
  let m := mvDesc e.desc
  if (if ofSrc then m.sloc else m.dloc) then BitVec.ofNat 64 (gLoc a) else a

/-- Change the head of a channel. -/
def Dev.modChanHead (t ch : Nat) (f : MvEntry → MvEntry) (d : Dev) : Dev :=
  d.modTile t (fun u => { u with chans := mapMod [] u.chans ch (fun l => match l with
    | [] => []
    | e :: r => f e :: r) })

/-- A movement channel meets a fault (05 R146, Table 9): source 3 with its channel. Its descriptor stops at once and
writes nothing more (07 R201). -/
def Dev.raiseMove (t ch : Nat) (e : MvEntry) (cls : Nat) (detail : W64) (d : Dev) : Dev :=
  (d.raise t e.half { cls := cls, source := 3, channel := ch, seq := e.seq, pc := e.pc, bank := e.bank, word := e.word, detail := detail, time := 0, precise := false }).modChanHead
    t ch (fun f => { f with reads := [], cut := true })

/-- Write bytes of a move at a global address: here, or by a request recorded before it leaves. The answer is a status. -/
def Dev.mvWrite (t ch : Nat) (h : Nat) (a : W64) (bs : List Byte) (d : Dev) : Nat × Dev :=
  if gNode a = d.node then
    let r := d.memAccess (d.halfWho t h) (gLoc a) (.write bs)
    (r.1, r.2.2)
  else
    let tag := d.lnk.nextTag
    let d1 := d.modChanHead t ch (fun e => { e with writes := e.writes ++ [(tag, a)] })
    (0, (d1.request (2 * t + h) (.move t ch) (d1.pkWrite (2 * t + h) (gNode a) (gLoc a) bs)).2)

/-- Free values in place of the bytes of a piece that lie in the overlap of source and destination (07 R200). -/
def Dev.overlapBytes (overlap : List (Nat × Nat)) (p : MvPiece) (bs : List Byte) (d : Dev) : List Byte × Dev :=
  let inOver (a : W64) : Bool := overlap.contains (gNode a, canonLoc (gLoc a))
  bs.zipIdx.foldl (fun (acc : List Byte × Dev) x =>
    if inOver (p.1 + BitVec.ofNat 64 x.2) || inOver (p.2.1 + BitVec.ofNat 64 x.2) then
      let f := acc.2.takeFree
      (acc.1 ++ [f.1.setWidth 8], f.2)
    else (acc.1 ++ [x.1], acc.2)) ([], d)

/-- Bytes for another part, gathered until their packet is full: its address and data. -/
abbrev MvOut := Option (W64 × List Byte)

/-- Send what is gathered. -/
def Dev.mvFlush (t ch h : Nat) (b : MvOut) (d : Dev) : Dev :=
  match b with
  | none => d
  | some (a, bs) => (d.mvWrite t ch h a bs).2

/-- Place a piece: here at once; for another part it joins the bytes just before it, as far as one packet may reach
(13 R355: consecutive bytes that cross no 4 KiB boundary). -/
def Dev.mvPut (t ch h : Nat) (a : W64) (bs : List Byte) (b : MvOut) (d : Dev) : Nat × MvOut × Dev :=
  if gNode a = d.node then
    let r := (d.mvFlush t ch h b).mvWrite t ch h a bs
    (r.1, none, r.2)
  else match b with
    | some (a0, bs0) =>
      if a0 + BitVec.ofNat 64 bs0.length == a && a0.toNat / 4096 == a.toNat / 4096 then (stOk, some (a0, bs0 ++ bs), d)
      else (stOk, some (a, bs), d.mvFlush t ch h b)
    | none => (stOk, some (a, bs), d)

/-- The runs of n bytes that cross no 64-byte boundary, n being at most 64. -/
def blockRuns (a : W64) (n : Nat) : List (W64 × Nat) :=
  let k := min n (64 - a.toNat % 64)
  if k < n then [(a, k), (a + BitVec.ofNat 64 k, n - k)] else [(a, n)]

/-- Read runs of this part: a status, the address that failed, and the bytes. -/
def Dev.mvRead (t h : Nat) : List (W64 × Nat) → List Byte → Dev → (Nat × W64 × List Byte) × Dev
  | [], got, d => ((stOk, 0, got), d)
  | (a, n) :: rest, got, d =>
    let r := d.memAccess (d.halfWho t h) (gLoc a) (.read n)
    if r.1 ≠ stOk then ((r.1, a, []), r.2.2) else Dev.mvRead t h rest (got ++ r.2.1) r.2.2

/-- Do the pieces of a copy or a transpose in order, `n` bytes having been moved before; a fault stops it (07 R201). -/
def Dev.mvPieces (t ch : Nat) (e : MvEntry) (overlap : List (Nat × Nat)) : List MvPiece → Nat → MvOut → Dev → Dev
  | [], _, b, d => d.mvFlush t ch e.half b
  | p :: rest, n, b, d =>
    if gNode p.1 = d.node then
      let r := d.mvRead t e.half (blockRuns p.1 p.2.2) []
      if r.1.1 ≠ stOk then (r.2.mvFlush t ch e.half b).raiseMove t ch e (moveFault true r.1.1) (e.named true r.1.2.1) else
      let o := r.2.overlapBytes overlap p r.1.2.2
      let w := o.2.mvPut t ch e.half p.2.1 o.1 b
      if w.1 = stOk then Dev.mvPieces t ch e overlap rest (n + p.2.2) w.2.1 w.2.2
      else w.2.2.raiseMove t ch e (moveFault true w.1) (e.named false p.2.1)
    else
      let d0 := d.mvFlush t ch e.half b
      let tag := d0.lnk.nextTag
      let d1 := d0.modChanHead t ch (fun e => { e with reads := e.reads ++ [{ rtag := tag, off := n, src := p.1, dst := p.2.1, len := p.2.2 }] })
      Dev.mvPieces t ch e overlap rest (n + p.2.2) none (d1.request (2 * t + e.half) (.move t ch) (d1.pkRead (2 * t + e.half) (gNode p.1) (gLoc p.1) p.2.2)).2

/-- The pieces of a fill, each with the bytes its pattern gives it (07 R199). -/
def Dev.mvFill (t ch : Nat) (e : MvEntry) (m : MvDesc) : List (MvPiece × Nat) → MvOut → Dev → Dev
  | [], b, d => d.mvFlush t ch e.half b
  | (p, x) :: rest, b, d =>
    let bs := (List.range p.2.2).map (fun j => listGet (0 : Byte) (leBytes 8 m.src.toNat) ((x + j) % 8))
    let r := d.mvPut t ch e.half p.2.1 bs b
    if r.1 = stOk then Dev.mvFill t ch e m rest r.2.1 r.2.2 else r.2.2.raiseMove t ch e (moveFault true r.1) (e.named false p.2.1)

/-- The pieces of a fill with the place of each in its row. -/
def MvDesc.fillPieces (m : MvDesc) (dst : W64) : List (MvPiece × Nat) :=
  (List.range m.cnt2).flatMap (fun (i2 : Nat) => (List.range m.cnt1).flatMap (fun (i1 : Nat) =>
    let t := addI (addI dst (m.dstr2 * i2)) (m.dstr1 * i1)
    (cutPieces m.len0 t t m.len0).map (fun p => (p, (p.2.1 - t).toNat))))

/-- The first n bytes of a run of pieces. -/
def takePieces : Nat → List MvPiece → List MvPiece
  | _, [] => []
  | n, p :: rest => if n = 0 then [] else (p.1, p.2.1, min n p.2.2) :: takePieces (n - p.2.2) rest
/-- The first n bytes of the pieces of a fill. -/
def takeFill : Nat → List (MvPiece × Nat) → List (MvPiece × Nat)
  | _, [] => []
  | n, p :: rest => if n = 0 then [] else ((p.1.1, p.1.2.1, min n p.1.2.2), p.2) :: takeFill (n - p.1.2.2) rest
/-- The bytes that a descriptor moves. -/
def MvDesc.total (m : MvDesc) : Nat := m.len0 * m.cnt1 * m.cnt2

/-- A movement channel reads the descriptor at its head, checks it, and moves its bytes, or the first `lim` of them where a
stop ends it there (03 R74; 07 R198-R201). -/
def Dev.mvGo (t ch : Nat) (e : MvEntry) (lim : Option Nat) (d : Dev) : Dev :=
  let at' := winAddr t ((d.tile t).base e.half + e.addr)
  match d.rangeFault t e.half e.addr 64 with
  | some c => d.raiseMove t ch e c at'
  | none =>
    match d.tileRead t ((d.tile t).base e.half + e.addr) 64 with
    | (none, d1) => d1.raiseMove t ch e fltMemError at'
    | (some bs, d1) =>
      let m := mvDesc bs
      let n := lim.getD m.total
      let e := { e with run := true, desc := bs, cut := decide (n < m.total) }
      let d2 := d1.modChanHead t ch (fun _ => e)
      if m.bad then d2.raiseMove t ch e fltMemRange at' else
      let src := d2.toGlobal m.sloc m.src
      let dst := d2.toGlobal m.dloc m.dst
      if m.op = 1 then d2.mvFill t ch e m (takeFill n (m.fillPieces dst)) none
      else
        let ps := m.pieces src dst
        let spread (f : MvPiece → W64) : List (Nat × Nat) := mvBytes (ps.flatMap (fun p => (List.range p.2.2).map (fun i => f p + BitVec.ofNat 64 i)))
        let ss := spread (fun p => p.1)
        d2.mvPieces t ch e ((spread (fun p => p.2.1)).filter (fun b => ss.contains b)) (takePieces n ps) 0 none

/-- A movement channel runs the descriptor at its head (07 R198-R201), once no earlier access to a slot that it reads
remains (03 R65), and unless a repair holds one of its accesses (07 R210). -/
def Dev.mvRun (t ch : Nat) (d : Dev) : Dev :=
  match mapGet [] (d.tile t).chans ch with
  | [] => d
  | e :: _ =>
    let s := d.half t e.half
    if e.run || s.fault.isSome || s.halting || decide (s.mode = .stopped) || decide (s.mode = .frozen) || d.mvWaits t e then d
    else d.orWait id (Dev.mvGo t ch e none)

/-- What has come back for the head of a channel: a failure stops the descriptor, data read is written (07 R201) until
its half is STOPPED or FROZEN (03 R73, R74). -/
def Dev.movePump (t ch : Nat) (d : Dev) : Dev :=
  match mapGet [] (d.tile t).chans ch with
  | [] => d
  | e :: _ =>
    let mode := (d.half t e.half).mode
    if decide (mode = .stopped) || decide (mode = .frozen) then d else
    match e.fail with
    | some (st, a) => if (d.half t e.half).fault.isSome then d else d.raiseMove t ch e (moveFault false st) a
    | none =>
      let got := e.reads.filterMap (fun r => r.got.map (fun bs => (r, bs)))
      let d1 := d.modChanHead t ch (fun e => { e with reads := e.reads.filter (fun r => r.got.isNone) })
      runAll got (fun x d =>
        let r := d.mvWrite t ch e.half x.1.dst (x.2.take x.1.len)
        if r.1 = stOk then r.2 else r.2.raiseMove t ch e (moveFault true r.1) (e.named false x.1.dst)) d1

/-- The release signal of a descriptor (07 R199), a global operation of its half. -/
def Dev.mvSignal (t : Nat) (e : MvEntry) (m : MvDesc) (d : Dev) : Dev :=
  let a := d.toGlobal m.sigloc m.siga
  let g (s : HalfState) : GlobOp :=
    { idx := s.nextIdx, kind := .atom .sig, dst := 0, node := gNode a, loc := gLoc a, x := m.sigv, c := 0, seq := e.seq
      pc := e.pc, bank := e.bank, word := e.word, sig := none, ofMove := true, byLoc := m.sigloc }
  (d.modHalf t e.half (fun s => { s with globs := s.globs ++ [g s], nextIdx := s.nextIdx + 1 })).globPump t e.half

/-- The head descriptor of a channel completes: every read and write is done, its signal is sent when SIG is set, and
its token is signalled (05 Table 7, 07 R200). -/
def Dev.mvDone (t ch : Nat) (d : Dev) : Dev :=
  match mapGet [] (d.tile t).chans ch with
  | [] => d
  | e :: rest =>
    if e.run && !e.cut && e.reads.isEmpty && e.writes.isEmpty && e.fail.isNone && (d.half t e.half).fault.isNone then
      let m := mvDesc e.desc
      let fin (s : HalfState) : HalfState := s.signal e.sig e.seq e.pc e.bank e.word 3
      let d1 := (d.modTile t (fun u => { u with chans := mapPut u.chans ch rest })).modHalf t e.half fin
      (if m.sig then d1.mvSignal t e m else d1).globPump t e.half
    else d

/-! ## Stops (03 R74) -/

/-- A global write: a store or an atomic (05 R141). -/
def GlobOp.isWrite (g : GlobOp) : Bool :=
  match g.kind with
  | .load _ => false
  | .store _ => true
  | .atom _ => true

/-- Whether every global write of a half has been acknowledged, those of `mv` included with the signal of a descriptor that
sets SIG (05 R142 fence.rel; 07 R199). -/
def Dev.writesAcked (d : Dev) (t h : Nat) : Bool :=
  let s := d.half t h
  s.globs.all (fun g => !g.isWrite || g.status.isSome) && s.mq.all (fun e => !e.go) &&
  ((d.tile t).chanMoves h).all (fun e => !e.unsent && e.writes.isEmpty)

/-- Whether the conditions of an ended task hold (05 R144). -/
def Dev.taskOver (d : Dev) (t h : Nat) : Bool :=
  let s := d.half t h
  s.ended.isSome && s.fault.isNone && (decide (s.mode = .run) || decide (s.mode = .wait)) && s.aq.isEmpty && s.vq.isEmpty && s.mq.isEmpty &&
  s.globs.isEmpty && ((d.tile t).chanMoves h).isEmpty && d.writesAcked t h

/-- A halt or a queue stop is asked of a half that holds a task (03 R74): a wait in progress ends at once, without its
predicate or its token (05 R137). -/
def HalfState.askHalt (s : HalfState) : HalfState :=
  match s.mode with
  | .run | .wait => { s with halting := true, wait := none, mode := .run }
  | .idle | .stopped | .frozen => s

/-- The same with the descriptors of the half, each of which ends at its next 4 KiB boundary (03 R74). -/
def Dev.haltHalf (t h : Nat) (d : Dev) : Dev :=
  if decide ((d.half t h).mode = .run) || decide ((d.half t h).mode = .wait) then
    (d.modTile t (TileState.endMoves h)).modHalf t h HalfState.askHalt
  else d
/-- A halt of both halves of a tile (03 R74). -/
def Dev.haltTile (t : Nat) (d : Dev) : Dev := (d.haltHalf t 0).haltHalf t 1

/-- The array instruction in progress ends at a row boundary: `rows` activation rows of the head of the array queue have
been added (03 R73, R74). One that has not started counts as in progress where it could run and a row is given. -/
def Dev.partRun (t h rows : Nat) (d : Dev) : Dev :=
  let s := d.half t h
  match s.aq with
  | [] => d
  | e :: _ =>
    match s.undo with
    | some x => ((d.undoRun t h e x).runArray t h e (some rows)).1
    | none =>
      if rows != 0 && e.go && !e.started && s.waitMet e.word && !d.slotWaits t h .array e then
        ((d.modHalf t h (HalfState.takeWait e.word)).runArray t h e (some rows)).1
      else d

/-- The descriptors at the heads of a half's channels that have begun end at a 4 KiB boundary: `moves` gives, for each
channel, the portions of 4 KiB that have been moved (03 R73, R74; 07 R200). -/
def Dev.partMoves (t h : Nat) (moves : List Nat) (d : Dev) : Dev :=
  runAll (List.range 8) (fun ch d =>
    match mapGet [] (d.tile t).chans ch with
    | [] => d
    | e :: _ =>
      if e.half == h && !e.run && listGet 0 moves ch != 0 && !d.mvWaits t e then d.mvGo t ch e (some (4096 * listGet 0 moves ch)) else d) d

/-- A half empties what a task left: queues, tokens, waits, faults, operations outstanding (03 R73, 05 R144). -/
def HalfState.clearTask (s : HalfState) : HalfState :=
  { s with
    tokens := [], sigs := [], aq := [], vq := [], mq := [], undo := none, wait := none, globs := [], stage := none, winFmt := []
    fault := none, halting := false, ended := none, owner := 0xFF, queue := none, resv := [] }

/-- Drop the descriptors of a half from its channels. -/
def TileState.dropMoves (h : Nat) (t : TileState) : TileState :=
  { t with chans := t.chans.map (fun c => (c.1, c.2.filter (fun e => e.half != h))) }

end Sys2Proof.Machine
end

