-- ==== Sys2Proof/Machine/FeOps.lean ====
section
/-! DEFINITION. Operations of the command front end (12): completion entries and their rings, the ends of tasks, stops, descriptors and dispatch. -/
namespace Sys2Proof.Machine

/-- Change front-end state. -/
def Dev.modFe (f : FeState → FeState) (d : Dev) : Dev := { d with fe := f d.fe }
/-- A submission queue that is not FREE. -/
def Dev.sq (d : Dev) (q : Nat) : Option SqState := mapFind d.fe.sqs q
def Dev.putSq (q : Nat) (s : SqState) (d : Dev) : Dev := d.modFe (fun f => { f with sqs := mapPut f.sqs q s })
def Dev.modSq (q : Nat) (f : SqState → SqState) (d : Dev) : Dev :=
  match d.sq q with
  | some s => d.putSq q (f s)
  | none => d
/-- A completion queue that is not FREE; 256 + c is the admin completion queue of context c. -/
def Dev.cq (d : Dev) (c : Nat) : Option CqState := mapFind d.fe.cqs c
def Dev.putCq (c : Nat) (s : CqState) (d : Dev) : Dev := d.modFe (fun f => { f with cqs := mapPut f.cqs c s })
def Dev.modCq (c : Nat) (f : CqState → CqState) (d : Dev) : Dev :=
  match d.cq c with
  | some s => d.putCq c (f s)
  | none => d
/-- An engine. -/
def Dev.engine (d : Dev) (k : Nat) : EngineFe := mapGet {} d.fe.engines k
def Dev.modEngine (k : Nat) (f : EngineFe → EngineFe) (d : Dev) : Dev :=
  d.modFe (fun s => { s with engines := mapMod {} s.engines k f })
/-- The key of an engine: its endpoint (11 Table 1). -/
def engKey : Engine → Nat
  | .tile t h => 2 * t + h
  | .churn s => 168 + s
  | .breeze s => 184 + s
/-- The function that presents a context (12 R318). -/
def Dev.ctxFunc (d : Dev) (c : Nat) : Nat := if d.vfOn c then c + 1 else 0
/-- The context of a completion queue: the one it is allotted to (12 R319). -/
def Dev.cqCtx (d : Dev) (c : Nat) : Nat := if 256 ≤ c then c - 256 else fld (d.word (offCq c + 0x20)) 5 0
/-- FE_CTL.EN (12 Table 10). -/
def Dev.feOn (d : Dev) : Bool := fbit (d.word offFe) 0
/-- Dispatch frozen by the configuration check (17 R443). -/
def Dev.feFrozen (d : Dev) : Bool := d.regs.crcFrozen
/-- The agent that the front end is when it acts for a context (11 Table 1, 07 R196). -/
def Dev.feWho (d : Dev) (ctx : Nat) : Who := { kind := .engine, node := d.node, endpoint := 196, owner := ctx }
/-- A doorbell write that is ignored (12 Table 1). -/
def Dev.dbError (d : Dev) : Dev := (d.modFe (fun f => { f with dbErr := f.dbErr + 1 })).setFlag evFe 0

/-! ## Rings -/

/-- How an access to a ring in host memory goes: it leaves, it waits for a translation, or it cannot (14 R390, R391). -/
inductive RingWay where
  | ok | wait | refused
deriving DecidableEq, Repr

/-- Whether a function may issue requests: the data link is up and Bus Master Enable is 1 (14 R391). -/
def Dev.hostUp (d : Dev) (f : Nat) : Bool := d.pci.dlUp && (d.func f).dma

/-- A write to host memory in requests that exceed neither the Max Payload Size nor a 4 KiB boundary (14 R389). -/
def dmaPieces (mps : Nat) : Nat → Nat → List Byte → List (Nat × List Byte)
  | 0, _, _ => []
  | n + 1, a, bs =>
    if bs.isEmpty then [] else
    let k := min mps (4096 - a % 4096)
    (a, bs.take k) :: dmaPieces mps n (a + k) (bs.drop k)

/-- A function writes host memory. -/
def Dev.dmaOut (f a : Nat) (bs : List Byte) (d : Dev) : Dev :=
  runAll (dmaPieces (128 * 2 ^ (d.func f).maxPayload) bs.length a bs) (fun x d => d.emit (.dmaWrite f (BitVec.ofNat 64 x.1) x.2)) d

/-- The way of a function's write at a host address. -/
def Dev.hostWay (d : Dev) (f : Nat) (a : W64) : RingWay :=
  if !d.hostUp f then .refused
  else if (d.func f).ats then
    match d.pci.atc.find? (fun e => e.1 == f && e.2.1 == a.toNat / 4096) with
    | some e => if e.2.2 then .ok else .refused
    | none => .wait
  else .ok

/-- Write bytes of a ring: posted to host memory, or here (12 R332, R337). -/
def Dev.ringWrite (c : Nat) (q : CqState) (a : W64) (bs : List Byte) (d : Dev) : RingWay × Dev :=
  if q.loc then
    let r := d.memAccess (d.feWho (d.cqCtx c)) a.toNat (.write bs)
    (if r.1 = stOk then .ok else .refused, r.2.2)
  else
    let f := d.ctxFunc (d.cqCtx c)
    match d.hostWay f a with
    | .ok => (.ok, d.emit (.dmaWrite f a bs))
    | .wait => (.wait, d)
    | .refused => (.refused, d)

/-- The address of entry s of a ring (12 R331). -/
def CqState.slot (q : CqState) (s : W32) : W64 := q.base + BitVec.ofNat 64 (32 * ((s - 1).toNat % 2 ^ q.log2))
/-- Whether entry s finds the ring full (12 R335). -/
def CqState.full (q : CqState) (s : W32) : Bool := decide (2 ^ q.log2 < (s - q.head).toNat)
/-- The hold ring is full (12 R336). -/
def CqState.holdFull (q : CqState) : Bool := decide (64 ≤ q.hold.length)

/-- Bytes 4 to 31 of an entry (12 Table 3). -/
def Placed.tail (p : Placed) : List Byte :=
  leBytes 2 p.entry.status ++ leBytes 2 (p.entry.qid % 2048 + 2048 * b2n p.entry.kernel + 4096 * b2n p.held) ++
  leBytes 8 p.entry.tag.toNat ++ leBytes 8 p.entry.start.toNat ++ leBytes 8 p.entry.fin.toNat

/-- A stall is reported: event, fault log, vector (12 R337). -/
def Dev.cqNotify (c : Nat) (a : W64) (d : Dev) : Dev :=
  match d.cq c with
  | none => d
  | some q => ((d.setFlag evFe 2).note 3 6 (if 256 ≤ c then 1024 + (c - 256) else c) a 0 []).sendVector q.vec

/-- A completion queue enters STALLED: what is not written whole is held (12 R337). -/
def Dev.cqStall (c : Nat) (a : W64) (d : Dev) : Dev :=
  match d.cq c with
  | none => d
  | some q =>
    let h := (q.writing ++ q.hold).map (fun p => { p with held := true })
    ((d.putCq c { q with mode := .stalled, hold := h, writing := [], asked := false }).setFlagIf
      (!q.holdFull && decide (64 ≤ h.length)) evFe 3).cqNotify c a

/-- Write bytes 4 to 31 of held or new entries in order, as far as the ring takes them, at most n (12 R332, R336). -/
def Dev.cqPump (c : Nat) : Nat → Dev → Dev
  | 0, d => d
  | n + 1, d =>
    match d.cq c with
    | none => d
    | some q =>
      if q.mode = .stalled then d else
      match q.hold with
      | [] => d
      | p :: rest =>
        if q.full p.seq then d else
        let a := q.slot p.seq
        let r := d.ringWrite c q (a + 4) p.tail
        match r.1 with
        | .ok => Dev.cqPump c n (r.2.putCq c { q with hold := rest, writing := q.writing ++ [p] })
        | .wait => r.2
        | .refused => r.2.cqStall c a

/-- An entry is placed: it takes the next number, and is written or held (12 R331, R336). -/
def Dev.cqPlace (c : Nat) (e : CEntry) (d : Dev) : Dev :=
  match d.cq c with
  | none => d
  | some q =>
    let s := q.placed + 1
    let held := decide (q.mode = .stalled) || q.hold.any (fun p => p.held) || q.full s
    ((d.putCq c { q with placed := s, hold := q.hold ++ [{ entry := e, seq := s, held := held }] }).setFlagIf
      (decide (q.hold.length = 63)) evFe 3).cqPump c (q.hold.length + 1)

/-- A half returns to IDLE from STOPPED or FROZEN (03 R73, 12 R339). -/
def Dev.halfIdle (t h : Nat) (d : Dev) : Dev :=
  (d.modTile t (TileState.dropMoves h)).modHalf t h (fun s => { s.clearTask with mode := .idle })

/-- What follows once an engine's entry is placed: the task no longer counts, and a half that its stop left STOPPED
returns to IDLE (12 R339). -/
def Dev.entryPlaced (k : Nat) (e : CEntry) (d : Dev) : Dev :=
  let d1 := if 1024 ≤ e.qid then d else d.modSq e.qid (fun s => { s with running := s.running - 1 })
  if e.frees && decide (k < 136) && decide ((d1.half (k / 2) (k % 2)).mode = .stopped) then d1.halfIdle (k / 2) (k % 2) else d1

/-- A task's or a command's entry: placed, or kept by its engine while the hold ring is full (12 R336). With its
completion queue FREE it is discarded (R331). -/
def Dev.endEntry (c k : Nat) (e : CEntry) (d : Dev) : Dev :=
  match d.cq c with
  | none => d.entryPlaced k e
  | some q => if q.holdFull then d.putCq c { q with late := q.late ++ [(k, e)] } else (d.cqPlace c e).entryPlaced k e

/-- Entries kept by engines are placed as the hold ring frees, at most n (12 R336). -/
def Dev.cqLate (c : Nat) : Nat → Dev → Dev
  | 0, d => d
  | n + 1, d =>
    match d.cq c with
    | none => d
    | some q =>
      if q.holdFull then d else
      match q.late with
      | [] => d
      | (k, e) :: rest => Dev.cqLate c n (((d.putCq c { q with late := rest }).cqPlace c e).entryPlaced k e)

/-- The hold ring flushes as an obstacle clears (12 R336). -/
def Dev.cqAdvance (c : Nat) (d : Dev) : Dev :=
  match d.cq c with
  | none => d
  | some q => (d.cqPump c q.hold.length).cqLate c q.late.length

/-- Whether an engine keeps an entry in its completion register (12 R336). -/
def Dev.keepsEntry (d : Dev) (k : Nat) : Bool := d.fe.cqs.any (fun c => c.2.late.any (fun e => e.1 == k))

/-! ## The ends of commands, stops and tasks -/

/-- An admin command's entry (12 Table 3). -/
def Dev.adminEntry (ctx : Nat) (tag : W64) (status result : Nat) (d : Dev) : Dev :=
  d.endEntry (256 + ctx) 1024 { qid := 1024 + ctx, status := status, tag := tag, start := BitVec.ofNat 64 result, fin := d.ft.now, irq := true }

/-- Whether an entry of a queue is still to be written (12 R340). -/
def Dev.hasEntry (d : Dev) (c q : Nat) : Bool :=
  match d.cq c with
  | none => false
  | some s => s.hold.any (fun p => p.entry.qid == q) || s.writing.any (fun p => p.entry.qid == q) || s.late.any (fun p => p.2.qid == q)

/-- A queue becomes FREE and its destroy completes (12 R340). -/
def Dev.sqFree (q : Nat) (d : Dev) : Dev :=
  match d.sq q with
  | none => d
  | some s =>
    let d1 := ({ d with wins := d.wins.filter (· != q) }).modFe (fun f => { f with sqs := mapDel f.sqs q })
    let d2 := d1.setFlag evFe 6
    match s.destroyCmd with
    | some (ctx, tag) => d2.adminEntry ctx tag 0 s.destroyed
    | none => d2

/-- The end of TOMBSTONE (12 R340). -/
def Dev.tombEnd (q : Nat) (d : Dev) : Dev :=
  match d.sq q with
  | none => d
  | some s => if s.mode = .tombstone && !d.hasEntry s.cq q then d.sqFree q else d

/-- The last engine has acknowledged a stop: each STOP_SQ that waited completes (12 R331, R339, R340). -/
def Dev.stopDone (q : Nat) (d : Dev) : Dev :=
  match d.sq q with
  | none => d
  | some s =>
    let s1 := { s with stopCmd := [], aborted := 0, mode := (if s.mode = .draining then .tombstone else s.mode) }
    (runAll s.stopCmd (fun c d => d.adminEntry c.1 c.2.1 0 (s.aborted - c.2.2)) (d.putSq q s1)).tombEnd q

/-- A task of a queue on an engine ends with a status: its entry, and the counts and events that go with it (12 R333,
R339, R345). `frees` as in `CEntry`; `fault` says that a running task faulted. -/
def Dev.taskEntry (k : Nat) (t : Task) (status : Nat) (kernel frees fault : Bool) (d : Dev) : Dev :=
  match d.sq t.queue with
  | none => d
  | some s =>
    let gone := status == 1 && !kernel
    let d1 := d.putSq t.queue { s with
      aborted := s.aborted + b2n gone
      destroyed := s.destroyed + b2n (gone && decide (s.mode = .draining))
      mode := (if fault && s.errPause && decide (s.mode = .enabled) then .paused else s.mode) }
    let d2 := (d1.setFlagIf fault evFe 1).setFlagIf (!kernel && status == 2) evFe 5
    d2.endEntry s.cq k { qid := t.queue, status := status, kernel := kernel, tag := BitVec.ofNat 64 (leAt t.desc 8 8)
                         start := t.start, fin := d2.ft.now, irq := bitsN (leAt t.desc 0 4) 6 6 == 1, frees := frees }

/-- The running task of an engine ends (12 R325, R333). -/
def Dev.taskEnd (k status : Nat) (kernel frees fault : Bool) (d : Dev) : Dev :=
  let e := d.engine k
  match e.running with
  | none => d
  | some t =>
    let ran := (d.ft.now - t.start).toNat
    (d.modEngine k (fun e => { e with
      running := none
      used := (if e.holder = some t.queue then e.used + ran else e.used) })).taskEntry k t status kernel frees fault

/-- A draught is discarded: its task ends without having started (12 R330); its window stays reserved until the running
task ends (03 R70). -/
def Dev.draughtEnd (k status : Nat) (d : Dev) : Dev :=
  match (d.engine k).draught with
  | none => d
  | some t =>
    let d1 := d.modEngine k (fun e => { e with draught := none, loaded := false, redo := false, swapped := false })
    let d2 := if k < 136 then d1.modHalf (k / 2) (k % 2) (fun s => { s with drStat := 0, drKernel := false }) else d1
    d2.taskEntry k { t with start := d2.ft.now } status false false false

/-- The engines that hold a task of a queue, as their running task, as a draught, or as an entry not yet placed. -/
def Dev.holders (d : Dev) (q : Nat) : List Nat :=
  (d.fe.engines.filter (fun e =>
    (match e.2.running with
      | some t => t.queue == q
      | none => false) ||
    (match e.2.draught with
      | some t => t.queue == q
      | none => false))).map Prod.fst ++
  (d.fe.cqs.flatMap (fun c => (c.2.late.filter (fun e => e.2.qid == q)).map Prod.fst)).filter (fun k => k < 1024)

/-- A stop reaches the running task of an engine: a tile half halts, a unit stops at its boundary; a task whose `end` has
met all its conditions by then ends with its own status (12 R339). -/
def Dev.stopRunning (k status : Nat) (d : Dev) : Dev :=
  if decide (k < 136) && d.taskOver (k / 2) (k % 2) then d else
  let d1 := d.modEngine k (fun e => { e with running := e.running.map (fun t => { t with stop := (if t.stop.isSome then t.stop else some status) }) })
  if k < 136 then d1.haltHalf (k / 2) (k % 2)
  else if k < 184 then d1.modEng (fun e => { e with churns := mapMod {} e.churns (k - 168) (fun c => { c with stopAsk := true }) })
  else d1.modEng (fun e => { e with breezes := mapMod {} e.breezes (k - 184) (fun c => { c with stopAsk := true }) })

/-- A stop reaches an engine: the running task and the draught of the queue (12 R339). -/
def Dev.stopEngine (q k : Nat) (d : Dev) : Dev :=
  let e := d.engine k
  let mark (t : Task) : Task := if t.queue = q ∧ t.stop = none then { t with stop := some 1 } else t
  let d1 := d.modEngine k (fun e => { e with draught := e.draught.map mark })
  match e.running with
  | some t => if t.queue = q then d1.stopRunning k 1 else d1
  | none => d1

/-- A queue stop (12 R339): the queue enters a mode, its prefetch empties, and every engine with a task of it is reached. -/
def Dev.stopQueue (q : Nat) (mode : SqMode) (d : Dev) : Dev :=
  match d.sq q with
  | none => d
  | some s =>
    let ks := d.holders q
    let d1 := runAll ks (fun k d => d.stopEngine q k) (d.putSq q { s with mode := mode, buf := [], fetched := s.head, acks := ks })
    if ks.isEmpty then d1.stopDone q else d1

/-! ## Descriptors (12 R322, R323) -/

/-- Fields of a task descriptor. -/
def tdKind (bs : List Byte) : Nat := bitsN (leAt bs 0 4) 3 0
def tdTwin (bs : List Byte) : Bool := bitsN (leAt bs 0 4) 4 4 == 1
def tdHalf (bs : List Byte) : Nat := bitsN (leAt bs 0 4) 5 5
def tdFence (bs : List Byte) : Bool := bitsN (leAt bs 0 4) 7 7 == 1
def tdEngine (bs : List Byte) : Nat := leAt bs 4 2
def tdEntry (bs : List Byte) : Nat := leAt bs 6 2
def tdTag (bs : List Byte) : W64 := BitVec.ofNat 64 (leAt bs 8 8)
def tdKaddr (bs : List Byte) : Nat := leAt bs 16 8
def tdKlen (bs : List Byte) : Nat := leAt bs 24 4
def tdDbase (bs : List Byte) : Nat := leAt bs 28 4
def tdDlen (bs : List Byte) : Nat := leAt bs 32 4
def tdPsrc (bs : List Byte) : Nat := leAt bs 40 8
def tdDesc (bs : List Byte) : Nat := leAt bs 48 8

/-- The engine a descriptor names. -/
def tdKey (bs : List Byte) : Nat :=
  match tdKind bs with
  | 0 => 2 * tdEngine bs + (if tdTwin bs then tdHalf bs else 0)
  | 1 => 168 + tdEngine bs
  | _ => 184 + tdEngine bs

/-- Whether a range is backed by memory of this part, and no seal keeps it from a context (12 R323, 07 R196). -/
def Dev.rangeOk (d : Dev) (ctx a n : Nat) : Bool :=
  match hbmKeys a n with
  | some ks => (d.rowRefused (d.feWho ctx) .read ks).isNone
  | none =>
    (decide (tileBase ≤ a) && decide (a + n ≤ tileBase + Config.tiles * tileSpan) && (a - tileBase) / tileSpan == (a + n - 1 - tileBase) / tileSpan) ||
    (decide (syncBase ≤ a) && decide (a + n ≤ syncBase + syncSize))

/-- Whether a range lies wholly in rows sealed to a context with ACCESS.LOCAL (16 R421). -/
def Dev.rangeSealed (d : Dev) (ctx a n : Nat) : Bool :=
  match hbmKeys a n with
  | some ks => (rowsOf ks).all (fun r => match d.sealOf r.1 with
      | some e => e.owner == ctx && e.access.getLsbD 0
      | none => false)
  | none => false

/-- A range that the front end or a unit may read for a context. -/
def Dev.taskRange (d : Dev) (ctx a n : Nat) : Bool := d.rangeOk ctx a n && (!d.confinedCtx ctx || d.rangeSealed ctx a n)

/-- Whether a descriptor is malformed (12 R322, R323; 16 R421 rule 1; log 19). -/
def Dev.badDesc (d : Dev) (ctx : Nat) (bs : List Byte) : Bool :=
  let twin := tdTwin bs
  nz (leAt bs 0 4 / 256) || nz (leAt bs 36 4) || nz (leAt bs 56 8) ||
  (match tdKind bs with
  | 0 =>
    nz (tdDesc bs) || decide (Config.tiles ≤ tdEngine bs) || (!twin && nz (tdHalf bs)) ||
    tdKlen bs == 0 || decide ((if twin then 8192 else 16384) < tdKlen bs) || decide (tdKlen bs ≤ tdEntry bs) ||
    nz (tdKaddr bs % 64) || nz (tdDbase bs % 64) || nz (tdDlen bs % 64) || decide (0x40000 < tdDlen bs) ||
    decide ((if twin then 0xC00000 else 0x1800000) < tdDbase bs + tdDlen bs) ||
    !d.taskRange ctx (tdKaddr bs) (8 * tdKlen bs) || (nz (tdDlen bs) && !d.taskRange ctx (tdPsrc bs) (tdDlen bs))
  | 1 | 2 =>
    twin || nz (tdHalf bs) || nz (tdEntry bs) || nz (tdKaddr bs) || nz (tdKlen bs) || nz (tdDbase bs) || nz (tdDlen bs) || nz (tdPsrc bs) ||
    decide (Config.stackCount ≤ tdEngine bs) || decide (stackSize < tdDesc bs + (if tdKind bs = 1 then 128 else 64)) ||
    (d.confinedCtx ctx && !d.rangeSealed ctx (stackBase + stackSpan * tdEngine bs + tdDesc bs) (if tdKind bs = 1 then 128 else 64))
  | _ => true)

/-- Whether an engine is allotted to a context (12 R319). -/
def Dev.engAllot (d : Dev) (ctx : Nat) (bs : List Byte) : Bool :=
  let e := tdEngine bs
  match tdKind bs with
  | 0 => d.tileAllot ctx e
  | 1 => fbit (d.word (0x10100C + 0x10 * ctx)) (8 + e)
  | _ => fbit (d.word (0x10100C + 0x10 * ctx)) (16 + e)

/-- Whether a descriptor names an engine that its context may not use, or that cannot take it (12 R323). -/
def Dev.badEngine (d : Dev) (ctx : Nat) (bs : List Byte) : Bool :=
  !d.engAllot ctx bs ||
  (tdKind bs == 0 && (let c := d.word (offTil (tdEngine bs) + 4); !fbit c 0 || (tdTwin bs && !fbit c 1)))

/-- The status that a descriptor's check finds: 0 where it is good (12 R323). -/
def Dev.descStatus (d : Dev) (ctx : Nat) (bs : List Byte) : Nat :=
  if d.badDesc ctx bs then 0x401 else if d.badEngine ctx bs then 0x402 else 0

/-! ## Dispatch (12 R324-R328) -/

/-- Whether the head task of a queue may be dispatched now, its engine apart (12 R322 FENCE, R325, R336, R338). -/
def Dev.headReady (d : Dev) (s : SqState) (bs : List Byte) : Bool :=
  decide (s.mode = .enabled) && d.feOn && !d.feFrozen && (!tdFence bs || s.running == 0) &&
  (match d.cq s.cq with
  | some c => !c.holdFull
  | none => true)

/-- The status with which a descriptor leaves the prefetch buffer: the check of its engine is made again at dispatch (03
R71, 12 R319, R323). -/
def Dev.headStatus (d : Dev) (s : SqState) (e : List Byte × Nat) : Nat :=
  if e.2 ≠ 0 then e.2 else if d.badEngine s.ctx e.1 then 0x402 else 0

/-- Bad descriptors at the head of a queue end in their turn, at most n (12 R323, R345). -/
def Dev.badHeads (q : Nat) : Nat → Dev → Dev
  | 0, d => d
  | n + 1, d =>
    match d.sq q with
    | none => d
    | some s =>
      match s.buf with
      | [] => d
      | (bs, st0) :: rest =>
        let st := d.headStatus s (bs, st0)
        if st = 0 || !d.headReady s bs then d else
        let s1 := { s with buf := rest, head := s.head + 1, running := s.running + 1, mode := (if st = 0x403 then .paused else s.mode) }
        let e : CEntry := { qid := q, status := st, tag := tdTag bs, start := d.ft.now, fin := d.ft.now, irq := bitsN (leAt bs 0 4) 6 6 == 1 }
        Dev.badHeads q n (((d.putSq q s1).setFlag evFe 4).endEntry s.cq 1024 e)

/-- What the front end can do at once after a change: bad heads end. -/
def Dev.feSettle (d : Dev) : Dev := runAll (d.fe.sqs.map Prod.fst) (fun q d => d.badHeads q 4) d

/-- Whether a window names an engine (12 R327). -/
def Window.names (w : Window) (k : Nat) : Bool :=
  if k < 136 then (w.tiles / 2 ^ (k / 2)) % 2 == 1
  else if k < 184 then (w.churns / 2 ^ (k - 168)) % 2 == 1
  else (w.breezes / 2 ^ (k - 184)) % 2 == 1

/-- Whether an armed window of some queue names an engine (12 R327). -/
def Dev.windowed (d : Dev) (k : Nat) : Bool :=
  d.fe.sqs.any (fun s => match s.2.window with
    | some w => w.names k
    | none => false)

/-- Whether a queue is scheduled. -/
def Dev.isSched (d : Dev) (q : Nat) : Bool :=
  match d.sq q with
  | some s => s.sched
  | none => false

/-- The engine that a key stands for: a tile in normal mode is one engine, whose arbiter stands at half 0 (12, Dispatch). -/
def Dev.engOf (d : Dev) (k : Nat) : Nat := if decide (k < 136) && !(d.tile (k / 2)).twin then k / 2 * 2 else k
/-- The draught slots of an engine, of which at most one is in use. -/
def Dev.slotsOf (d : Dev) (k : Nat) : List Nat := if decide (k < 136) && !(d.tile (k / 2)).twin then [k / 2 * 2, k / 2 * 2 + 1] else [k]

/-- The queues of an engine's running task and draught. -/
def Dev.engineQueues (d : Dev) (k : Nat) : List Nat :=
  (d.slotsOf k).flatMap (fun j => ((d.engine j).running.toList ++ (d.engine j).draught.toList).map (fun t => t.queue))

/-- Whether the head task of a queue names an engine and may be dispatched. -/
def Dev.headFor (d : Dev) (k q : Nat) : Bool :=
  match d.sq q with
  | none => false
  | some s =>
    match s.buf with
    | e :: _ => d.headStatus s e == 0 && d.engOf (tdKey e.1) == k && d.headReady s e.1 && !(tdKind e.1 == 0 && d.sec.clearing.contains (tdEngine e.1))
    | [] => false

/-- The scheduled queue that may dispatch to an engine (12 R327): its window names it and no round-robin task is there. -/
def Dev.schedGrant (d : Dev) (k : Nat) : Option Nat :=
  if (d.engineQueues k).any (fun q => !d.isSched q) then none else
  (d.fe.sqs.find? (fun s => s.2.sched && d.headFor k s.1 && (match s.2.window with
    | some w => w.names k
    | none => false))).map Prod.fst

/-- The arbiter of an engine (12 R325): the holder within its slice, else the next eligible queue above it. The second
answer says whether the holder changes. -/
def Dev.roundGrant (d : Dev) (k : Nat) : Option (Nat × Bool) :=
  if d.windowed k || (d.engineQueues k).any d.isSched then none else
  let e := d.engine k
  let eligible (q : Nat) : Bool := !d.isSched q && d.headFor k q
  match (match e.holder with
    | some h => if eligible h && decide (e.used < ((d.sq h).map (fun s => s.slice)).getD 0) then some h else none
    | none => none) with
  | some h => some (h, false)
  | none =>
    ((List.range 1024).map (fun i => (e.holder.getD 1023 + i + 1) % 1024)).find? eligible |>.map (fun q => (q, true))

/-- The draught window of a task, as an offset of tile memory with a length (03 R70, 12 R322). -/
def tdWindow (bs : List Byte) : Nat × Nat := ((if tdTwin bs then 0xC00000 * tdHalf bs else 0) + tdDbase bs, tdDlen bs)

/-- A task that runs on a half meets a reserved window from now until it ends (03 R70). -/
def HalfState.reserve (w : Nat × Nat) (s : HalfState) : HalfState := if s.mode = .idle then s else { s with resv := s.resv ++ [w] }

/-- The head task of a queue enters the draught slot that it names (12 R324, R329): the queue's head counts it; its window
is reserved against what runs on the tile, and the preload begins. -/
def Dev.dispatchTo (q : Nat) (d : Dev) : Dev :=
  match d.sq q with
  | none => d
  | some s =>
    match s.buf with
    | [] => d
    | (bs, _) :: rest =>
      let k := tdKey bs
      let d1 := (d.putSq q { s with buf := rest, head := s.head + 1, running := s.running + 1 }).modEngine k (fun e =>
        { e with draught := some { queue := q, desc := bs }, loaded := false, redo := false, swapped := false })
      if k < 136 then
        let w := tdWindow bs
        ((d1.modHalf (k / 2) 0 (HalfState.reserve w)).modHalf (k / 2) 1 (HalfState.reserve w)).modHalf (k / 2) (k % 2) (fun s =>
          { s with drBase := tdDbase bs, drLen := tdDlen bs, drStat := 1, drKernel := false })
      else d1

/-- Whether the step controller holds an engine's dispatch back: no churn unit takes a task while the step is abandoned
(09 R256). -/
def Dev.stepHolds (k : Nat) (d : Dev) : Bool := decide (168 ≤ k) && decide (k < 184) && d.step.active && d.step.abandoned

/-- DISPATCH at an engine whose draught slot is empty (12 R325, R327). -/
def Dev.dispatchEngine (k0 : Nat) (d : Dev) : Dev :=
  let k := d.engOf k0
  if (d.slotsOf k).any (fun j => (d.engine j).draught.isSome) || d.stepHolds k then d else
  match d.schedGrant k with
  | some q => d.dispatchTo q
  | none =>
    match d.roundGrant k with
    | none => d
    | some (q, new) =>
      (if new then d.modEngine k (fun e => { e with holder := some q, used := 0 }) else d).dispatchTo q

/-! ## Windows (12 R327, R328) -/

/-- A window closes. -/
def Dev.windowShut (q : Nat) (d : Dev) : Dev :=
  ({ d with wins := d.wins.filter (· != q) }).modSq q (fun s => { s with window := none })

/-- The end of a window in schedule time. -/
def Window.fin (w : Window) : W64 := w.start + BitVec.ofNat 64 w.len

end Sys2Proof.Machine
end

