-- ==== Sys2Proof/Machine/RegOps.lean ====
section
/-! DEFINITION. Writes of registers that have no behaviour of their own, staged pairs and shadows (17 R432-R437). -/
namespace Sys2Proof.Machine

/-- Whether a written word keeps every field inside the range its table states (17 R432). -/
def RegRow.inRange (r : RegRow) (v : W32) : Bool :=
  r.ranges.all (fun f => f.2.2.any (fun i => decide (i.1 ≤ (v.toNat / 2 ^ f.1) % 2 ^ f.2.1) &&
    decide ((v.toNat / 2 ^ f.1) % 2 ^ f.2.1 ≤ i.2)))

/-- PWR_THERM takes a value only with each threshold in its range and WARN < HOT < CRIT (18 Table 7). -/
def thermOk (v : W32) : Bool :=
  let w := fld v 7 0
  let h := fld v 15 8
  let c := fld v 23 16
  decide (80 ≤ w) && decide (w ≤ 105) && decide (85 ≤ h) && decide (h ≤ 110) && decide (90 ≤ c) && decide (c ≤ 115) &&
    decide (w < h) && decide (h < c)

/-- Whether an offset is ING_n_RINGr_CFG (15 Table 7). -/
def isRingCfg (off : Nat) : Bool := dimsHit [(4, 0x1000), (4, 0x20)] (off - 0x3700108) && decide (0x3700108 ≤ off)
/-- Whether an offset is a half of ING_n_RINGr_BASE (15 Table 7). -/
def isRingBase (off : Nat) : Bool := dimsHit [(4, 0x1000), (4, 0x20), (2, 4)] (off - 0x3700100) && decide (0x3700100 ≤ off)
/-- Whether an offset is FE_ADMc_CFG (12 Table 10). -/
def isAdmCfg (off : Nat) : Bool := dimsHit [(64, 0x1000)] (off - 0x180020) && decide (0x180020 ≤ off)

/-- A general core in M or HS mode (17 R433). -/
def reqIsMorHs : Req → Bool
  | .core _ b => b
  | .func _ => false
  | .half _ _ => false

/-- The RWL bits a requester may not change now: all of them under LOCK, a SEC_DEBUG.DISABLE that is set, and the ring
owner for any requester but a general core in M or HS mode (17 R433). -/
def lockedMask (req : Req) (off : Nat) (r : RegRow) (old : W32) : W32 :=
  if fbit (BitVec.ofNat 32 r.rwl) 31 && fbit old 31 then BitVec.ofNat 32 r.rwl
  else if off = 0x3800008 then old &&& 1#32
  else if isRingCfg off && !reqIsMorHs req then 0xFF0#32
  else 0#32

/-- The bits whose field table admits a change only in some other state: FE_ADMc_CFG beside EN while EN is 1, a ring
base while its EN is 1, and CFG_CRC_REF while HOLD is 0 (12 Table 10, 15 Table 7, 17 Table 6). -/
def heldMask (d : Dev) (off : Nat) (old : W32) : W32 :=
  if isAdmCfg off && fbit old 31 then 0x7FFFFFFF#32
  else if isRingBase off && fbit (d.word (off - (off % 0x20) + 8)) 31 then 0xFFFFFFFF#32
  else if off = 0x10008 && !fbit (d.word 0x10004) 2 then 0xFFFFFFFF#32
  else 0#32

/-- A write of a register that has no behaviour of its own (17 R432, R433). -/
def storeReg (req : Req) (off : Nat) (v : W32) (d : Dev) : Dev :=
  match findRow off with
  | none => d
  | some r =>
    if off = 0x3A00008 && !thermOk v then d
    else if !r.inRange v then d.setFlag evCfg 4
    else
      let old := d.word off
      let lock := lockedMask req off r old
      let eff := BitVec.ofNat 32 (r.rw ||| r.rwl) &&& ~~~lock &&& ~~~heldMask d off old
      let d1 := d.setWord off ((old &&& ~~~eff) ||| (v &&& eff))
      if (old ^^^ v) &&& lock = 0#32 then d1 else d1.setFlag evCfg 3

/-- The pairs whose halves are both RW: base of the first _LO and dimensions (17 R437). -/
def rwPairs : List (Nat × List (Nat × Nat)) := [
  (0x180010, [(64, 0x1000), (2, 8)]), (0x2400000, [(8, 0x1000)]), (0x2500008, []), (0x2801004, [(96, 0x10)]),
  (0x280400C, [(256, 0x20), (2, 8)]), (0x2A00050, []), (0x3200044, []), (0x3400008, []), (0x3401000, [(64, 0x10)]),
  (0x3600008, []), (0x3700100, [(4, 0x1000), (4, 0x20)]), (0x3C00010, []) ]

/-- Whether an offset is the _LO of a pair whose halves are both RW. -/
def isPairLo (off : Nat) : Bool := rwPairs.any (fun r => decide (r.1 ≤ off) && dimsHit r.2 (off - r.1))
/-- Whether an offset is the _HI of such a pair. -/
def isPairHi (off : Nat) : Bool := decide (4 ≤ off) && isPairLo (off - 4)

/-- A requester's next access empties its shadow (17 R436). -/
def Dev.dropShadow (req : Req) (d : Dev) : Dev :=
  { d with regs := { d.regs with shadows := d.regs.shadows.filter (fun s => s.req != req) } }

/-- Stage a _LO (17 R437). -/
def stageLo (req : Req) (off : Nat) (v : W32) (d : Dev) : Dev :=
  { d with regs := { d.regs with
      staged := { req := req, pair := off, lo := v } :: d.regs.staged.filter (fun s => !(s.req == req && s.pair == off)) } }

/-- Apply a _HI with the requester's staged _LO, if it has one (17 R437). -/
def applyHi (req : Req) (off : Nat) (v : W32) (d : Dev) : Dev :=
  let lo := off - 4
  let d1 := match d.regs.staged.find? (fun s => s.req == req && s.pair == lo) with
    | some s => storeReg req lo s.lo d
    | none => d
  storeReg req off v
    { d1 with regs := { d1.regs with staged := d1.regs.staged.filter (fun s => !(s.req == req && s.pair == lo)) } }

end Sys2Proof.Machine
end

