-- ==== Sys2Proof/Machine/FrontEnd.lean ====
section
/-! DEFINITION. The commands of the front end (12) but admin commands: doorbells, descriptors, dispatch, windows, completion rings, stops and allotments. -/
namespace Sys2Proof.Machine

/-- Whether a requester reaches the pages of a context: a virtual function reaches its own alone, and only while it is
enabled (14 R383, R384). -/
def Dev.reachesCtx (d : Dev) (req : Req) (ctx : Nat) : Bool :=
  match req with
  | .func f => f == 0 || (f == ctx + 1 && d.vfOn ctx)
  | .core _ _ => true
  | .half _ _ => true

/-- A submission doorbell (12 Table 1). -/
def Dev.sqBell (q : Nat) (val : W32) (d : Dev) : Dev :=
  match d.sq q with
  | none => d.dbError
  | some s =>
    if s.mode = .draining ∨ s.mode = .tombstone then d.dbError
    else if (val - s.tail).toInt < 0 ∨ 2 ^ s.log2 < (val - s.head).toNat then d.dbError
    else d.putSq q { s with tail := val }

/-- The context a submission queue is allotted to, if any (12 R319). -/
def Dev.sqOwner (d : Dev) (q : Nat) : Option Nat :=
  let w := d.word (0x110000 + 0x20 * q)
  if fbit w 6 then some (fld w 5 0) else none

/-- SQ_DOORBELL (12 R321, 14 R384): a write to the doorbell page of queue q by a function. -/
def execSqDoorbell (func q : Nat) (val : W32) (s : State) : Result :=
  performMem (funcOk func && sqOk q) s (fun _ d =>
    if !d.barOpen func then d
    else if func = 0 then d.sqBell q val
    else if d.sqOwner q = some (func - 1) then d.sqBell q val else d.dbError)

/-- Whether the front end reads the next descriptor of a queue now (12 R320, R338; 14 R391). -/
def Dev.mayFetch (d : Dev) (s : SqState) : Bool :=
  d.feOn && decide (s.mode = .enabled) && decide (s.fetched ≠ s.tail) && decide (s.buf.length < 4) &&
  (s.loc || d.hostUp (d.ctxFunc s.ctx))

/-- The bytes of the next descriptor: read here for a local ring, else what the host returned (12 R320). -/
def Dev.readDesc (s : SqState) (data : Option (List Byte)) (d : Dev) : Option (List Byte) × Dev :=
  if s.loc then
    let r := d.memAccess (d.feWho s.ctx) (s.base.toNat + 128 * (s.fetched.toNat % 2 ^ s.log2)) (.read 128)
    (if r.1 = stOk then some r.2.1 else none, r.2.2)
  else (data, d)

/-- DESCRIPTOR_FETCH (12 R320, R322, R323, R345). -/
def execDescriptorFetch (q : Nat) (data : Option (List Byte)) (s : State) : Result :=
  performMem (sqOk q && data.all (fun bs => decide (bs.length = 128))) s (fun _ d =>
    match d.sq q with
    | none => d
    | some sq =>
      if !d.mayFetch sq then d else
      let r := d.readDesc sq data
      let e := match r.1 with
        | some bs => (bs, r.2.descStatus sq.ctx bs)
        | none => ([], 0x403)
      (r.2.putSq q { sq with fetched := sq.fetched + 1, buf := sq.buf ++ [e] }).feSettle)

/-- DISPATCH (12 R324, R325, R327). -/
def execDispatch (e : Engine) (s : State) : Result :=
  performMem (engineOk e) s (fun _ d => (d.dispatchEngine (engKey e)).feSettle)

/-- Whether a running task has run its queue's LIMIT, in ms (12 R326). -/
def Dev.overLimit (d : Dev) (t : Task) : Bool :=
  match d.sq t.queue with
  | some s => decide (0 < s.limit) && decide ((1024000000 * s.limit : Nat) ≤ ftDiff d.ft.now t.start)
  | none => false

/-- TASK_TIMEOUT (12 R326): the running task has run its queue's LIMIT. -/
def execTaskTimeout (e : Engine) (s : State) : Result :=
  performMem (engineOk e) s (fun _ d =>
    match (d.engine (engKey e)).running with
    | none => d
    | some t => if d.overLimit t then d.stopRunning (engKey e) 2 else d)

/-- WINDOW_OPEN (12 R327, 13 R357): the start of an armed window comes, on a part that releases schedule targets. -/
def execWindowOpen (q : Nat) (s : State) : Result :=
  performMem (sqOk q) s (fun _ d =>
    match (d.sq q).bind (fun s => s.window) with
    | some w => if d.due w.start && d.releasing && !d.wins.contains q then { d with wins := q :: d.wins } else d
    | none => d)

/-- WINDOW_CLOSE (12 R328, 02 R37). -/
def execWindowClose (q : Nat) (s : State) : Result :=
  performMem (sqOk q) s (fun _ d =>
    match (d.sq q).bind (fun s => s.window) with
    | some w => if d.due w.fin && d.releasing then d.windowShut q else d
    | none => d)

/-- The write of bytes 0 to 3 of the oldest entry being written (12 R332, R334). -/
def Dev.seqWrite (c : Nat) (d : Dev) : Dev :=
  match d.cq c with
  | none => d
  | some q =>
    match q.writing with
    | [] => d
    | p :: rest =>
      let a := q.slot p.seq
      let r := d.ringWrite c q a (leBytes 4 p.seq.toNat)
      match r.1 with
      | .wait => r.2
      | .refused => (r.2.cqStall c a)
      | .ok =>
        let d1 := r.2.putCq c { q with tail := p.seq, writing := rest }
        let d2 := if p.entry.irq || q.irqAll then d1.sendVector q.vec else d1
        ((d2.tombEnd p.entry.qid).cqAdvance c).feSettle

/-- COMPLETION_SEQ_WRITE (12 R332, R334): completion queue c, or 256 + c for the admin queue of context c. -/
def execCompletionSeqWrite (cq : Nat) (s : State) : Result :=
  performMem (ringOk cq) s (fun _ d => d.seqWrite cq)

/-- A completion doorbell (12 R335, R336). -/
def Dev.cqBell (c : Nat) (val : W32) (d : Dev) : Dev :=
  match d.cq c with
  | none => d.dbError
  | some q =>
    if (val - q.head).toInt < 0 ∨ (q.tail - val).toInt < 0 then d.dbError
    else ((d.putCq c { q with head := val }).cqAdvance c).feSettle

/-- CQ_DOORBELL (12 R335; 14 R384). -/
def execCqDoorbell (req : Req) (cq : Nat) (val : W32) (s : State) : Result :=
  performMem (reqOk req && cqOk cq) s (fun _ d =>
    if d.reachesCtx req (d.cqCtx cq) then (d.dropShadow req).cqBell cq val else d)

/-- The address of the next entry that a ring would write. -/
def CqState.nextSlot (q : CqState) : W64 :=
  match q.hold with
  | p :: _ => q.slot p.seq
  | [] => q.slot (q.placed + 1)

/-- A resume of a STALLED completion queue comes to its end: the queue is ACTIVE, or its stall is reported again, and every
RESUME_CQ that waited completes (12 R337, R343). -/
def Dev.cqResumed (c : Nat) (q : CqState) (a : W64) (ok : Bool) (d : Dev) : Dev :=
  let d1 := if ok then (d.putCq c { q with mode := .active, asked := false, resumes := [] }).cqAdvance c
    else (d.putCq c { q with asked := false, resumes := [] }).cqNotify c a
  (runAll q.resumes (fun x d => d.adminEntry x.1 x.2 0 (b2n !ok)) d1).feSettle

/-- A resume of a STALLED completion queue (12 R337): a refused translation is dropped and asked for again; a ring that
may be written flushes. -/
def Dev.cqResume (c : Nat) (d : Dev) : Dev :=
  match d.cq c with
  | none => d
  | some q =>
    if q.mode = .active then d else
    let a := q.nextSlot
    let f := d.ctxFunc (d.cqCtx c)
    let d1 := { d with pci := { d.pci with atc := d.pci.atc.filter (fun e => !(e.1 == f && e.2.1 == a.toNat / 4096 && !e.2.2)) } }
    match (if q.loc then RingWay.ok else d1.hostWay f a) with
    | .ok => d1.cqResumed c q a true
    | .wait => d1.putCq c { q with asked := true }
    | .refused => d1.cqResumed c q a false

/-- CQ_RESUME (12 R337). -/
def execCqResume (req : Req) (cq : Nat) (val : W32) (s : State) : Result :=
  performMem (reqOk req && cqOk cq) s (fun _ d =>
    if d.reachesCtx req (d.cqCtx cq) then (if fbit val 0 then (d.dropShadow req).cqResume cq else d.dropShadow req) else d)

/-- ATS_TRANSLATION (14 R390, 12 R337): the translation of a ring's next page comes, with or without write permission: an
ACTIVE queue without it stalls, a resume that waits ends, and each RESUME_CQ with it (R343). -/
def execAtsTranslation (cq : Nat) (writable : Bool) (s : State) : Result :=
  performMem (ringOk cq) s (fun _ d =>
    match d.cq cq with
    | none => d
    | some q =>
      let f := d.ctxFunc (d.cqCtx cq)
      if q.loc || !(d.func f).ats then d else
      let a := q.nextSlot
      let pg := a.toNat / 4096
      let d1 := { d with pci := { d.pci with atc := ((f, pg, writable) :: d.pci.atc.filter (fun e => !(e.1 == f && e.2.1 == pg))).take 512 } }
      if q.mode = .active then (if writable then d1.cqAdvance cq else d1.cqStall cq a).feSettle
      else if q.asked then d1.cqResumed cq q a writable
      else d1)

/-- STOP_ACK (12 R339, R340): an engine that holds no task of a queue any more acknowledges. -/
def execStopAck (q : Nat) (e : Engine) (s : State) : Result :=
  performMem (sqOk q && engineOk e) s (fun _ d =>
    match d.sq q with
    | none => d
    | some sq =>
      if sq.acks.contains (engKey e) && !(d.holders q).contains (engKey e) then
        let rest := sq.acks.filter (· != engKey e)
        let d1 := d.putSq q { sq with acks := rest }
        if rest.isEmpty then (d1.stopDone q).feSettle else d1
      else d)

/-- DRAUGHT_DISCARD (12 R330): a stopped draught ends ABORTED; one whose tile is being retired loads again later. -/
def execDraughtDiscard (e : Engine) (s : State) : Result :=
  performMem (engineOk e) s (fun _ d =>
    let k := engKey e
    match (d.engine k).draught with
    | none => d
    | some t =>
      if t.stop.isSome then (d.draughtEnd k 1).feSettle
      else if decide (k < 136) && (match d.ras.job with
          | some j => j.tile == k / 2
          | none => false) then
        (d.modEngine k (fun e => { e with loaded := false, redo := true })).modHalf (k / 2) (k % 2) (fun s =>
          { s with drStat := 0, drKernel := false })
      else d)

/-! ## Allotments (12 R319; 16 R421 rule 3, R422) -/

/-- Whether an offset is FE_SQq_OWNER, with q. -/
def sqOwnerOff (off : Nat) : Option Nat :=
  if 0x110000 ≤ off ∧ off < 0x118000 ∧ (off - 0x110000) % 0x20 = 0 then some ((off - 0x110000) / 0x20) else none
/-- Whether an offset is CQ_RINGc_OWNER, with c. -/
def cqOwnerOff (off : Nat) : Option Nat :=
  if 0x200000 ≤ off ∧ off < 0x300000 ∧ (off - 0x200000) % 0x1000 = 0x20 then some ((off - 0x200000) / 0x1000) else none
/-- Whether an offset is FE_CTXc_TILES0 to TILES2, with c and the register's number. -/
def ctxTilesOff (off : Nat) : Option (Nat × Nat) :=
  if 0x101000 ≤ off ∧ off < 0x101400 ∧ off % 4 = 0 ∧ off % 0x10 ≠ 0 then some ((off - 0x101000) / 0x10, off % 0x10 / 4 - 1) else none

/-- Whether an allotment word of a context would share an engine of a confined context (16 R421 rule 3). -/
def Dev.wouldShare (d : Dev) (c i : Nat) (val : W32) : Bool :=
  let mask : W32 := if i = 2 then 0x00FFFF0F#32 else 0xFFFFFFFF#32
  (List.range Config.contexts).any (fun o => o != c && (d.confinedCtx c || d.confinedCtx o) &&
    (d.word (0x101004 + 0x10 * o + 4 * i) &&& val &&& mask) != 0)

/-- Tiles that leave the allotment of a confined context wait for the clear of R422. -/
def Dev.leaveTiles (c i : Nat) (old new : W32) (d : Dev) : Dev :=
  if !d.confinedCtx c then d else
  let gone := (List.range (if i = 2 then 4 else 32)).filter (fun b => fbit old b && !fbit new b)
  { d with sec := { d.sec with clearing := d.sec.clearing ++ (gone.map (fun b => 32 * i + b)).filter (fun t => !d.sec.clearing.contains t) } }

/-- A write to an allotment register (12 R319): that of a queue not FREE cannot change. -/
def Dev.allotWrite (req : Req) (off : Nat) (val : W32) (d : Dev) : Dev :=
  let busy := (match sqOwnerOff off with
    | some q => (d.sq q).isSome
    | none => false) || (match cqOwnerOff off with
    | some c => (d.cq c).isSome
    | none => false)
  if busy && decide (val &&& 0x7F#32 ≠ d.word off) then d.setFlag evFe 4
  else match ctxTilesOff off with
    | some (c, i) =>
      if d.wouldShare c i val then d.setFlag evFe 0 else (storeReg req off val d).leaveTiles c i (d.word off) val
    | none => storeReg req off val d

/-! ## FE_SQq_CMD (12 Table 10) -/

/-- Pause, where Table 5 allows it. -/
def Dev.sqPause (q : Nat) (d : Dev) : Dev :=
  d.modSq q (fun s => { s with mode := (if s.mode = .enabled then .paused else s.mode) })
/-- Stop, where Table 5 allows it. -/
def Dev.sqStop (q : Nat) (d : Dev) : Dev :=
  match d.sq q with
  | some s => if s.mode = .enabled ∨ s.mode = .paused then (d.stopQueue q .stopped).feSettle else d
  | none => d
/-- Resume, where Table 5 allows it. -/
def Dev.sqResume (q : Nat) (d : Dev) : Dev :=
  (d.modSq q (fun s => { s with mode := (if s.mode = .paused ∨ s.mode = .stopped then .enabled else s.mode) })).feSettle

/-- FE_SQ_PAUSE (12 Table 10). -/
def execFeSqPause (req : Req) (q : Nat) (s : State) : Result :=
  performMem (reqFull req && sqOk q) s (fun _ d => (d.dropShadow req).sqPause q)
/-- FE_SQ_STOP (12 R339). -/
def execFeSqStop (req : Req) (q : Nat) (s : State) : Result :=
  performMem (reqFull req && sqOk q) s (fun _ d => (d.dropShadow req).sqStop q)
/-- FE_SQ_RESUME (12 Table 10). -/
def execFeSqResume (req : Req) (q : Nat) (s : State) : Result :=
  performMem (reqFull req && sqOk q) s (fun _ d => (d.dropShadow req).sqResume q)
/-- CTRL_STOP_SQ (13 R374): as the local command, with no admin entry. -/
def execCtrlStopSq (q : Nat) (s : State) : Result :=
  performMem (sqOk q) s (fun _ d => d.sqStop q)
/-- CTRL_PAUSE_SQ (13 R374). -/
def execCtrlPauseSq (q : Nat) (s : State) : Result :=
  performMem (sqOk q) s (fun _ d => d.sqPause q)

/-- A service doorbell (15 R403): the low half of the count is extended and stored into the watch word. -/
def Dev.svcBell (ctx : Nat) (val : W32) (d : Dev) : Dev :=
  let w := d.sync64 (16320 + ctx)
  d.syncPut (16320 + ctx) (w + (val - lo32 w).setWidth 64)

/-- SVC_DOORBELL (15 R403). -/
def execSvcDoorbell (req : Req) (ctx : Nat) (val : W32) (s : State) : Result :=
  performMem (reqOk req && ctxOk ctx) s (fun _ d => if d.reachesCtx req ctx then (d.dropShadow req).svcBell ctx val else d)

end Sys2Proof.Machine
end

