-- ==== Sys2Proof/Machine/Admin.lean ====
section
/-! DEFINITION. Admin queues and their commands (12 R340-R343). -/
namespace Sys2Proof.Machine

/-- The admin queue pair of a context. -/
def Dev.admin (d : Dev) (c : Nat) : AdminState := mapGet {} d.fe.admins c
def Dev.modAdmin (c : Nat) (f : AdminState → AdminState) (d : Dev) : Dev := d.modFe (fun s => { s with admins := mapMod {} s.admins c f })
/-- A register of an admin page (12 Table 9). -/
def offAdm (c : Nat) : Nat := 0x180000 + 0x1000 * c
/-- FE_ADMc_CFG. -/
def Dev.admCfg (d : Dev) (c : Nat) : W32 := d.word (offAdm c + 0x20)
/-- Ring sizes: values outside 4 to 12 act as the nearest limit (12 Table 10). -/
def Dev.admSqLog (d : Dev) (c : Nat) : Nat := clampN 4 12 (fld (d.admCfg c) 3 0)
def Dev.admCqLog (d : Dev) (c : Nat) : Nat := clampN 4 12 (fld (d.admCfg c) 7 4)
/-- A context accepts admin commands: FE_CTXc_CTL.EN and FE_ADMc_CFG.EN (12 Table 10). -/
def Dev.admOn (d : Dev) (c : Nat) : Bool := fbit (d.word (0x101000 + 0x10 * c)) 0 && fbit (d.admCfg c) 31

/-- Fields of an admin command (12 R343). -/
def acOpc (bs : List Byte) : Nat := leAt bs 0 1
def acId (bs : List Byte) : Nat := leAt bs 4 4
def acTag (bs : List Byte) : W64 := BitVec.ofNat 64 (leAt bs 8 8)
def acAddr (bs : List Byte) : Nat := leAt bs 16 8
def acP1 (bs : List Byte) : Nat := leAt bs 24 8
def acP2 (bs : List Byte) : Nat := leAt bs 32 8
def acP3 (bs : List Byte) : Nat := leAt bs 40 8

/-- Whether the front end takes a context's next command now, and it is this one: a local ring holds it (12 R342). -/
def Dev.admReady (d : Dev) (c : Nat) (cmd : List Byte) : Bool :=
  let a := d.admin c
  d.feOn && d.admOn c && decide (a.head ≠ a.tail) &&
  (match d.cq (256 + c) with
  | some q => !q.holdFull && q.late.isEmpty
  | none => false) &&
  (if fbit (d.admCfg c) 8 then
    decide ((d.memAccess (d.feWho c) ((d.word64 (offAdm c + 0x10)).toNat + 64 * (a.head.toNat % 2 ^ d.admSqLog c)) (.read 64)).2.1 = cmd)
   else d.hostUp (d.ctxFunc c))

/-- A command is taken: the head counts it, and it finishes with a status and a RESULT unless it waits (12 R342, R343). -/
def Dev.admTake (c : Nat) (cmd : List Byte) (f : Dev → Option (Nat × Nat) × Dev) (d : Dev) : Dev :=
  if !d.admReady c cmd then d else
  let r := f (d.modAdmin c (fun a => { a with head := a.head + 1 }))
  (match r.1 with
  | some (status, result) => r.2.adminEntry c (acTag cmd) status result
  | none => r.2).feSettle

/-- Statuses of admin entries (12 Table 4). -/
def saOpcode : Nat := 0x501
def saId : Nat := 0x502
def saBusy : Nat := 0x503
def saField : Nat := 0x504
def saConflict : Nat := 0x505
def saRange : Nat := 0x506
def saInUse : Nat := 0x507

/-- Reserved bytes of a command (12 R343). -/
def acReserved (bs : List Byte) : Bool := nz (leAt bs 1 3) || nz (leAt bs 48 16)
/-- A command whose parameters are all unused. -/
def acBare (bs : List Byte) : Bool := !acReserved bs && acAddr bs == 0 && acP1 bs == 0 && acP2 bs == 0 && acP3 bs == 0

/-- Whether a submission queue ID is in range and allotted to a context (12 R343). -/
def Dev.sqMine (d : Dev) (c q : Nat) : Bool := decide (q < Config.sqs) && d.sqOwner q == some c
/-- Whether a completion queue ID is in range and allotted to a context. -/
def Dev.cqMine (d : Dev) (c k : Nat) : Bool :=
  decide (k < Config.cqs) && fbit (d.word (offCq k + 0x20)) 6 && fld (d.word (offCq k + 0x20)) 5 0 == c
/-- Whether a context may name a vector: one presented as a virtual function, only inside its window (14 R393). -/
def Dev.vecOk (d : Dev) (c v : Nat) : Bool :=
  !d.vfOn c || (decide ((d.vecWindow c).1 ≤ v) && decide (v < (d.vecWindow c).1 + (d.vecWindow c).2))

/-- The result of a command: its status, with RESULT 0. -/
def endsWith (status : Nat) (d : Dev) : Option (Nat × Nat) × Dev := (some (status, 0), d)

/-- CREATE_CQ (12 R343). -/
def Dev.createCq (c : Nat) (cmd : List Byte) (d : Dev) : Option (Nat × Nat) × Dev :=
  let k := acId cmd
  let p := acP1 cmd
  let n := bitsN p 4 0
  if !d.cqMine c k then endsWith saId d
  else if acReserved cmd || nz (p / 2 ^ 18) || nz (acP2 cmd) || nz (acP3 cmd) || nz (acAddr cmd % 32) || decide (n < 4) || decide (16 < n) ||
      !d.vecOk c (bitsN p 17 7) then endsWith saField d
  else if (d.cq k).isSome then endsWith saBusy d
  else endsWith 0 (d.putCq k { log2 := n, loc := bitsN p 5 5 == 1, irqAll := bitsN p 6 6 == 1, vec := bitsN p 17 7, base := BitVec.ofNat 64 (acAddr cmd) })

/-- CREATE_CQ as a command. -/
def execCreateCq (ctx : Nat) (cmd : List Byte) (s : State) : Result :=
  performMem (isAdmin ctx cmd 0x01) s (fun _ d => d.admTake ctx cmd (Dev.createCq ctx cmd))

/-- Whether a queue in a state other than FREE or TOMBSTONE uses a completion queue (12 R341). -/
def Dev.cqInUse (d : Dev) (k : Nat) : Bool := d.fe.sqs.any (fun s => s.2.cq == k && decide (s.2.mode ≠ .tombstone))

/-- A completion queue becomes FREE with what it holds discarded, and its TOMBSTONE feeders with it (12 R341). -/
def Dev.cqDrop (k : Nat) (d : Dev) : Dev :=
  let late := ((d.cq k).map (fun q => q.late)).getD []
  let tombs := (d.fe.sqs.filter (fun s => s.2.cq == k && decide (s.2.mode = .tombstone))).map Prod.fst
  let d1 := d.modFe (fun f => { f with cqs := mapDel f.cqs k })
  let asks := ((d.cq k).map (fun q => q.resumes)).getD []
  runAll asks (fun c d => d.adminEntry c.1 c.2 0 1) (runAll tombs Dev.sqFree (runAll late (fun e d => d.entryPlaced e.1 e.2) d1))

/-- DESTROY_CQ (12 R341). -/
def execDestroyCq (ctx : Nat) (cmd : List Byte) (s : State) : Result :=
  performMem (isAdmin ctx cmd 0x02) s (fun _ d => d.admTake ctx cmd (fun d =>
    let k := acId cmd
    if !d.cqMine ctx k then endsWith saId d
    else if !acBare cmd then endsWith saField d
    else if (d.cq k).isNone then endsWith saBusy d
    else if d.cqInUse k then endsWith saInUse d
    else endsWith 0 (d.cqDrop k)))

/-- CREATE_SQ (12 R343, R340). -/
def Dev.createSq (c : Nat) (cmd : List Byte) (d : Dev) : Option (Nat × Nat) × Dev :=
  let q := acId cmd
  let p := acP1 cmd
  let n := bitsN p 4 0
  let k := bitsN p 15 8
  let us := bitsN (acP2 cmd) 31 0
  if !d.sqMine c q then endsWith saId d
  else if acReserved cmd || nz (p / 2 ^ 16) || nz (acP3 cmd) || nz (acAddr cmd % 128) || decide (n < 4) || decide (16 < n) ||
      (nz us && (decide (us < 10) || decide (100000 < us))) then endsWith saField d
  else if (d.sq q).isSome then endsWith saBusy d
  else if !d.cqMine c k || decide ((d.cq k).map (fun s => s.mode) ≠ some .active) then endsWith saField d
  else endsWith 0 (d.putSq q {
    ctx := c
    sched := bitsN p 6 6 == 1
    loc := bitsN p 5 5 == 1
    errPause := bitsN p 7 7 == 1
    log2 := n
    cq := k
    base := BitVec.ofNat 64 (acAddr cmd)
    slice := (if us = 0 then 100 else us) * 1024000
    limit := bitsN (acP2 cmd) 63 32 })

/-- CREATE_SQ as a command. -/
def execCreateSq (ctx : Nat) (cmd : List Byte) (s : State) : Result :=
  performMem (isAdmin ctx cmd 0x03) s (fun _ d => d.admTake ctx cmd (Dev.createSq ctx cmd))

/-- A command on a submission queue (12 R343, Table 5): the states it is allowed in, else BUSY. -/
def Dev.sqCommand (c : Nat) (cmd : List Byte) (may : SqMode → Bool) (f : Dev → Option (Nat × Nat) × Dev) (d : Dev) : Option (Nat × Nat) × Dev :=
  if !d.sqMine c (acId cmd) then endsWith saId d
  else if !acBare cmd then endsWith saField d
  else match d.sq (acId cmd) with
    | none => endsWith saBusy d
    | some s => if may s.mode then f d else endsWith saBusy d

/-- The states of Table 5 (12) in which a command is allowed. -/
def mayDestroy : SqMode → Bool
  | .enabled | .paused | .stopped => true
  | .draining | .tombstone => false
def mayPause : SqMode → Bool
  | .enabled => true
  | .paused | .stopped | .draining | .tombstone => false
def mayStop : SqMode → Bool
  | .enabled | .paused => true
  | .stopped | .draining | .tombstone => false
def mayResume : SqMode → Bool
  | .paused | .stopped => true
  | .enabled | .draining | .tombstone => false

/-- DESTROY_SQ (12 R340): it completes when the queue becomes FREE. -/
def execDestroySq (ctx : Nat) (cmd : List Byte) (s : State) : Result :=
  performMem (isAdmin ctx cmd 0x04) s (fun _ d => d.admTake ctx cmd (fun d => d.sqCommand ctx cmd mayDestroy (fun d =>
    (none, (d.modSq (acId cmd) (fun s => { s with destroyCmd := some (ctx, acTag cmd) })).stopQueue (acId cmd) .draining))))

/-- PAUSE_SQ (12 R338). -/
def execPauseSq (ctx : Nat) (cmd : List Byte) (s : State) : Result :=
  performMem (isAdmin ctx cmd 0x05) s (fun _ d => d.admTake ctx cmd (fun d => d.sqCommand ctx cmd mayPause (fun d => endsWith 0 (d.sqPause (acId cmd)))))

/-- STOP_SQ (12 R339): it completes when every engine has acknowledged. -/
def execStopSq (ctx : Nat) (cmd : List Byte) (s : State) : Result :=
  performMem (isAdmin ctx cmd 0x06) s (fun _ d => d.admTake ctx cmd (fun d => d.sqCommand ctx cmd mayStop (fun d =>
    (none, (d.modSq (acId cmd) (fun s => { s with stopCmd := s.stopCmd ++ [(ctx, acTag cmd, s.aborted)] })).stopQueue (acId cmd) .stopped))))

/-- RESUME_SQ (12 R338). -/
def execResumeSq (ctx : Nat) (cmd : List Byte) (s : State) : Result :=
  performMem (isAdmin ctx cmd 0x07) s (fun _ d => d.admTake ctx cmd (fun d => d.sqCommand ctx cmd mayResume (fun d =>
    endsWith 0 (d.modSq (acId cmd) (fun s => { s with mode := .enabled })))))

/-- The window that SET_WINDOW describes (12 Table 6). -/
def Dev.windowOf (d : Dev) (cmd : List Byte) : Window :=
  { start := BitVec.ofNat 64 (acAddr cmd)
    len := bitsN (acP1 cmd) 31 0 * d.slotFtu
    tiles := acP2 cmd + 2 ^ 64 * bitsN (acP3 cmd) 3 0
    churns := bitsN (acP3 cmd) 15 8
    breezes := bitsN (acP3 cmd) 23 16 }

/-- The engines a window can name: tiles by half 0, units by their endpoints. -/
def windowKeys : List Nat := (List.range Config.tiles).map (fun t => 2 * t) ++ (List.range 8).map (· + 168) ++ (List.range 8).map (· + 184)

/-- Whether an engine is allotted to a context, by key. -/
def Dev.keyAllot (d : Dev) (c k : Nat) : Bool :=
  if k < 136 then d.tileAllot c (k / 2)
  else if k < 184 then fbit (d.word (0x10100C + 0x10 * c)) (8 + (k - 168))
  else fbit (d.word (0x10100C + 0x10 * c)) (16 + (k - 184))

/-- Whether a window conflicts: an engine outside the allotment, or one that another queue's window names (12 R327). -/
def Dev.windowBad (d : Dev) (c q : Nat) (w : Window) : Bool :=
  windowKeys.any (fun k => w.names k && (!d.keyAllot c k || d.fe.sqs.any (fun s => s.1 != q && (match s.2.window with
    | some v => v.names k
    | none => false))))

/-- SET_WINDOW (12 R327, R328). -/
def Dev.setWindow (c : Nat) (cmd : List Byte) (d : Dev) : Option (Nat × Nat) × Dev :=
  let q := acId cmd
  let w := d.windowOf cmd
  if !d.sqMine c q then endsWith saId d
  else if acReserved cmd || nz (acP1 cmd / 2 ^ 32) || nz (bitsN (acP3 cmd) 7 4) || nz (acP3 cmd / 2 ^ 24) then endsWith saField d
  else match d.sq q with
    | none => endsWith saBusy d
    | some s =>
      if s.mode = .draining ∨ s.mode = .tombstone then endsWith saBusy d
      else if !s.sched then endsWith saField d
      else if !d.inSchedRange w.start then endsWith saRange d
      else if d.windowBad c q w then endsWith saConflict d
      else endsWith 0 ((d.windowShut q).modSq q (fun s => { s with window := some w }))

/-- SET_WINDOW as a command. -/
def execSetWindow (ctx : Nat) (cmd : List Byte) (s : State) : Result :=
  performMem (isAdmin ctx cmd 0x08) s (fun _ d => d.admTake ctx cmd (Dev.setWindow ctx cmd))

/-- CLEAR_WINDOW (12 R328). -/
def execClearWindow (ctx : Nat) (cmd : List Byte) (s : State) : Result :=
  performMem (isAdmin ctx cmd 0x09) s (fun _ d => d.admTake ctx cmd (fun d =>
    d.sqCommand ctx cmd (fun _ => true) (fun d => endsWith 0 (d.windowShut (acId cmd)))))

/-- RESUME_CQ (12 R337, Table 6): RESULT 1 where the queue is still STALLED; one whose translation is asked for completes
when it comes. -/
def execResumeCq (ctx : Nat) (cmd : List Byte) (s : State) : Result :=
  performMem (isAdmin ctx cmd 0x0A) s (fun _ d => d.admTake ctx cmd (fun d =>
    let k := acId cmd
    if !d.cqMine ctx k then endsWith saId d
    else if !acBare cmd then endsWith saField d
    else if (d.cq k).isNone then endsWith saBusy d
    else
      let d1 := d.cqResume k
      if ((d1.cq k).map (fun s => s.asked)).getD false then (none, d1.modCq k (fun s => { s with resumes := s.resumes ++ [(ctx, acTag cmd)] }))
      else (some (0, b2n (decide ((d1.cq k).map (fun s => s.mode) = some .stalled))), d1)))

/-- INVALID_OPCODE (12 R343). -/
def execInvalidOpcode (ctx : Nat) (cmd : List Byte) (s : State) : Result :=
  performMem (ctxOk ctx && decide (cmd.length = 64) && cmd.head?.any (fun b => decide (b.toNat = 0) || decide (10 < b.toNat))) s (fun _ d => d.admTake ctx cmd (endsWith saOpcode))

/-- An admin submission doorbell, by the rules of Table 1 (12 R342, R321). -/
def Dev.admBell (c : Nat) (val : W32) (d : Dev) : Dev :=
  let a := d.admin c
  if !d.admOn c then d.dbError
  else if (val - a.tail).toInt < 0 ∨ 2 ^ d.admSqLog c < (val - a.head).toNat then d.dbError
  else d.modAdmin c (fun a => { a with tail := val })

/-- ADMIN_DOORBELL (12 R342). -/
def execAdminDoorbell (req : Req) (ctx : Nat) (val : W32) (s : State) : Result :=
  performMem (reqOk req && ctxOk ctx) s (fun _ d => if d.reachesCtx req ctx then (d.dropShadow req).admBell ctx val else d)
/-- ADMIN_CQ_DOORBELL (12 R342, R335). -/
def execAdminCqDoorbell (req : Req) (ctx : Nat) (val : W32) (s : State) : Result :=
  performMem (reqOk req && ctxOk ctx) s (fun _ d => if d.reachesCtx req ctx then (d.dropShadow req).cqBell (256 + ctx) val else d)
/-- ADMIN_RESUME (12 R342, R337). -/
def execAdminResume (req : Req) (ctx : Nat) (val : W32) (s : State) : Result :=
  performMem (reqOk req && ctxOk ctx) s (fun _ d =>
    if d.reachesCtx req ctx then (if fbit val 0 then (d.dropShadow req).cqResume (256 + ctx) else d.dropShadow req) else d)

/-- A write of FE_ADMc_CFG (12 Table 10): setting EN starts the pair with its rings and counts; clearing it ends it. A
virtual function's write with a vector outside its window is not taken (14 R393; log 19). -/
def Dev.admCfgWrite (req : Req) (c : Nat) (val : W32) (d : Dev) : Dev :=
  let isVf := match req with
    | .func f => f != 0
    | .core _ _ => false
    | .half _ _ => false
  if isVf && !d.vecOk c (fld val 19 9) then d else
  let was := fbit (d.admCfg c) 31
  let d1 := storeReg req (offAdm c + 0x20) val d
  let w := d1.admCfg c
  if fbit w 31 && !was then
    (d1.modAdmin c (fun _ => {})).putCq (256 + c)
      { log2 := d1.admCqLog c, loc := fbit w 8, irqAll := true, vec := fld w 19 9, base := d1.word64 (offAdm c + 0x18) }
  else if !fbit w 31 && was then (d1.modAdmin c (fun _ => {})).modFe (fun f => { f with cqs := mapDel f.cqs (256 + c) })
  else d1

end Sys2Proof.Machine
end

