-- ==== Sys2Proof/Machine/Array.lean ====
section
/-! DEFINITION. The Alanko array instructions (06 R150-R167): issue into the array queue, where an instruction that may start does its whole work. -/
namespace Sys2Proof.Machine

/-- Issue of an array instruction in format AM (06 R151-R153, R156). -/
def Dev.issueAm (t h : Nat) (w : W64) (d : Dev) : Dev :=
  d.issueStart t h w .array [fA w, fB w, fC w, fD w, fE w] (amFault t) (amIssue (d.tile t).twin)

/-- MMA (06 R151-R155; 03 R54). -/
def execMma (t h : Nat) (w : W64) (s : State) : Result :=
  perform (isOp t h w 0x40) s (fun _ d => d.issueAm t h w)

/-- MMA_X2 (06 R161). -/
def execMmaX2 (t h : Nat) (w : W64) (s : State) : Result :=
  perform (isOp t h w 0x41) s (fun _ d => d.issueAm t h w)

/-- MMA_X3 (06 R161). -/
def execMmaX3 (t h : Nat) (w : W64) (s : State) : Result :=
  perform (isOp t h w 0x42) s (fun _ d => d.issueAm t h w)

/-- MMA_S (06 R162). -/
def execMmaS (t h : Nat) (w : W64) (s : State) : Result :=
  perform (isOp t h w 0x43) s (fun _ d => d.issueAm t h w)

/-- MMA_M (06 R163). -/
def execMmaM (t h : Nat) (w : W64) (s : State) : Result :=
  perform (isOp t h w 0x44) s (fun _ d => d.issueAm t h w)

/-- DIST (06 R164, R165). -/
def execDist (t h : Nat) (w : W64) (s : State) : Result :=
  perform (isOp t h w 0x45) s (fun _ d => d.issueAm t h w)

/-- WLD (06 R157). -/
def execWld (t h : Nat) (w : W64) (s : State) : Result :=
  perform (isOp t h w 0x47) s (fun _ d => d.issueAm t h w)

/-- WL (06 R158, R159). -/
def execWl (t h : Nat) (w : W64) (s : State) : Result :=
  perform (isOp t h w 0x46) s (fun _ d => d.issueStart t h w .array [fA w] (wlFault t) wlIssue)

end Sys2Proof.Machine
end

