-- ==== Sys2Proof/Machine/Crc.lean ====
section
/-! DEFINITION. CRC-32C (17 R442): polynomial 0x1EDC6F41 reflected, initial value and final XOR all ones. -/
namespace Sys2Proof.Machine

/-- One bit of the CRC. -/
def crc32cBit (c : W32) : W32 := if c.getLsbD 0 then (c >>> 1) ^^^ 0x82F63B78#32 else c >>> 1
/-- One byte of the CRC. -/
def crc32cByte (c : W32) (b : Byte) : W32 := iter crc32cBit 8 (c ^^^ b.setWidth 32)
/-- The CRC of a byte string. -/
def crc32c (bs : List Byte) : W32 := (bs.foldl crc32cByte 0xFFFFFFFF#32) ^^^ 0xFFFFFFFF#32

end Sys2Proof.Machine
end

