-- ==== Sys2Proof/Machine/StepBase.lean ====
section
/-! DEFINITION. The step controller's reading of its records, its choice of scale, and what it notes of a bucket at FINAL (09 R240-R254). -/
namespace Sys2Proof.Machine

/-- Change the step controller's state. -/
def Dev.modStep (f : StepState → StepState) (d : Dev) : Dev := { d with step := f d.step }

/-! ## Records (09 Tables 1 and 2) -/

/-- A plan entry from its 16 bytes. -/
def planEntry (b : List Byte) : PlanEntry :=
  { owner := bitsN (leAt b 0 4) 19 0
    stack := bitsN (leAt b 0 4) 22 20
    primary := bitsN (leAt b 4 2) 11 0
    alternate := bitsN (leAt b 6 2) 11 0
    trust := leAt b 8 1 == 1
    tied := bitsN (leAt b 9 1) 0 0 == 1
    tpair := leAt b 12 4 }

/-- Whether a plan entry breaks a range or a reserved field (09 Table 2). -/
def planBad (b : List Byte) : Bool :=
  bitsN (leAt b 0 4) 31 23 != 0 || bitsN (leAt b 4 2) 15 12 != 0 || bitsN (leAt b 6 2) 15 12 != 0 || decide (1 < leAt b 8 1) ||
  bitsN (leAt b 9 1) 7 1 != 0 || leAt b 10 2 != 0 || (leAt b 8 1 == 0 && leAt b 12 4 != 0)

/-- Whether a group record breaks a range or a reserved field (09 Table 1); NORM_WORD and the two words after it stand in
sync memory (09 R261, 10 R286). -/
def groupBad (b : List Byte) : Bool :=
  let nw := leAt b 32 8
  leAt b 4 4 == 0 || decide (2 ^ 20 < leAt b 4 4) || bitsN (leAt b 8 4) 31 20 != 0 || decide (1 < leAt b 12 1) || decide (16 < leAt b 13 1) ||
  decide (16 < leAt b 14 1) || leAt b 15 1 == 0 || decide (4 < leAt b 15 1) || bitsN (leAt b 16 4) 31 20 != 0 || bitsN (leAt b 20 4) 31 27 != 0 ||
  leAt b 44 4 != 0 || leAt b 56 8 != 0 || decide (nw < syncBase) || decide (syncBase + syncSize < nw + 24) || nw % 8 != 0

/-- The group that a record, its bitmap and its plan describe. -/
def groupOf (b bitmap plan : List Byte) (stepRec : Nat) (schedule : Schedule) : Group :=
  { id := leAt b 0 4
    nc := leAt b 4 4
    nodeBase := bitsN (leAt b 8 4) 19 0
    elastic := leAt b 12 1 == 1
    h := leAt b 13 1
    nh := leAt b 14 1
    redo := leAt b 15 1
    root := bitsN (leAt b 16 4) 19 0
    normPrimary := bitsN (leAt b 20 4) 11 0
    normAlternate := bitsN (leAt b 20 4) 23 12
    normStack := bitsN (leAt b 20 4) 26 24
    bitmap := bitmap
    normWord := leAt b 32 8
    plan := (List.range (leAt b 40 4)).map (fun i => planEntry (sliceB plan (16 * i) 16))
    stepRec := stepRec
    schedule := schedule }

/-- Read a group record with its bitmap and plan (09 R240); none where it cannot be read or breaks a range. -/
def Dev.readGroup (addr : Nat) (stepRec : Nat) (schedule : Schedule) (d : Dev) : Option Group × Dev :=
  match d.plainRead addr 64 with
  | (none, d1) => (none, d1)
  | (some b, d1) =>
    if groupBad b then (none, d1) else
    match d1.plainRead (leAt b 24 8) ((leAt b 4 4 + 7) / 8) with
    | (none, d2) => (none, d2)
    | (some m, d2) =>
      match d2.plainRead (leAt b 48 8) (16 * leAt b 40 4) with
      | (none, d3) => (none, d3)
      | (some p, d3) =>
        if (List.range (leAt b 40 4)).any (fun i => planBad (sliceB p (16 * i) 16)) then (none, d3)
        else (some (groupOf b m p stepRec schedule), d3)

/-- Whether contributor i is a member (09 Table 1). -/
def Group.isMember (g : Group) (i : Nat) : Bool := decide (i < g.nc) && (listGet (0 : Byte) g.bitmap (i / 8)).getLsbD (i % 8)
/-- The members' contributor numbers, ascending, and their count. -/
def Group.members (g : Group) : List Nat := (List.range g.nc).filter g.isMember
def Group.count (g : Group) : Nat := g.members.length
/-- The members' nodes in the order of 09 R261: ascending, rotated so that the root comes first. -/
def Group.tree (g : Group) : List Nat :=
  let ns := g.members.map (· + g.nodeBase)
  ns.filter (fun n => decide (g.root ≤ n)) ++ ns.filter (fun n => decide (n < g.root))
/-- The children of member j of that order (09 R261). -/
def Group.children (g : Group) (j : Nat) : List Nat := (g.tree.drop (16 * j + 1)).take 16
/-- A node's place in that order. -/
def Group.place (g : Group) (node : Nat) : Option Nat := g.tree.findIdx? (· == node)
/-- The owners: nodes named by some plan entry, without repeats (09 R259). -/
def Group.owners (g : Group) : List Nat := (g.plan.map (fun e => e.owner)).eraseDups

/-- The key of the norm bucket among the step's buckets: no plan index reaches it (09 Table 1). -/
def normKey : Nat := 4294967296
/-- The entry of the plan, or of the norm bucket, by key: stack, primary, alternate. -/
def Group.entries (g : Group) (k : Nat) : Option (Nat × Nat × Nat) :=
  if k = normKey then some (g.normStack, g.normPrimary, g.normAlternate)
  else (g.plan[k]?).map (fun e => (e.stack, e.primary, e.alternate))
/-- Whether a key names a trust bucket or the norm bucket (09 R259, R264). -/
def Group.special (g : Group) (k : Nat) : Bool :=
  k == normKey || (match g.plan[k]? with
    | some e => e.trust
    | none => false)
/-- The table entry an attempt uses. -/
def BucketTry.entry (t : BucketTry) (e : Nat × Nat × Nat) : Nat := if t.alternate then e.2.2 else e.2.1

/-- The owners of a trust entry's tensor (09 R264). -/
def Group.tensorOwners (g : Group) (k : Nat) : List Nat :=
  ((g.plan.zipIdx.filter (fun e => !e.1.trust && Config.ofTensor g.id k e.2)).map (fun e => e.1.owner)).eraseDups
/-- The required roster of the norm bucket or a trust bucket (09 R259, R264). -/
def Group.roster (g : Group) (k : Nat) : List Nat := if k = normKey then g.owners else g.tensorOwners k
/-- Whether every member is in the schedule domain of this part: the buckets of such a group close at deadlines (09 R247,
R266). -/
def Dev.oneDomain (g : Group) (d : Dev) : Bool :=
  g.members.all (fun i => decide (g.nodeBase + i = d.node) || d.ft.members.contains (g.nodeBase + i))

/-- The endpoint of the core that runs the step controller (log 21), and the agent it is. -/
def stepEp : Nat := 136
def Dev.stepWho (d : Dev) : Who := { kind := .engine, node := d.node, endpoint := stepEp, owner := 0xFF }

/-! ## The scale (09 R250, R251) -/

/-- ceil_log2. -/
def ceilLog2 (m : Nat) : Nat := if m ≤ 1 then 0 else Nat.log2 (m - 1) + 1
/-- choose_x (09 R250). -/
def chooseX (me : Int) (m h : Nat) : Int :=
  if me = -32768 then -149 else
  let x := me + 1 + ceilLog2 m + h - 62
  if x < -149 then -149 else if x > 16383 then 16383 else x

/-! ## Classes (09 R254) -/

/-- Whether a roster of contributor numbers holds all of some. -/
def rosterHolds (marks need : List Nat) : Bool := need.all marks.contains
/-- The class of an attempt at FINAL (09 Table 5, R259, R264). -/
def Group.classOf (g : Group) (k : Nat) (flags : Byte) (nrecv : W32) (marks : List Nat) : BucketClass :=
  if flags.getLsbD 2 then .nonfinite
  else if flags &&& 0x0B#8 ≠ 0 then .redo
  else if g.special k then (if rosterHolds marks ((g.roster k).map (· - g.nodeBase)) then .clean else .redo)
  else
    let full := rosterHolds marks g.members && marks.all g.members.contains
    if g.elastic then (if nrecv = 0 then .redo else if full then .clean else .short)
    else (if full then .clean else .redo)

/-- What the step controller notes of an attempt at FINAL (09 R242, R254; 10 R288). A pre-pass has no class but NONFINITE
(R251). -/
def Dev.stepFinal (s b : Nat) (d : Dev) : Dev :=
  match d.step.group, d.bucket s b with
  | some g, some k =>
    if !d.step.active then d else
    let note (key : Nat) (t : BucketTry) : BucketTry :=
      match g.entries key with
      | none => t
      | some e =>
        if e.1 = s ∧ t.entry e = b ∧ t.final = false then
          let c := g.classOf key k.flags k.nrecv k.marks
          { t with
            final := true
            cls := if t.pre && c != .nonfinite then none else some c
            vane := d.step.vanes
            maxexp := k.maxexp, flags := k.flags, marks := k.marks, x := k.x, data := k.data, normsq := k.normsq }
        else t
    let sat := k.flags.getLsbD 0 && d.step.tries.any (fun e => match g.entries e.1 with
      | some x => x.1 == s && e.2.entry x == b
      | none => false)
    d.modStep (fun st => { st with
      tries := st.tries.map (fun e => (e.1, note e.1 e.2)), satSeen := st.satSeen || sat, bucketSat := st.bucketSat || sat })
  | _, _ => d

/-- Whether an attempt of a bucket is final and feeds on (09 R254). -/
def BucketTry.feeds (t : BucketTry) : Bool :=
  t.final && (match t.cls with
    | some .nonfinite => true
    | some .short => true
    | some .clean => true
    | some .redo => false
    | none => false)

/-- The gradient bucket of this member's attempt that a stack's entry belongs to, with the entry its current attempt
uses. -/
def Dev.shardTry (s b : Nat) (d : Dev) : Option (Nat × BucketTry × Nat) :=
  match d.step.group with
  | none => none
  | some g => d.step.tries.findSome? (fun t => match g.entries t.1 with
    | some x => if !g.special t.1 && x.1 == s && (x.2.1 == b || x.2.2 == b) then some (t.1, t.2, t.2.entry x) else none
    | none => none)

end Sys2Proof.Machine
end

