-- ==== Sys2Proof/Machine/Vat.lean ====
section
/-! DEFINITION. The commands of the vat adders (08 R217-R224). -/
namespace Sys2Proof.Machine

/-- End a bucket command (08 Table 13). -/
def Dev.vatEnd (s st reason : Nat) (d : Dev) : Dev := d.modVat s (fun v => { v with status := st, reason := reason })

/-- The STATE byte of a bucket's entry (08 R217). -/
def Dev.stateByte (s b st : Nat) (d : Dev) : Dev := d.vatPut s b (d.bucketOff s b + 64) [BitVec.ofNat 8 st]

/-- The state a bucket shows (08 Table 1). -/
def BucketMode.num : BucketMode → Nat
  | .zeroing => 1 | .opened => 2 | .closing => 3 | .final => 4

/-- Bytes 64 to 127 of an entry (08 Table 1). -/
def Bucket.result (k : Bucket) : List Byte :=
  [BitVec.ofNat 8 k.mode.num, k.flags] ++ leBytes 2 (BitVec.ofInt 16 k.maxexp).toNat ++ leBytes 4 k.nrecv.toNat ++
  leBytes 8 k.w.toNat ++ leBytes 24 k.sumsq ++ leBytes 4 k.normsq.toNat ++ leBytes 4 k.late.toNat ++
  leBytes 4 k.surplus.toNat ++ leBytes 4 0 ++ leBytes 8 k.closeFt.toNat

/-- The bucket that an entry's bytes 0 to 63 describe. -/
def bucketOf (bs : List Byte) : Bucket :=
  { mode := if bitsN (leAt bs 0 4) 2 2 = 1 then .zeroing else .opened
    f32 := bitsN (leAt bs 0 4) 0 0 == 1
    dl := bitsN (leAt bs 0 4) 1 1 == 1
    x := signedN 16 (leAt bs 4 2)
    elems := leAt bs 8 4
    nc := leAt bs 12 4
    nodeBase := leAt bs 16 4
    data := leAt bs 24 8
    intake := leAt bs 32 8
    roster := leAt bs 40 8
    deadline := BitVec.ofNat 64 (leAt bs 48 8)
    notify := leAt bs 56 8 }

/-- Whether an entry is malformed (08 Table 1; log 13 on NOTIFY). -/
def malformedEntry (bs : List Byte) (k : Bucket) : Bool :=
  decide (leAt bs 0 4 / 8 ≠ 0) || decide (leAt bs 6 2 ≠ 0) || decide (leAt bs 20 4 ≠ 0) ||
  decide (k.elems = 0) || decide (2 ^ 26 < k.elems) || decide (k.nc = 0) || decide (2 ^ 20 < k.nc) ||
  decide (2 ^ 20 ≤ k.nodeBase) || decide (2 ^ 20 < k.nodeBase + k.nc) ||
  decide (k.data % 64 ≠ 0) || decide (k.intake % 64 ≠ 0) ||
  (decide (k.notify ≠ 0) && (decide (k.notify % 8 ≠ 0) || decide (k.notify < syncBase) || decide (syncBase + syncSize ≤ k.notify)))

/-- Buckets of a stack that are ZEROING, OPEN or CLOSING (08 Table 13 ACTIVE). -/
def Dev.vatActive (d : Dev) (s : Nat) : Nat := ((d.bucketsOf s).filter (fun e => decide (e.2.mode ≠ .final))).length

/-- Write zeros over a range of a bucket. -/
def Dev.vatZero (s b off n : Nat) (d : Dev) : Dev := d.vatPut s b off (List.replicate n 0#8)

/-- OPEN (08 R218). -/
def Dev.bucketOpen (s b : Nat) (d : Dev) : Dev :=
  if (d.bucket s b).isSome then d.vatEnd s 3 1
  else if d.vatLen s ≤ b ∨ stackSize < d.bucketOff s b + 128 then d.vatEnd s 3 5
  else
    let r := d.stackRead s (d.bucketOff s b) 64
    match r.1 with
    | none => r.2.vatEnd s 3 2
    | some bs =>
      let k := bucketOf bs
      if malformedEntry bs k then r.2.vatEnd s 3 2
      else if stackSize < k.data + 8 * k.elems ∨ stackSize < k.intake + k.intakeLen ∨ stackSize < k.roster + 2 * k.mapLen ∨
          (k.dl = true ∧ d.inSchedRange k.deadline = false) then r.2.vatEnd s 3 5
      else if (d.bucketsOf s).any (fun e => meets k.intake k.intakeLen e.2.intake e.2.intakeLen) then r.2.vatEnd s 3 4
      else if 256 ≤ d.vatActive s then r.2.vatEnd s 3 3
      else
        let d1 := ((r.2.putBucket s b k).vatZero s b k.roster (2 * k.mapLen)).vatPut s b (d.bucketOff s b + 64) k.result
        d1.vatEnd s (if decide (k.mode = .zeroing) then 1 else 2) 0

/-- Run a bucket command of a stack unless one is busy (08 Table 13). -/
def Dev.bucketCmd (req : Req) (s : Nat) (f : Dev → Dev) (d : Dev) : Dev :=
  let d1 := d.dropShadow req
  if (d1.vat s).status = 1 then d1 else f d1

/-- BUCKET_OPEN (08 R218). -/
def execBucketOpen (req : Req) (stack bucket : Nat) (s : State) : Result :=
  performMem (reqFull req && bucketOk stack bucket) s (fun _ d => d.bucketCmd req stack (Dev.bucketOpen stack bucket))

/-- A bucket enters CLOSING (08 R223). -/
def Dev.closeBegin (s b : Nat) (d : Dev) : Dev :=
  match d.bucket s b with
  | none => d
  | some k => (d.putBucket s b { k with mode := .closing, closeFt := d.ft.now }).stateByte s b 3

/-- CLOSE (08 R218): forced sets FORCED; closing begins at once, or when zeroing ends. -/
def Dev.bucketClose (s b : Nat) (forced : Bool) (d : Dev) : Dev :=
  match d.bucket s b with
  | none => d
  | some k =>
    let k1 := if forced || (k.dl && !d.due k.deadline) then k.flag 5 else k
    match k.mode with
    | .opened => (d.putBucket s b k1).closeBegin s b
    | .zeroing => d.putBucket s b { k1 with closing := true }
    | .closing | .final => d

/-- Whether a bucket is ZEROING. -/
def Dev.zeroing (d : Dev) (s b : Nat) : Bool :=
  match d.bucket s b with
  | some k => decide (k.mode = .zeroing)
  | none => false

/-- BUCKET_CLOSE (08 R218): in any other state it completes with no effect. A CLOSE of the bucket that the stack's OPEN still
zeroes is taken although that OPEN keeps the stack busy, and both complete when zeroing ends (DEDUCED, unsafe, log 13). -/
def execBucketClose (req : Req) (stack bucket : Nat) (s : State) : Result :=
  performMem (reqFull req && bucketOk stack bucket) s (fun _ d =>
    if d.zeroing stack bucket then (d.dropShadow req).bucketClose stack bucket false
    else d.bucketCmd req stack (fun d => (d.bucketClose stack bucket false).vatEnd stack 2 0))

/-- A FINAL bucket returns to FREE (08 R218). -/
def Dev.bucketFree (s b : Nat) (d : Dev) : Dev :=
  (d.stateByte s b 0).modEng (fun e => { e with buckets := mapDel e.buckets (bKey s b) })

/-- Whether a churn descriptor of the stack uses a bucket (08 R218). -/
def Dev.churnUses (d : Dev) (s b : Nat) : Bool :=
  let c : ChurnState := mapGet {} d.eng.churns s
  decide (c.phase ≠ .idle) && (leAt c.desc 16 4 % 4096 == b)

/-- RELEASE (08 R218). -/
def Dev.bucketRelease (s b : Nat) (d : Dev) : Dev :=
  match d.bucket s b with
  | none => d.vatEnd s 3 1
  | some k =>
    if k.mode = .final then
      if d.churnUses s b then (d.putBucket s b { k with releasing := true }).vatEnd s 1 0
      else (d.bucketFree s b).vatEnd s 2 0
    else d.vatEnd s 3 1

/-- The step controller opens an entry (09 R247, R250, R255): with ZERO, with DL where it is to close at a deadline, with the
deadline the schedule places, and with the scale it chose. -/
def Dev.stepOpen (s b : Nat) (x : Int) (dl : Bool) (deadline : Option W64) (d : Dev) : Dev :=
  if (d.bucket s b).isSome then d.bucketOpen s b else
  let off := d.bucketOff s b
  match d.stackRead s off 1 with
  | (some [c], d1) =>
    let d2 := ((d1.stackWrite s off [c ||| (if dl then 6#8 else 4#8)]).2.stackWrite s (off + 4) (leBytes 2 (BitVec.ofInt 16 x).toNat)).2
    (match deadline with
      | some t => (d2.stackWrite s (off + 48) (leBytes 8 t.toNat)).2
      | none => d2).bucketOpen s b
  | (_, d1) => d1

/-- Whether an order can be given now: its stack's last command has ended, and a RELEASE finds no bucket that still closes
(10 R290). -/
def Dev.orderReady (o : Nat × Nat × VatOrder) (d : Dev) : Bool :=
  decide ((d.vat o.1).status ≠ 1) && (match o.2.2, d.bucket o.1 o.2.1 with
    | .release, some k => decide (k.mode = .final)
    | _, _ => true)

/-- The order that comes next: the first of a stack's that can be given. -/
def Dev.nextOrder (d : Dev) : Option (Nat × Nat × VatOrder) :=
  (List.range Config.stackCount).findSome? (fun s => (d.step.orders.find? (fun o => o.1 == s)).filter (fun o => d.orderReady o))

/-- Give the vats the step controller's commands, each stack's in order, at most n. -/
def Dev.stepPump : Nat → Dev → Dev
  | 0, d => d
  | n + 1, d =>
    match d.nextOrder with
    | none => d
    | some o =>
      let d1 := d.modStep (fun st => { st with orders := st.orders.erase o })
      Dev.stepPump n (match o.2.2 with
        | .openAt x dl t => d1.stepOpen o.1 o.2.1 x dl t
        | .close => (d1.bucketClose o.1 o.2.1 false).vatEnd o.1 2 0
        | .release => d1.bucketRelease o.1 o.2.1)
/-- All that can be given now. -/
def Dev.stepGo (d : Dev) : Dev := d.stepPump d.step.orders.length

/-- BUCKET_RELEASE (08 R218). -/
def execBucketRelease (req : Req) (stack bucket : Nat) (s : State) : Result :=
  performMem (reqFull req && bucketOk stack bucket) s (fun _ d => d.bucketCmd req stack (Dev.bucketRelease stack bucket))

/-- BUCKET_CMD_RESERVED (08 R218): refused with REASON 6. -/
def execBucketCmdReserved (req : Req) (stack bucket : Nat) (s : State) : Result :=
  performMem (reqFull req && bucketOk stack bucket) s (fun _ d => d.bucketCmd req stack (fun d => d.vatEnd stack 3 6))

/-- ZEROING_DONE (08 R218, R219): DATA is cleared, held operations are applied with their stamps, and a close that came
meanwhile begins. -/
def execZeroingDone (stack bucket : Nat) (s : State) : Result :=
  performMem (bucketOk stack bucket) s (fun _ d =>
    match d.bucket stack bucket with
    | none => d
    | some k =>
      if k.mode = .zeroing then
        let d1 := ((d.putBucket stack bucket { k with mode := .opened, held := [], closing := false }).vatZero stack bucket k.data (8 * k.elems)).stateByte stack bucket 2
        let d2 := runAll k.held (fun h d => d.vatApply stack bucket h.1 h.2) d1
        ((if k.closing then d2.closeBegin stack bucket else d2).vatEnd stack 2 0).stepGo
      else d)

/-- An intake operation of an agent, through the stack-local window. -/
def Dev.intakeOp (who : Who) (s off : Nat) (op : MemOp) (d : Dev) : Dev :=
  let r := d.memAccess who (stackBase + stackSpan * s + off) op
  r.2.2.emit (.access who r.1 r.2.1)

/-- CONTRIBUTION_DATA (08 R219, R220): a write that reaches a stack-local offset. -/
def execContributionData (who : Who) (stack off : Nat) (data : List Byte) (s : State) : Result :=
  performMem (stackOk stack) s (fun _ d => d.intakeOp who stack off (.write data))

/-- END_MARKER (08 R219, R220). -/
def execEndMarker (who : Who) (stack off : Nat) (val : W64) (s : State) : Result :=
  performMem (stackOk stack) s (fun _ d => d.intakeOp who stack off (.atomic .sig val 0))

/-- BUCKET_DEADLINE (08 R223): only on a part that releases schedule targets. -/
def execBucketDeadline (stack bucket : Nat) (s : State) : Result :=
  performMem (bucketOk stack bucket) s (fun _ d =>
    match d.bucket stack bucket with
    | none => d
    | some k =>
      if k.dl && d.due k.deadline && d.releasing then
        match k.mode with
        | .opened => d.closeBegin stack bucket
        | .zeroing => d.putBucket stack bucket { k with closing := true }
        | .closing | .final => d
      else d)

/-- The sum of squared vat words: an uncorrectable word sets ERROR and adds nothing (08 R223). -/
def Dev.vatSumsq (s b data : Nat) : Nat → Nat → Nat → Dev → Nat × Dev
  | 0, _, acc, d => (acc, d)
  | n + 1, i, acc, d =>
    let r := d.stackRead s (data + 8 * i) 8
    match r.1 with
    | none => Dev.vatSumsq s b data n (i + 1) acc (r.2.vatError s b)
    | some bs => Dev.vatSumsq s b data n (i + 1) (acc + (signedN 64 (leNat bs)).natAbs ^ 2) r.2

/-- NORMSQ of a bucket (08 R223). -/
def Bucket.norm (k : Bucket) : W32 :=
  if k.nan then 0x7FC00000#32
  else if k.flags.getLsbD 2 then 0x7F800000#32
  else if k.w = 0 then 0
  else toF32 (((mkNum k.sumsq 0 false).scale (2 * k.x)).div (mkNum (k.w.toNat ^ 2 : Nat) 0 false))

/-- Finalisation (08 R223). -/
def Dev.finalise (s b : Nat) (d : Dev) : Dev :=
  match d.bucket s b with
  | none => d
  | some k0 =>
    let r := d.vatSumsq s b k0.data k0.elems 0 0
    let k := (r.2.bucket s b).getD k0
    let k1 := if k.seen.any (fun i => !k.marks.contains i) then k.flag 1 else k
    let k2 := if k.nrecv = 0 then k1.flag 4 else k1
    let k3 := { k2 with mode := .final, sumsq := r.1 }
    let k4 := { k3 with normsq := k3.norm }
    let d1 := (r.2.putBucket s b k4).vatPut s b (r.2.bucketOff s b + 64) k4.result
    let d2 := ((d1.setEvent (evVat s) (1#16 ||| (if k4.flags &&& 0x0F#8 = 0 then 0#16 else 2#16))).stepFinal s b).stepGo
    if k4.notify = 0 then d2 else ((d2.atomPlain k4.notify .sig 1 0).2).vaneRun vaneFuel

/-- BUCKET_FINAL (08 R223): a CLOSING bucket finishes and its NOTIFY word is signalled. -/
def execBucketFinal (stack bucket : Nat) (s : State) : Result :=
  performMem (bucketOk stack bucket) s (fun _ d =>
    match d.bucket stack bucket with
    | none => d
    | some k => if k.mode = .closing then d.finalise stack bucket else d)

end Sys2Proof.Machine
end

