-- ==== Sys2Proof/Machine/ChurnOps.lean ====
section
/-! DEFINITION. Operations of the churn units (08 R225-R235): descriptors, recipes, blocks, mirrors and LAMB. -/
namespace Sys2Proof.Machine

/-- One churn unit. -/
def Dev.churn (d : Dev) (s : Nat) : ChurnState := mapGet {} d.eng.churns s
/-- Change one churn unit. -/
def Dev.modChurn (s : Nat) (f : ChurnState → ChurnState) (d : Dev) : Dev :=
  d.modEng (fun e => { e with churns := mapMod {} e.churns s f })

/-- The stack-local window address of an offset. -/
def stackAddr (s off : Nat) : Nat := stackBase + stackSpan * s + off
/-- Read bytes of a unit's own stack on behalf of its task; none where the read meets an uncorrectable error or is refused. -/
def Dev.unitRead (who : Who) (a n : Nat) (d : Dev) : Option (List Byte) × Dev :=
  if n = 0 then (some [], d) else
  let r := d.memAccess who a (.read n)
  (if r.1 = stOk then some r.2.1 else none, r.2.2)
/-- Write bytes on behalf of a unit's task. -/
def Dev.unitWrite (who : Who) (a : Nat) (bs : List Byte) (d : Dev) : Bool × Dev :=
  if bs.isEmpty then (true, d) else
  let r := d.memAccess who a (.write bs)
  (decide (r.1 = stOk), r.2.2)
/-- Read several ranges in order: none where one fails. -/
def Dev.unitReads (who : Who) : List (Nat × Nat) → Dev → Option (List Byte) × Dev
  | [], d => (some [], d)
  | (a, n) :: l, d =>
    match d.unitRead who a n with
    | (none, d1) => (none, d1)
    | (some bs, d1) =>
      match Dev.unitReads who l d1 with
      | (none, d2) => (none, d2)
      | (some cs, d2) => (some (bs ++ cs), d2)
/-- Make several writes in order; false where one fails. -/
def Dev.unitWrites (who : Who) : List (Nat × List Byte) → Dev → Bool × Dev
  | [], d => (true, d)
  | (a, bs) :: l, d =>
    let r := d.unitWrite who a bs
    let q := Dev.unitWrites who l r.2
    (r.1 && q.1, q.2)

/-! ## The descriptor (08 Table 4) -/

/-- The fields of a churn descriptor. -/
def cdRecipe (b : List Byte) : Nat := bitsN (leAt b 0 4) 4 0
def cdMirror (b : List Byte) : Bool := bitsN (leAt b 0 4) 5 5 == 1
def cdNoMark (b : List Byte) : Bool := bitsN (leAt b 0 4) 6 6 == 1
def cdLsexp (b : List Byte) : Int := signedN 8 (bitsN (leAt b 0 4) 15 8)
def cdK (b : List Byte) : Nat := leAt b 4 4
def cdNcol (b : List Byte) : Nat := leAt b 8 4
def cdN0 (b : List Byte) : Nat := leAt b 12 4
def cdBucket (b : List Byte) : Nat := bitsN (leAt b 16 4) 11 0
def cdEoff (b : List Byte) : Nat := leAt b 20 4
def cdF (b : List Byte) : Nat := leAt b 24 8
def cdFs (b : List Byte) : Nat := leAt b 32 4
def cdBs (b : List Byte) : Nat := leAt b 36 4
def cdBk (b : List Byte) : Nat := leAt b 40 8
def cdWh (b : List Byte) : Nat := leAt b 48 8
def cdMom (b : List Byte) : Nat := leAt b 56 8
def cdHyp (b : List Byte) : Nat := leAt b 64 8
def cdStep (b : List Byte) : Nat := leAt b 72 4
def cdTensor (b : List Byte) : Nat := leAt b 76 4
def cdNormw (b : List Byte) : Nat := leAt b 80 8
def cdNdl (b : List Byte) : W64 := BitVec.ofNat 64 (leAt b 88 8)
def cdStat (b : List Byte) : Nat := leAt b 96 8
def cdMir (b : List Byte) : W64 := BitVec.ofNat 64 (leAt b 104 8)
def cdMrec (b : List Byte) : W64 := BitVec.ofNat 64 (leAt b 112 8)
def cdLrec (b : List Byte) : Nat := leAt b 120 8

/-- Bytes of a moment m and of a moment v by recipe, 0 for none (08 Table 6). -/
def mBytes (r : Nat) : Nat := if r = 0 then 0 else if r = 4 ∨ r = 9 then 2 else 4
def vBytes (r : Nat) : Nat := if 3 ≤ r ∧ r ≤ 7 then 4 else 0
/-- Block columns of K, and the number of blocks (08 R226). -/
def cdKb (b : List Byte) : Nat := cdK b / 32
def cdNb (b : List Byte) : Nat := cdKb b * (cdNcol b / 32)
/-- Where v begins (08 R229), and the scratch area of LAMB (R231). -/
def cdVbase (b : List Byte) : Nat := cdMom b + cdNb b * 1024 * mBytes (cdRecipe b)
def cdScratch (b : List Byte) (i : Nat) : Nat := cdMom b + (2 + i) * cdNb b * 4096

/-- The elements of the bucket a descriptor names: of the running bucket, or as its entry stands (08 R226). -/
def Dev.bucketElems (s b : Nat) (d : Dev) : Nat :=
  match d.bucket s b with
  | some k => k.elems
  | none => leNat (((d.stackRead s (d.bucketOff s b + 8) 4).1).getD [])

/-- Whether a churn descriptor is malformed (08 R225-R227, Table 4, R231; log 20). -/
def Dev.churnBad (s : Nat) (b : List Byte) (d : Dev) : Bool :=
  let r := cdRecipe b
  let k := cdK b
  let nEnd := cdN0 b + cdNcol b
  let nb := cdNb b
  let fits (a n : Nat) : Bool := decide (a + n ≤ stackSize)
  decide (9 < r) || nz (bitsN (leAt b 0 4) 7 7) || nz (bitsN (leAt b 0 4) 31 16) || (cdNoMark b && r != 6) || nz (bitsN (leAt b 16 4) 31 12) ||
  k == 0 || cdNcol b == 0 || nz (k % 32) || nz (cdNcol b % 32) || nz (cdN0 b % 32) || nz (cdEoff b % 1024) ||
  [cdF b, cdFs b, cdBs b, cdBk b, cdWh b, cdMom b, cdHyp b].any (fun x => nz (x % 64)) || cdStep b == 0 ||
  decide (cdFs b < 2 * k) || decide (cdBs b < 2 * nEnd) ||
  !fits (cdF b) ((nEnd - 1) * cdFs b + 2 * k) || !fits (cdWh b) ((nEnd - 1) * cdFs b + 2 * k) ||
  !fits (cdBk b) ((k - 1) * cdBs b + 2 * nEnd) || !fits (cdVbase b) (nb * 1024 * vBytes r) ||
  (decide (r = 6 ∨ r = 7) && !fits (cdScratch b 0) (3 * nb * 4096)) ||
  !fits (cdHyp b) 64 || !fits (cdStat b) nb || !fits (cdLrec b) (32 * nb) ||
  nz (cdNormw b % 8) || decide (cdNormw b < syncBase) || decide (syncBase + syncSize < cdNormw b + (if r = 7 then 16 else 8)) ||
  !d.inSchedRange (cdNdl b) || decide (d.vatLen s ≤ cdBucket b) || decide (d.bucketElems s (cdBucket b) < cdEoff b + nb * 1024) ||
  (r == 6 && (cdMirror b || (cdNoMark b && decide (cdMrec b ≠ 0))))

/-- STAT takes one byte for every block (08 R227). -/
def Dev.statAll (s : Nat) (c : ChurnState) (v : Byte) (d : Dev) : Dev :=
  (d.unitWrite c.who (stackAddr s (cdStat c.desc)) (List.replicate (cdNb c.desc) v)).2

/-- A descriptor ends before its blocks with an outcome: every block's status, and the event (08 R227). -/
def Dev.churnStop (s : Nat) (o : ChurnOutcome) (v : Byte) (ev : Nat) (d : Dev) : Dev :=
  ((d.statAll s (d.churn s) v).modChurn s (fun c => { c with phase := .ended, outcome := o })).setFlag (evChn s) ev

/-- The step controller completes a descriptor of the running step: the loss-scale exponent in LSEXP (10 R281), and in BUCKET
the entry that holds the shard's final attempt (09 R254). It does so as the unit takes the descriptor (DEDUCED, safe,
log 21). -/
def Dev.churnPatch (s off : Nat) (b : List Byte) (d : Dev) : List Byte × Dev :=
  if !d.step.active || cdStep b != d.step.step.toNat then (b, d) else
  let ls := leBytes 1 (BitVec.ofInt 8 d.step.lsexp).toNat
  let d1 := (d.memAccess d.stepWho (stackAddr s (off + 1)) (.write ls)).2.2
  let b1 := b.take 1 ++ ls ++ b.drop 2
  match d.shardTry s (cdBucket b) with
  | some (_, t, e) =>
    if t.feeds && !t.pre then
      (b1.take 16 ++ leBytes 4 e ++ b1.drop 20, (d1.memAccess d.stepWho (stackAddr s (off + 16)) (.write (leBytes 4 e))).2.2)
    else (b1, d1)
  | none => (b1, d1)

/-- A unit takes its dispatched descriptor (08 R225, R227): malformed, it ends; on a part whose schedule time has left the
domain every block ends NO_NORM. No field of a descriptor or a task gives a start in schedule time: a descriptor starts when
its queue has dispatched it and its unit is free, and only NDL is held against schedule time (DESIGN CHOICE, unsafe,
log 20). -/
def Dev.churnTake (s : Nat) (d : Dev) : Dev :=
  let k := 168 + s
  let e := d.engine k
  match e.draught with
  | none => d
  | some t =>
    if e.running.isSome || t.stop.isSome || d.keepsEntry k || decide ((d.churn s).phase ≠ .idle) then d else
    let who : Who := { kind := .engine, node := d.node, endpoint := k, owner := ((d.sq t.queue).map (fun q => q.ctx)).getD 0xFF }
    let d1 := d.modEngine k (fun e => { e with running := some { t with start := d.ft.now }, draught := none, loaded := false })
    let r := d1.unitRead who (stackAddr s (tdDesc t.desc)) 128
    let q := r.2.churnPatch s (tdDesc t.desc) (r.1.getD [])
    let d2 := (if r.1.isSome then q.2 else r.2).modChurn s (fun c => { phase := .waiting, desc := q.1, who := who, queue := some t.queue, blocks := c.blocks })
    match r.1 with
    | none => (d2.modChurn s (fun c => { c with phase := .ended, outcome := .malformed })).setFlag (evChn s) 7
    | some _ =>
      if d2.churnBad s q.1 then (d2.modChurn s (fun c => { c with phase := .ended, outcome := .malformed })).setFlag (evChn s) 7
      else if !d2.releasing then d2.churnStop s .noNorm 0x30 4
      else d2

/-! ## The norm (08 R227, R231) -/

/-- The word of sync memory at a local address. -/
def Dev.syncAt (d : Dev) (a : Nat) : W64 := d.sync64 ((a - syncBase) / 8)

/-- Whether the norm word, or the trust pair of LAMB pass 2, carries the step of a descriptor and can be read. -/
def Dev.normHere (d : Dev) (b : List Byte) : Bool :=
  let ok (a : Nat) : Bool := hi32 (d.syncAt a) == BitVec.ofNat 32 (cdStep b) && !d.mem.badSync.contains ((a - syncBase) / 8)
  ok (cdNormw b) && (cdRecipe b != 7 || ok (cdNormw b + 8))

/-- Lower CHN_LSCALE once for a skipped step (08 R227). -/
def Dev.lscaleHalve (step : Nat) (d : Dev) : Dev :=
  if d.word 0x2500004 = BitVec.ofNat 32 step then d else
  let e := signedN 8 (fld (d.word 0x2500000) 7 0)
  let e' : Int := if e - 1 < -64 then -64 else e - 1
  (d.setWord 0x2500000 (BitVec.ofNat 32 (BitVec.ofInt 8 e').toNat)).setWord 0x2500004 (BitVec.ofNat 32 step)

/-- 1.0 as a binary32 word. -/
def oneF32 : W32 := 0x3F800000#32
/-- Whether a binary32 word is finite. -/
def finF32 (w : W32) : Bool := (f32Num w).isFin
/-- A value of the hyperparameter block (08 Table 5). -/
def hypWord (h : List Byte) (i : Nat) : W32 := BitVec.ofNat 32 (leAt h (4 * i) 4)

/-- The clip factor (08 R227). -/
def clipOf (tau nu : W32) : W32 :=
  if (Num.zero false).lt (f32Num tau) && (f32Num tau).lt (f32Num nu) then div32 tau nu else oneF32

/-- The trust ratio of LAMB pass 2 (08 R231). -/
def trustRatio (sw su : W32) : W32 :=
  if (f32Num sw).eqv (.zero false) || (f32Num su).eqv (.zero false) then oneF32 else div32 (sqrt32 sw) (sqrt32 su)

/-- The bucket is FINAL and the norm is here (08 R227 steps 3 to 6). -/
def Dev.churnReady (s : Nat) (d : Dev) : Dev :=
  let c := d.churn s
  match d.bucket s (cdBucket c.desc) with
  | none => d
  | some k =>
    if decide (c.phase ≠ .waiting) || c.stopAsk || decide (k.mode ≠ .final) || !d.normHere c.desc || c.lost || !d.releasing then d
    else if k.flags &&& 0x0F#8 ≠ 0 then d.churnStop s .bucket 0x20 5
    else
      let nu := toF32 ((f32Num (lo32 (d.syncAt (cdNormw c.desc)))).scale (-(cdLsexp c.desc)))
      if cdRecipe c.desc ≠ 7 ∧ finF32 nu = false then (d.churnStop s .skipped 0x10 0).lscaleHalve (cdStep c.desc)
      else
        let h := d.unitRead c.who (stackAddr s (cdHyp c.desc)) 64
        let f := if cdRecipe c.desc = 7 then trustRatio (lo32 (d.syncAt (cdNormw c.desc))) (lo32 (d.syncAt (cdNormw c.desc + 8)))
          else (h.1.map (fun b => clipOf (hypWord b 5) nu)).getD oneF32
        (h.2.statAll s c 0).modChurn s (fun c => { c with phase := .blocks, hyp := h.1, clip := f })

/-- NDL comes due, or the part leaves lock, while the unit waits (08 R227 step 2). -/
def Dev.churnNoNorm (s : Nat) (d : Dev) : Dev :=
  let c := d.churn s
  if c.phase = .waiting ∧ (c.lost = true ∨ d.releasing = false ∨ d.due (cdNdl c.desc) = true) then d.churnStop s .noNorm 0x30 4 else d

/-! ## Recipes (08 R228, R229, R231) -/

/-- powi32 (08 R229): n bits of the exponent, low first. -/
def powi32 : Nat → W32 → W32 → Nat → W32
  | 0, r, _, _ => r
  | n + 1, r, x, t => if t = 0 then r else powi32 n (if t % 2 = 1 then mul32 r x else r) (mul32 x x) (t / 2)
def negF32 (w : W32) : W32 := w ^^^ 0x80000000#32
/-- sgn (08 R229): of a NaN, that NaN. -/
def sgnF32 (w : W32) : W32 :=
  match f32Num w with
  | .zero _ => 0
  | .nan => 0x7FC00000#32
  | .inf n => if n then negF32 oneF32 else oneF32
  | .fin m _ => if m < 0 then negF32 oneF32 else oneF32

/-- The gradient of an element (08 R228). -/
def gradOf (v : Int) (x lsexp : Int) (w : W64) (clip : W32) : W32 :=
  let q := if w = 0 then 0#32 else toF32 (((mkNum v 0 false).scale (x - lsexp)).div (mkNum (w.toNat : Nat) 0 false))
  if clip = oneF32 then q else mul32 q clip

/-- What a recipe makes of an element: the master, the moments and u; a form it has not stays +0. -/
structure ElemOut where
  w : W32
  m : W32 := 0
  v : W32 := 0
  u : W32 := 0
deriving DecidableEq, Repr

/-- adamw's moments and u (08 R229). -/
def adamwOut (h : List Byte) (t : Nat) (bc : Bool) (g w m v : W32) : ElemOut :=
  let b1 := hypWord h 1
  let b2 := hypWord h 2
  let a1 := sub32 oneF32 b1
  let a2 := sub32 oneF32 b2
  let m' := fma32 b1 m (mul32 a1 g)
  let v' := fma32 b2 v (mul32 a2 (mul32 g g))
  let mh := if bc then div32 m' (sub32 oneF32 (powi32 32 oneF32 b1 t)) else m'
  let vh := if bc then div32 v' (sub32 oneF32 (powi32 32 oneF32 b2 t)) else v'
  let u := fma32 (hypWord h 4) w (div32 mh (add32 (sqrt32 vh) (hypWord h 3)))
  { w := fma32 (negF32 (hypWord h 0)) u w, m := m', v := v', u := u }

/-- One element through a recipe other than LAMB pass 2 (08 R229); m is the widened old moment. -/
def recipeOut (r : Nat) (h : List Byte) (t : Nat) (g w m v : W32) : ElemOut :=
  let eta := negF32 (hypWord h 0)
  let lam := hypWord h 4
  let mu := hypWord h 6
  match r with
  | 0 => { w := fma32 eta (fma32 lam w g) w }
  | 1 =>
    let m' := fma32 mu m g
    { w := fma32 eta (fma32 lam w m') w, m := m' }
  | 2 =>
    let m' := fma32 mu m g
    { w := fma32 eta (fma32 lam w (fma32 mu m' g)) w, m := m' }
  | 5 => adamwOut h t false g w m v
  | 8 | 9 =>
    let a1 := sub32 oneF32 (hypWord h 1)
    let a2 := sub32 oneF32 (hypWord h 2)
    let u := fma32 lam w (sgnF32 (fma32 a1 g (mul32 (hypWord h 1) m)))
    { w := fma32 eta u w, m := fma32 a2 g (mul32 (hypWord h 2) m), u := u }
  | _ => adamwOut h t true g w m v

/-- A BF16 moment by stochastic rounding (08 R230): its bits and whether it saturated. -/
def momBf16 (seed tensor step idx : Nat) (m : W32) : W16 × Bool :=
  let c := Fmt.bf16.convert (.sr (srWord seed tensor step idx)) true (f32Num m)
  let z := Fmt.bf16.convert (.sr (srWord seed tensor step idx)) false (f32Num m)
  (BitVec.ofNat 16 c, c != z)

/-! ## Blocks (08 R226, R232-R235) -/

/-- The rows and columns of block b (08 R226). -/
def blkK0 (b : List Byte) (i : Nat) : Nat := 32 * (i % cdKb b)
def blkN0 (b : List Byte) (i : Nat) : Nat := cdN0 b + 32 * (i / cdKb b)

/-- The forward spans of block i in an array of forward layout (07 R202). -/
def fwdSpans (s base : Nat) (b : List Byte) (i : Nat) : List (Nat × Nat) :=
  (List.range 32).map (fun c => (stackAddr s (base + (blkN0 b i + c) * cdFs b + 2 * blkK0 b i), 64))

/-- The inputs of a block: vat words where the recipe reads them, cream, whey, and its old moments (08 R226, R231). -/
def blockSpans (s : Nat) (b : List Byte) (data i : Nat) : List (Nat × Nat) :=
  let r := cdRecipe b
  let at' (base : Nat) : Nat × Nat := (stackAddr s (base + 4096 * i), 4096)
  (if r = 7 then [] else [(stackAddr s (data + 8 * (cdEoff b + 1024 * i)), 8192)]) ++
  fwdSpans s (cdF b) b i ++ fwdSpans s (cdWh b) b i ++
  (if r = 7 then [at' (cdScratch b 0), at' (cdScratch b 1), at' (cdScratch b 2)]
   else (if mBytes r = 0 then [] else [(stackAddr s (cdMom b + 1024 * mBytes r * i), 1024 * mBytes r)]) ++
     (if vBytes r = 0 then [] else [at' (cdVbase b)]))

/-- A word of the inputs: the j-th of n bytes from an offset. -/
def inAt (bs : List Byte) (off n j : Nat) : Nat := leAt bs (off + n * j) n

/-- The masters of a block, decoded; a pair that no master encodes to gives a free value (04 R110). -/
def Dev.masters (cr : List (W16 × W16)) (d : Dev) : List W32 × Dev :=
  cr.foldl (fun (acc : List W32 × Dev) e =>
    let a := decodeMaster e.1 e.2 0
    if a = decodeMaster e.1 e.2 1 then (acc.1 ++ [a], acc.2)
    else
      let f := acc.2.takeFree
      (acc.1 ++ [f.1.setWidth 32], f.2)) ([], d)

/-- Element j of a block under its recipe. -/
def elemOut (c : ChurnState) (k : Bucket) (h bs : List Byte) (j : Nat) (w : W32) : ElemOut :=
  let b := c.desc
  let r := cdRecipe b
  if r = 7 then
    let at' (i : Nat) : W32 := BitVec.ofNat 32 (inAt bs (4096 + 4096 * i) 4 j)
    { w := fma32 (mul32 (negF32 (hypWord h 0)) c.clip) (at' 2) w, m := at' 0, v := at' 1, u := at' 2 }
  else
    let g := gradOf (signedN 64 (inAt bs 0 8 j)) k.x (cdLsexp b) k.w c.clip
    let m : W32 := if mBytes r = 0 then 0 else if mBytes r = 2 then (BitVec.ofNat 32 (inAt bs 12288 2 j)) <<< 16 else BitVec.ofNat 32 (inAt bs 12288 4 j)
    let v : W32 := if vBytes r = 0 then 0 else BitVec.ofNat 32 (inAt bs (12288 + 1024 * mBytes r) 4 j)
    recipeOut r h (cdStep b) g w m v

/-- The byte writes of a computed block but its record, its status, and its bytes in mirror order: forward cream, whey and
moments (08 R232, R233). -/
def blockWrites (s : Nat) (b : List Byte) (seed i : Nat) (os : List ElemOut) : List (Nat × List Byte) × Byte × List Byte :=
  let r := cdRecipe b
  let k0 := blkK0 b i
  let n0 := blkN0 b i
  let ms := os.map (fun o => satMaster (f32Num o.w))
  let en := ms.map (fun m => encodeMaster m.1)
  let cr := en.flatMap (fun e => leBytes 2 e.1.toNat)
  let wh := en.flatMap (fun e => leBytes 2 e.2.toNat)
  let mo := os.mapIdx (fun j o => momBf16 seed (cdTensor b) (cdStep b) ((n0 + j / 32) * cdK b + k0 + j % 32) o.m)
  let mb := if mBytes r = 0 then [] else if mBytes r = 2 then mo.flatMap (fun m => leBytes 2 m.1.toNat) else os.flatMap (fun o => leBytes 4 o.m.toNat)
  let vb := if vBytes r = 0 then [] else os.flatMap (fun o => leBytes 4 o.v.toNat)
  let cols (bs : List Byte) (base : Nat) : List (Nat × List Byte) :=
    (List.range 32).map (fun c => (stackAddr s (base + (n0 + c) * cdFs b + 2 * k0), sliceB bs (64 * c) 64))
  let back : List (Nat × List Byte) := (List.range 32).map (fun q =>
    (stackAddr s (cdBk b + (k0 + q) * cdBs b + 2 * n0), (List.range 32).flatMap (fun c => sliceB cr (2 * (32 * c + q)) 2)))
  let sat := ms.any (fun m => m.2) || (mBytes r == 2 && mo.any (fun m => m.2))
  (cols cr (cdF b) ++ back ++ cols wh (cdWh b) ++ [(stackAddr s (cdMom b + 1024 * mBytes r * i), mb), (stackAddr s (cdVbase b + 4096 * i), vb)],
   (if sat then 3 else 1), cr ++ wh ++ mb ++ vb)

/-- The scratch writes of LAMB pass 1 (08 R231). -/
def scratchWrites (s : Nat) (b : List Byte) (i : Nat) (os : List ElemOut) : List (Nat × List Byte) :=
  [(stackAddr s (cdScratch b 0 + 4096 * i), os.flatMap (fun o => leBytes 4 o.m.toNat)),
   (stackAddr s (cdScratch b 1 + 4096 * i), os.flatMap (fun o => leBytes 4 o.v.toNat)),
   (stackAddr s (cdScratch b 2 + 4096 * i), os.flatMap (fun o => leBytes 4 o.u.toNat))]

/-- A commit record (08 Table 8). -/
def Dev.blockRecord (d : Dev) (b : List Byte) (i st : Nat) (flags : Byte) (crc : W32) : List Byte :=
  leBytes 4 (cdStep b) ++ leBytes 4 (cdEoff b / 1024 + i) ++ leBytes 1 st ++ [flags] ++ leBytes 2 0 ++ leBytes 4 crc.toNat ++
  leBytes 8 d.ft.now.toNat ++ leBytes 8 0

/-- The events of a block's status: SAT, NONFINITE and ERROR (08 Table 14). -/
def Dev.blockEvents (s : Nat) (st : Byte) (d : Dev) : Dev :=
  d.setEvent (evChn s) ((if st.getLsbD 1 then 2#16 else 0) ||| (if st.getLsbD 2 then 4#16 else 0) ||| (if st.getLsbD 3 then 8#16 else 0))

/-- A block ends: its status byte is stored, and the unit goes on to the next (08 R232, R235). -/
def Dev.blockDone (s : Nat) (st : Byte) (d : Dev) : Dev :=
  let c := d.churn s
  let d1 := (d.unitWrite c.who (stackAddr s (cdStat c.desc + c.block)) [st]).2
  (d1.modChurn s (fun c => { c with
    block := c.block + 1
    mirror := none
    flagged := c.flagged || st &&& 0x0E#8 != 0
    sat := c.sat || st.getLsbD 1
    errs := if st.getLsbD 3 then c.errs ++ [c.block] else c.errs })).blockEvents s st

/-- Cut a transfer at 4 KiB boundaries (13 R355), at most n pieces. -/
def cutPages : Nat → W64 → List Byte → List (W64 × List Byte)
  | 0, _, _ => []
  | n + 1, a, bs =>
    if bs.isEmpty then [] else
    let k := 4096 - a.toNat % 4096
    (a, bs.take k) :: cutPages n (a + BitVec.ofNat 64 k) (bs.drop k)

/-- How many requests bytes for a global address take: none where they stay here. -/
def Dev.sendCount (d : Dev) (a : W64) (bs : List Byte) : Nat :=
  ((cutPages 5 a bs).filter (fun p => decide (gNode p.1 ≠ d.node))).length

/-- Send bytes of a unit to a global address: here, or as requests. Answers whether a write here failed. -/
def Dev.unitSend (who : Who) (use : ReqFor) (a : W64) (bs : List Byte) (d : Dev) : Bool × Dev :=
  (cutPages 5 a bs).foldl (fun (acc : Bool × Dev) p =>
    if gNode p.1 = d.node then
      let r := acc.2.unitWrite who (gLoc p.1) p.2
      (acc.1 || !r.1, r.2)
    else (acc.1, (acc.2.request who.endpoint use (acc.2.pkWrite who.endpoint (gNode p.1) (gLoc p.1) p.2)).2)) (false, d)

/-- The remote record leaves once every write of the mirror data is acknowledged (08 R233 step 4). -/
def Dev.mirrorPump (s : Nat) (d : Dev) : Dev :=
  let c := d.churn s
  match c.mirror with
  | none => d
  | some m =>
    if m.recordSent || m.failed || m.out != 0 then d else
    let d1 := d.modChurn s (fun c => { c with mirror := some { m with recordSent := true } })
    let r := d1.unitSend c.who (.mirror s) m.addr m.record
    if d1.sendCount m.addr m.record = 0 then
      r.2.modChurn s (fun c => { c with mirror := c.mirror.map (fun m => { m with acked := !r.1, failed := r.1 }) })
    else r.2

/-- Start the mirror of a block: its data goes to slot STEP mod 2 (08 R233 step 1). -/
def Dev.mirrorStart (s : Nat) (st : Byte) (resend : Bool) (bs : List Byte) (d : Dev) : Dev :=
  let c := d.churn s
  let slot := 2 * c.block + cdStep c.desc % 2
  let rec' := d.blockRecord c.desc c.block 2 (st ||| 0x80#8) (crc32c bs)
  let a := cdMir c.desc + BitVec.ofNat 64 (slot * bs.length)
  let w : MirrorWork := {
    block := c.block, resend := resend, status := st, record := rec', addr := cdMrec c.desc + BitVec.ofNat 64 (32 * slot)
    out := d.sendCount a bs }
  let r := (d.modChurn s (fun c => { c with mirror := some w })).unitSend c.who (.mirror s) a bs
  r.2.modChurn s (fun c => { c with mirror := c.mirror.map (fun m => { m with failed := m.failed || r.1 }) })

/-- A computed block is written, its local record last, and mirrored where the descriptor says so (08 R232, R233). -/
def Dev.blockWrite (s : Nat) (b : List Byte) (os : List ElemOut) (d : Dev) : Dev :=
  let c := d.churn s
  let i := c.block
  let o := blockWrites s b (d.word64 0x2500008).toNat i os
  let recd := (stackAddr s (cdLrec b + 32 * i), d.blockRecord b i 1 o.2.1 (crc32c o.2.2))
  let d1 := if cdMirror b then d.mirrorStart s o.2.1 false o.2.2 else d
  let r := d1.unitWrites c.who (o.1 ++ [recd])
  let d2 := r.2.modChurn s (fun c => { c with blocks := c.blocks + 1, wrote := true })
  if !r.1 then (d2.modChurn s (fun c => { c with mirror := none })).blockDone s 8
  else if cdMirror b then d2.mirrorPump s else d2.blockDone s o.2.1

/-- A block of LAMB pass 1: only the scratch area is written, and the sums grow (08 R231, 09 R264). -/
def Dev.lambWrite (s : Nat) (b : List Byte) (ws : List W32) (os : List ElemOut) (d : Dev) : Dev :=
  let c := d.churn s
  let sq (l : List W32) : W32 := toF32 (vtreeSum (l.map (fun x => rto34 ((f32Num x).mul (f32Num x)))))
  let r := d.unitWrites c.who (scratchWrites s b c.block os)
  if !r.1 then r.2.blockDone s 8
  else (r.2.modChurn s (fun c => { c with
      blocks := c.blocks + 1
      pw := add32 c.pw (sq ws)
      pu := add32 c.pu (sq (os.map (fun o => o.u))) })).blockDone s 1

/-- Compute and write block c.block (08 R228-R234). -/
def Dev.blockCompute (s : Nat) (h : List Byte) (d : Dev) : Dev :=
  let c := d.churn s
  let b := c.desc
  match d.bucket s (cdBucket b) with
  | none => d.blockDone s 8
  | some k =>
    match d.unitReads c.who (blockSpans s b k.data c.block) with
    | (none, d1) => d1.blockDone s 8
    | (some bs, d1) =>
      let off := if cdRecipe b = 7 then 0 else 8192
      let pairs := (List.range 1024).map (fun j => ((BitVec.ofNat 16 (inAt bs off 2 j) : W16), (BitVec.ofNat 16 (inAt bs (off + 2048) 2 j) : W16)))
      let w := d1.masters pairs
      let os := w.1.mapIdx (fun j x => elemOut c k h bs j x)
      if os.any (fun o => !(finF32 o.w && finF32 o.m && finF32 o.v && finF32 o.u)) then w.2.blockDone s 4
      else if cdRecipe b = 6 then w.2.lambWrite s b w.1 os
      else w.2.blockWrite s b os

/-- One block (08 R232-R234): its local record decides whether it is done already, only mirrored again, or computed. -/
def Dev.churnBlock (s : Nat) (d : Dev) : Dev :=
  let c := d.churn s
  let b := c.desc
  if decide (c.phase ≠ .blocks) || c.stopAsk || c.mirror.isSome || decide (cdNb b ≤ c.block) then d else
  match d.unitRead c.who (stackAddr s (cdLrec b + 32 * c.block)) 32 with
  | (none, d1) => d1.blockDone s 8
  | (some r, d1) =>
    let same := leAt r 0 4 == cdStep b
    let st := leAt r 8 1
    if same && (st == 2 || (st == 1 && !cdMirror b)) then d1.blockDone s 0x40
    else if same && st == 1 then
      let r6 := cdRecipe b
      let spans := fwdSpans s (cdF b) b c.block ++ fwdSpans s (cdWh b) b c.block ++
        (if mBytes r6 = 0 then [] else [(stackAddr s (cdMom b + 1024 * mBytes r6 * c.block), 1024 * mBytes r6)]) ++
        (if vBytes r6 = 0 then [] else [(stackAddr s (cdVbase b + 4096 * c.block), 4096)])
      match d1.unitReads c.who spans with
      | (none, d2) => d2.blockDone s 8
      | (some bs, d2) => (d2.mirrorStart s 0x40 true bs).mirrorPump s
    else
      match c.hyp with
      | none => d1.blockDone s 8
      | some h => d1.blockCompute s h

/-- The pair of LAMB pass 1 goes to its trust bucket after the last block (08 R231). -/
def Dev.lambPair (s : Nat) (d : Dev) : Dev :=
  let c := d.churn s
  if cdRecipe c.desc = 6 ∧ c.phase = .blocks ∧ cdNb c.desc ≤ c.block ∧ c.pairSent = false ∧ c.stopAsk = false then
    let bs := leBytes 4 c.pw.toNat ++ leBytes 4 c.pu.toNat
    let d1 := d.modChurn s (fun c => { c with pairSent := true, pairOut := c.pairOut + d.sendCount (cdMir c.desc) bs })
    let r := d1.unitSend c.who (.lamb s) (cdMir c.desc) bs
    r.2.modChurn s (fun c => { c with pairFail := c.pairFail || r.1 })
  else d

/-- An `atom.sig` of a part's engine to a global address: here, or as a signal with release ordering (11 R298). -/
def Dev.unitSignal (who : Who) (a : W64) (v : W64) (d : Dev) : Dev :=
  if gNode a = d.node then ((d.memAccess who (gLoc a) (.atomic .sig v 0)).2.2)
  else (d.request who.endpoint .other (d.pkAtomic who.endpoint (gNode a) (gLoc a) .sig v 0)).2

/-- A marker of a weight for this node (08 Table 2). -/
def Dev.markerWord (d : Dev) (weight : Nat) : W64 := BitVec.ofNat 64 (d.node * 2 ^ 32 + weight % 2 ^ 32)

end Sys2Proof.Machine
end

