-- ==== Sys2Proof/Machine/PowerOps.lean ====
section
/-! DEFINITION. Operations of power and clocks (18): pools, ceilings, load-step warnings, rails. -/
namespace Sys2Proof.Machine

/-- Change power state. -/
def Dev.modPwr (f : PwrState → PwrState) (d : Dev) : Dev := { d with pwr := f d.pwr }
/-- One quadrant. -/
def Dev.quad (d : Dev) (q : Nat) : QuadPwr := mapGet {} d.pwr.quads q
def Dev.modQuad (q : Nat) (f : QuadPwr → QuadPwr) (d : Dev) : Dev := d.modPwr (fun p => { p with quads := mapMod {} p.quads q f })
/-- One AVS rail. -/
def Dev.rail (d : Dev) (r : Nat) : AvsRail := mapGet {} d.pwr.rails r
def Dev.modRail (r : Nat) (f : AvsRail → AvsRail) (d : Dev) : Dev := d.modPwr (fun p => { p with rails := mapMod {} p.rails r f })

/-- Microseconds of the fabric-time clock in ftu. -/
def usFtu (n : Nat) : Nat := n * 1024000
/-- Whether an interval has passed since a time, if there was one. -/
def Dev.passed (d : Dev) (since : Option W64) (ftu : Nat) : Bool :=
  match since with
  | none => true
  | some t => decide ((ftu : Int) ≤ ftDiff d.ft.now t)

/-! ## Pools and ceilings (18 R457-R462) -/

/-- The logical tiles of a quadrant's pool (18 R457). -/
def Dev.pool (d : Dev) (q : Nat) : List Nat := (List.range Config.tiles).filter (fun t => d.quadOf t == q)
/-- Whether a tile is lent: lulled and not waking, or disabled (18 R459, R461). -/
def Dev.lent (d : Dev) (t : Nat) : Bool :=
  ((mapGet {} d.tiles t).lulled && !(mapGet {} d.tiles t).waking) || !fbit (d.word (offTil t + 4)) 0
/-- Lent tiles of a quadrant. -/
def Dev.lentCount (d : Dev) (q : Nat) : Nat := ((d.pool q).filter d.lent).length
/-- PWR_CTL's enables. -/
def Dev.pwrOn (d : Dev) (i : Nat) : Bool := fbit (d.word offPwr) i

/-- The lending ceiling for n pooled and l lent tiles (18 Table 2). -/
def lendTable (n l : Nat) : Nat :=
  if 8 * l < n then 1750 else if 8 * l < 2 * n then 1850 else if 8 * l < 3 * n then 1950 else if 8 * l < 4 * n then 2050 else 2100
/-- The lending ceiling (18 R456, R459, Table 3). -/
def Dev.lendCeil (d : Dev) (q : Nat) : Nat :=
  if !d.pwrOn 0 || !d.pwr.feSeen || (d.rail q).fault || (d.quad q).warm then 1750
  else lendTable (d.pool q).length (d.lentCount q)
/-- PWR_Qq_CAP.MHZ (18 Table 7). -/
def Dev.capMhz (d : Dev) (q : Nat) : Nat := clampN 500 2100 (fld (d.word (offPwr + 0x100 + 0x20 * q)) 11 0) / 50 * 50
/-- What the ceiling should be (18 R458). -/
def Dev.ceilWanted (d : Dev) (q : Nat) : Nat :=
  min (min (d.lendCeil q) (d.quad q).thermal) (min (d.quad q).current (d.capMhz q))

/-- A fall lowers the clocks at once (18 R460). -/
def Dev.ceilFall (q : Nat) (d : Dev) : Dev :=
  let w := d.ceilWanted q
  if w < (d.quad q).ceil then d.modQuad q (fun s => { s with ceil := w, fell := some d.ft.now }) else d

/-- Write the AVS target of a quadrant's rail for a clock (18 R455, R460): none until the fused table is loaded (20 R503). -/
def Dev.avsWrite (q mhz : Nat) (d : Dev) : Dev :=
  if d.boot.stage.toNat < 3 ∨ 128 ≤ d.boot.stage.toNat then d
  else (d.modQuad q (fun s => { s with volt := mhz })).emit (.avs q (Config.avsMv q mhz (d.quad q).temp))

/-- One evaluation of a quadrant's ceiling (18 R460). -/
def Dev.ceilEvaluate (q : Nat) (d : Dev) : Dev :=
  let s := d.quad q
  let w := d.ceilWanted q
  if w < s.ceil then d.ceilFall q
  else if s.ceil < w ∧ s.rise = none ∧ d.passed s.lastRise (usFtu 10) = true ∧ d.boot.firmware = true ∧ (d.rail q).fault = false then
    (d.modQuad q (fun s => { s with rise := some (w, d.ft.now), lastRise := some d.ft.now, fell := none })).avsWrite q w
  else d

/-! ## Load-step warnings (18 R463, R464) -/

/-- LEAD and WIDTH in ftu (18 Table 7). -/
def Dev.gustLead (d : Dev) : Nat := clampN 100 1000 (fld (d.word (offPwr + 4)) 11 0) * 1024
def Dev.gustWidth (d : Dev) : Nat := clampN 100 4000 (fld (d.word (offPwr + 4)) 27 16) * 1024

/-- A trigger asserts GUST_N, or keeps it asserted, for WIDTH from now (18 R463). -/
def Dev.gust (q : Nat) (d : Dev) : Dev :=
  if d.pwrOn 1 then d.modQuad q (fun s => { s with gust := some (d.ft.now + BitVec.ofNat 64 d.gustWidth) }) else d

/-- Whether a wait's warning is due: its target minus LEAD has come on the wait's own clock (18 R463). -/
def Dev.warnDue (d : Dev) (target : W64) (abs : Bool) : Bool :=
  decide (ftDiff target (if abs then d.ft.now else d.sched) ≤ (d.gustLead : Nat))

/-- The half of a tile that waits with G = 1, whose warning is due and not yet given. -/
def Dev.halfWarn (d : Dev) (k : Nat) (s : HalfState) : Option (Nat × Nat × Bool) :=
  match s.wait with
  | some { what := .time target abs true, seq := n, .. } =>
    if d.warnDue target abs && !s.halting && !d.pwr.warned.contains (k, n, abs) then some (k, n, abs) else none
  | _ => none

/-- The warnings due on a quadrant's tiles. -/
def Dev.warnings (d : Dev) (q : Nat) : List (Nat × Nat × Bool) :=
  (d.tiles.filter (fun e => d.quadOf e.1 == q)).flatMap (fun e =>
    (d.halfWarn (2 * e.1) e.2.h0).toList ++ (d.halfWarn (2 * e.1 + 1) e.2.h1).toList)

/-- Give the warnings due. -/
def Dev.gustDue (q : Nat) (d : Dev) : Dev :=
  let l := d.warnings q
  if l.isEmpty || !d.pwrOn 1 then d else (d.modPwr (fun p => { p with warned := l ++ p.warned })).gust q

/-- A `wait.ft` with G = 1 issues (18 R464): a target already closer than LEAD triggers at once. -/
def Dev.gustIssue (t k seq : Nat) (target : W64) (abs : Bool) (d : Dev) : Dev :=
  let d1 := d.modPwr (fun p => { p with warned := p.warned.filter (fun w => w.1 != k) })
  if d.pwrOn 1 && decide (ftDiff target (if abs then d.ft.now else d.sched) < (d.gustLead : Nat)) then
    ((d1.modPwr (fun p => { p with warned := (k, seq, abs) :: p.warned })).gust (d.quadOf t)).setFlag evPwr 6
  else d1

/-- A slip was applied: warnings of schedule-relative waits are to be given again (18 R464). -/
def Dev.gustSlip (d : Dev) : Dev := d.modPwr (fun p => { p with warned := p.warned.filter (fun w => w.2.2) })

/-- A tile begins to wake: its share is reclaimed and its quadrant warned (18 R461, R463). -/
def Dev.wakeBegin (t : Nat) (d : Dev) : Dev := (d.ceilFall (d.quadOf t)).gust (d.quadOf t)

/-! ## Rails (18 R456) -/

/-- One transaction with a rail. -/
def AvsRail.poll (reply : Option AvsReply) (r : AvsRail) : AvsRail :=
  match reply with
  | none => { r with silent := r.silent + 1, good := 0 }
  | some p =>
    { r with mv := p.mv, deciA := p.deciA, degC := p.degC, status := p.status, silent := 0
             bad := (if p.fault then r.bad + 1 else 0), good := (if p.fault then 0 else r.good + 1) }
/-- Failed after three silent or three faulty transactions; recovered after three good ones. -/
def AvsRail.judge (r : AvsRail) : AvsRail :=
  if 3 ≤ r.silent ∨ 3 ≤ r.bad then { r with fault := true } else if 3 ≤ r.good then { r with fault := false } else r

/-- A poll of a rail (18 R456): a rail that fails is reported. -/
def Dev.avsPoll (r : Nat) (reply : Option AvsReply) (d : Dev) : Dev :=
  let old := d.rail r
  let new := (old.poll reply).judge
  let d1 := d.modRail r (fun _ => new)
  if new.fault && !old.fault then (d1.setFlag evPwr 5).note 16 13 r 0 (new.status.setWidth 64) [] else d1

/-! ## Current and temperature (18 R467, R468) -/

/-- ILIMIT.AMPS (18 Table 7). -/
def Dev.ilimit (d : Dev) (q : Nat) : Nat := clampN 100 900 (fld (d.word (offPwr + 0x104 + 0x20 * q)) 11 0)

/-- A current estimate (18 R467). -/
def Dev.currentEstimate (q amps : Nat) (d : Dev) : Dev :=
  let s := d.quad q
  let lim := d.ilimit q
  if !d.pwrOn 3 then d.modQuad q (fun s => { s with amps := amps, overs := 0, limiting := false, current := 2100, curStep := none }) else
  let n := if lim < amps then s.overs + 1 else 0
  let hot := decide (2 ≤ n)
  let limiting := hot || (s.limiting && decide (95 * lim < 100 * amps))
  let low := limiting && d.passed s.curStep (usFtu 1)
  let up := !limiting && decide (s.current < 2100) && d.passed s.curStep (usFtu 10)
  (d.modQuad q (fun s => { s with
    amps := amps
    overs := n
    limiting := limiting
    current := if low then max 500 (s.current - 100) else if up then min 2100 (s.current + 50) else s.current
    curStep := if low || up then some d.ft.now else s.curStep })).setFlagIf hot evPwr 3

/-- PWR_THERM's thresholds. -/
def Dev.thermWarn (d : Dev) : Nat := fld (d.word (offPwr + 8)) 7 0
def Dev.thermHot (d : Dev) : Nat := fld (d.word (offPwr + 8)) 15 8
def Dev.thermCrit (d : Dev) : Nat := fld (d.word (offPwr + 8)) 23 16

/-- The thermal ceiling at a temperature (18 Table 3): the new value, and whether the ramp took a step. -/
def Dev.thermNext (d : Dev) (s : QuadPwr) (temp : Nat) : Nat × Bool :=
  let cap := if temp < d.thermWarn then 2100 else 1750
  if d.thermCrit ≤ temp then (500, true)
  else if d.thermHot ≤ temp then
    if d.passed s.thmStep (usFtu 10) then (max 1000 (min s.thermal 1750 - 100), true) else (min s.thermal 1750, false)
  else if 1750 ≤ s.thermal then (cap, false)
  else if temp + 3 < d.thermHot then
    if d.passed s.thmStep (usFtu 100) then (min cap (s.thermal + 100), true) else (s.thermal, false)
  else (s.thermal, false)

/-- The hottest tile sensor of a quadrant reads a temperature (18 R468). -/
def Dev.thermalResponse (q temp : Nat) (d : Dev) : Dev :=
  let s := d.quad q
  let n := d.thermNext s temp
  let warm := decide (d.thermWarn ≤ temp)
  let hot := decide (d.thermHot ≤ temp)
  let crit := decide (d.thermCrit ≤ temp)
  let d1 := d.modQuad q (fun s => { s with
    temp := temp
    thermal := n.1
    thmStep := if n.2 then some d.ft.now else s.thmStep
    warm := warm
    hot := hot
    crit := crit })
  let d2 := d1.setEvent evPwr ((if warm && !s.warm then 1#16 else 0) ||| (if hot && !s.hot then 2#16 else 0) ||| (if crit && !s.crit then 4#16 else 0))
  if crit && !s.crit then d2.note 16 14 q 0 (BitVec.ofNat 64 temp) [] else d2

/-- The level of FAULT_N (18 R456, R468, R471; 20 R507): true while it is asserted. -/
def Dev.faultPin (d : Dev) : Bool :=
  decide (128 ≤ d.boot.stage.toNat) || d.pwr.rails.any (fun r => r.2.fault) || d.pwr.quads.any (fun q => q.2.crit) || d.pwr.refLost

end Sys2Proof.Machine
end

