-- ==== Sys2Proof/Machine/FtOps.lean ====
section
/-! DEFINITION. Operations of fabric time (02): ranking, election counts, alignment, slips and the work of a beat boundary. -/
namespace Sys2Proof.Machine

/-- FT_CTL.EN (02 Table 5). -/
def Dev.ftEn (d : Dev) : Bool := fbit (d.word (offFt + 0x10)) 0
/-- FT_CTL.SRC. -/
def Dev.ftSrc (d : Dev) : Bool := fbit (d.word (offFt + 0x10)) 1
/-- FT_CTL.PPS_EN. -/
def Dev.ppsEn (d : Dev) : Bool := fbit (d.word (offFt + 0x10)) 2
/-- FT_CTL.PRIO. -/
def Dev.ftPrio (d : Dev) : Nat := fld (d.word (offFt + 0x10)) 15 8
/-- MAX_HOPS: 0 acts as 1, values above 16 act as 16 (02 Table 6). -/
def Dev.maxHops (d : Dev) : Nat := clampN 1 16 (fld (d.word (offFt + 0x14)) 20 16)
/-- The beat number (02 R24). -/
def Dev.beatNo (d : Dev) : Nat := d.ft.now.toNat / Config.beat
/-- This chip's reference class: external with SRC = 1 and FT_REF and FT_PPS valid (02 R27). -/
def Dev.ownClass (d : Dev) : Bool := d.ftSrc && d.ft.refValid && d.ft.ppsValid
/-- The distance from beat y to beat x, signed modulo 2^44 as R44 compares times (02 R24, R44). -/
def beatDiff (x y : Nat) : Int := (BitVec.ofNat 44 x - BitVec.ofNat 44 y).toInt

/-- Change fabric-time state. -/
def Dev.modFt (f : FtState → FtState) (d : Dev) : Dev := { d with ft := f d.ft }

/-- Candidate a ranks above candidate b: priority, then class, then lower node ID (02 R27). -/
def ranksAbove (pa : Nat) (ea : Bool) (na pb : Nat) (eb : Bool) (nb : Nat) : Bool :=
  decide (pb < pa) || (pa == pb && ((ea && !eb) || (ea == eb && decide (na < nb))))

/-- Whether a candidate ranks above this chip. -/
def Dev.aboveSelf (d : Dev) (c : Candidate) : Bool := ranksAbove c.prio c.external c.node d.ftPrio d.ownClass d.node

/-- Whether an announce may be used: its hop count is within MAX_HOPS and its candidate is a listed member (02 R26, R28). -/
def Dev.usableCand (d : Dev) (c : Candidate) : Bool := decide (c.hops ≤ d.maxHops) && d.ft.members.contains c.node

/-- Whether a heard candidate, usable or not, ranks above this chip (02 R27). -/
def Dev.hearsBetter (d : Dev) : Bool := d.ft.heard.any (fun e => e.2.node != d.node && d.aboveSelf e.2)

/-- Whether candidate a is to be preferred to b as what is adopted: rank, then fewer hops; ports rise in the list, so
a tie keeps the lower port (02 R27, R28). -/
def betterCand (a b : Candidate) : Bool :=
  ranksAbove a.prio a.external a.node b.prio b.external b.node || (a.node == b.node && decide (a.hops < b.hops))

/-- The best usable candidate above this chip, with its port (02 R27, R28). -/
def Dev.bestCand (d : Dev) : Option (Nat × Candidate) :=
  d.ft.heard.foldl (fun best e =>
    if e.2.node != d.node && d.usableCand e.2 && d.aboveSelf e.2 then
      match best with
      | none => some e
      | some b => if betterCand e.2 b.2 then some e else some b
    else best) none

/-- The master this chip names (02 Table 7): its node, priority and class. -/
def Dev.masterNode (d : Dev) : Nat := d.ft.master.getD d.node

/-- Learn a member of the domain; false where it is left out (02 R26). -/
def Dev.learn (n : Nat) (d : Dev) : Bool × Dev :=
  if n = d.node || d.ft.members.contains n then (true, d)
  else if d.ft.members.length ≥ 1023 then (false, d.setFlag evFt 9)
  else (true, d.modFt (fun f => { f with members := f.members ++ [n] }))

/-- Stage 0x08 follows 0x07 once fabric time is LOCKED or MASTER (20 Table 5). -/
def Dev.stageLocked (d : Dev) : Dev :=
  if d.boot.stage = 7 then { d with boot := { d.boot with stage := 8 } } else d

/-- In FREE or ACQUIRE the wait of every churn unit for its norm is lost (08 R227). -/
def Dev.waitsLost (d : Dev) : Dev :=
  { d with eng := { d.eng with churns := d.eng.churns.map (fun c => (c.1, { c.2 with lost := c.2.lost || decide (c.2.phase = .waiting) })) } }

/-- Enter a fabric-time state, with the event its entry sets (02 R34, R36, Table 10). -/
def Dev.enterFt (m : FtMode) (d : Dev) : Dev :=
  let old := d.ft.mode
  if old = m then d else
  let d1 := d.modFt (fun f => { f with
    mode := m
    inLock := 0
    selfBest := if m = .holdover || old = .master then 0 else f.selfBest
    stepAllowed := decide (m = .acquire)
    incr := if m = .free then BitVec.ofNat 64 Config.incrNominal else f.incr })
  match m with
  | .locked | .master => d1.stageLocked.setFlag evFt 0
  | .acquire => (d1.setFlagIf (decide (old = .locked) || decide (old = .holdover)) evFt 1).waitsLost
  | .free => d1.waitsLost
  | .holdover => d1

/-- FT_MASTER names a node; a change sets MASTER_CHANGE (02 Table 10). -/
def Dev.nameMaster (node prio : Nat) (ext : Bool) (d : Dev) : Dev :=
  (d.modFt (fun f => { f with master := some node, masterPrio := prio, external := ext })).setFlagIf
    (decide (d.masterNode ≠ node)) evFt 2

/-- Take a port as parent for the candidate heard there. -/
def Dev.takeParent (p : Nat) (c : Candidate) (d : Dev) : Dev :=
  d.modFt (fun f => { f with parent := some p, hops := c.hops, missed := 0 })

/-- Adopt the best candidate heard, as R28, R29, R34 and R524 state (02). -/
def Dev.adopt (d : Dev) : Dev :=
  match d.bestCand with
  | none => d
  | some (p, c) =>
    if d.ft.master = some c.node && d.ft.parent.isSome then
      let d1 := d.modFt (fun f => { f with masterPrio := c.prio, external := c.external })
      if d.ft.parent = some p then d1.modFt (fun f => { f with hops := c.hops }) else d1.takeParent p c
    else if d.ft.parent.isSome &&
        !ranksAbove c.prio c.external c.node d.ft.masterPrio d.ft.external d.masterNode then d
    else
      let d1 := (d.nameMaster c.node c.prio c.external).takeParent p c
      match d.ft.mode with
      | .free => d1.enterFt .acquire
      | .acquire => d1.modFt (fun f => { f with inLock := 0 })
      | .locked | .holdover | .master => d1.enterFt .holdover

/-- A master that hears a better candidate of its list that it may not use leaves MASTER (02 R27, R34); for one left out
of the list it keeps its current master (02 R26). -/
def Dev.yieldMaster (d : Dev) : Dev :=
  if d.ft.mode = .master && d.ft.heard.any (fun e => e.2.node != d.node && d.ft.members.contains e.2.node && d.aboveSelf e.2) then
    d.enterFt .free else d

/-- Set FT_INCR, kept within 100 ppm of nominal (02 R23). -/
def Dev.setIncr (want : Nat) (d : Dev) : Dev :=
  let lo := Config.incrNominal - 100 * Config.incrPpm
  let hi := Config.incrNominal + 100 * Config.incrPpm
  d.modFt (fun f => { f with incr := BitVec.ofNat 64 (clampN lo hi want) })

/-- The increment the part chooses: a free value within 1 ppm of the last and within 100 ppm of nominal, raised by a
positive offset and lowered by a negative one (02 R23, R33; log 7). -/
def Dev.servo (off : Int) (d : Dev) : Dev :=
  let r := d.takeFree
  let step := r.1.toNat % (Config.incrPpm + 1)
  let cur := d.ft.incr.toNat
  r.2.setIncr (if off > 0 then cur + step else if off < 0 then cur - step else cur)

/-- What a master disciplined by FT_REF and FT_PPS does at an edge (02 R30): a counter ahead of the edge is slowed and one
behind it hurried; with no capture error the increment follows the rate of FT_REF against REFCLK_SYS, which no state
holds, and moves either way by a free value (log 7). -/
def Dev.steer (err : Int) (d : Dev) : Dev :=
  if err ≠ 0 then d.servo (-err) else
  let r := d.takeFree
  r.2.setIncr (d.ft.incr.toNat + r.1.toNat % (2 * Config.incrPpm + 1) - Config.incrPpm)

/-- The limits of 02 Table 1 and R36 in ftu: 0.25 ns, 1 ns and 100 ns. -/
def lockLimit : Nat := 256
def driftLimit : Nat := 1024
def acquireLimit : Nat := 102400

/-- What a timing stamp from the parent does (02 R33, R34, R36): the offset is stored; LOCKED and HOLDOVER move or stay
by it; in ACQUIRE the one allowed step is taken where the offset exceeds the lock limit; an offset that ends LOCKED sets no
DRIFT, whose rule speaks of a member that stays LOCKED (log 7); the increment follows. -/
def Dev.align (stamp : W64) (delay : W32) (d : Dev) : Dev :=
  let off := ftDiff (stamp + delay.setWidth 64) d.ft.now
  let mag := off.natAbs
  let d1 := d.modFt (fun f => { f with offset := satI32 off })
  match d1.ft.mode with
  | .acquire =>
    if d1.ft.stepAllowed && decide (lockLimit < mag) then
      (d1.modFt (fun f => { f with now := f.now + BitVec.ofInt 64 off, stepAllowed := false, inLock := 0 })).setFlag evFt 7
    else (d1.modFt (fun f => { f with inLock := if mag ≤ lockLimit then f.inLock + 1 else 0 })).servo off
  | .locked =>
    if acquireLimit < mag then d1.enterFt .acquire
    else (d1.setFlagIf (decide (driftLimit < mag)) evFt 3).servo off
  | .holdover => if mag ≤ acquireLimit then (d1.enterFt .locked).servo off else d1.enterFt .acquire
  | .free | .master => d1

/-- The announce a chip sends names the best master it knows: its parent's master with its own hops while that ranks
above this chip, else itself (02 R27). -/
def Dev.announce (d : Dev) : BeatBody :=
  let other := d.ft.parent.isSome && decide (d.masterNode ≠ d.node) &&
    ranksAbove d.ft.masterPrio d.ft.external d.masterNode d.ftPrio d.ownClass d.node
  { stamp := d.ft.now
    master := if other then d.masterNode else d.node
    prio := if other then d.ft.masterPrio else d.ftPrio
    external := if other then d.ft.external else d.ownClass
    hops := if other then d.ft.hops else 0
    parent := false
    domain := d.domain }

/-- The bytes of a BEAT (13 Table 11). -/
def beatBytes (b : BeatBody) : List Byte :=
  leBytes 8 b.stamp.toNat ++ leBytes 4 (b.master % 2 ^ 20 + 2 ^ 20 * (b.prio % 256) + 2 ^ 28 * b2n b.external) ++
  leBytes 1 (b.hops % 32 + 32 * b2n b.parent) ++ [0#8] ++ leBytes 2 b.domain

/-- A packet to the partner of one port on VC0: it goes no further than that port (13 Table 5). -/
def Dev.sendLocal (p ty : Nat) (data : List Byte) (d : Dev) : Dev :=
  d.sendOwn p (mkPacket d 0 (d.port p).partnerNode ty 0 0 data.length 0 0 0 data)

/-- One BEAT on every port with a working transmitter (13 R368). -/
def Dev.sendBeats (d : Dev) : Dev :=
  runAll ((List.range Config.ports).filter (fun p => (d.port p).beats && d.txWorks p)) (fun p d =>
    d.sendLocal p tyBeat (beatBytes { d.announce with parent := decide (d.ft.parent = some p) })) d

/-- The amounts of a slip boundary: what is due adds its largest amount; a late notice raises the amount of its own
apply beat (02 R40, R43). Answers the ftu to add and the amounts remembered by beat. -/
def slipSum (beat : Nat) (due late : List SlipNotice) (added : MapOf Nat) : Nat × MapOf Nat :=
  let main := maxN (due.map (fun n => n.amount))
  let a0 := if due.isEmpty then added else mapPut added beat main
  late.foldl (fun (acc : Nat × MapOf Nat) n =>
    let had := mapGet 0 acc.2 n.applyBeat.toNat
    if had < n.amount then (acc.1 + (n.amount - had), mapPut acc.2 n.applyBeat.toNat n.amount) else acc) (main, a0)

/-- Slip application at the boundary that begins a beat (02 R40, R41, R43). A notice whose boundary a forward step of
FT_NOW jumped over has no boundary that begins its apply beat, and is applied at none (log 7). -/
def Dev.applySlips (beat : Nat) (d : Dev) : Dev :=
  let due := (d.ft.notices.filter (fun h => !h.applied && !h.late && h.notice.applyBeat.toNat == beat)).map (fun h => h.notice)
  let late := (d.ft.notices.filter (fun h => !h.applied && h.late)).map (fun h => h.notice)
  if due.isEmpty && late.isEmpty then d else
  let r := slipSum beat due late (d.ft.added.filter (fun e => decide (beatDiff beat e.1 ≤ 64)))
  let d1 := d.modFt (fun f => { f with
    slip := f.slip + BitVec.ofNat 64 r.1
    added := r.2
    applied := if r.1 = 0 then f.applied else f.applied + 1
    late := f.late + BitVec.ofNat 16 late.length
    reportLate := f.reportLate || !late.isEmpty
    notices := f.notices.map (fun h =>
      if h.late || h.notice.applyBeat.toNat == beat then { h with applied := true } else h) })
  let d2 := if r.1 = 0 then d1 else d1.gustSlip
  d2.setEvent evFt (BitVec.ofNat 16 ((if r.1 = 0 then 0 else 16) + (if late.isEmpty then 0 else 32)))

/-- The counts that pass at a boundary (02 R27, R29): boundaries at which this chip ranked itself best, beats without
the master's announce, and the age of each candidate heard; one not heard for 8 beats is heard no more (log 7). -/
def Dev.beatCounts (d : Dev) : Dev :=
  let counting := (d.ft.mode = .free ∨ d.ft.mode = .holdover) ∧ d.hearsBetter = false
  d.modFt (fun f => { f with
    selfBest := if counting then f.selfBest + 1 else 0
    missed := if f.parent.isSome then f.missed + 1 else 0
    heard := (f.heard.map (fun e => (e.1, { e.2 with age := e.2.age + 1 }))).filter
      (fun e => decide (e.2.age < 8) || decide (f.parent = some e.1)) })

/-- The ports' heartbeat counts pass a boundary (13 R369): the count pauses in an agreed retrain, for up to
LNK_RETRAIN_MAX (limit in beats, one beat being 1.024 us). -/
def Dev.portBeat (p : Nat) (d : Dev) : Dev :=
  d.modPort p (fun s =>
    if !s.beats then s
    else if s.mode = .retrain && s.agreed && decide (s.paused * 1024 < 1000 * clampN 100 65535 (fld (d.word (offLnk + 0x34)) 15 0))
    then { s with paused := s.paused + 1 }
    else { s with missed := s.missed + 1 })

/-- The work of a beat boundary (02 R24, R27, R40, R43; 13 R368, R369). -/
def Dev.beatWork (d : Dev) : Dev :=
  (runAll (List.range Config.ports) Dev.portBeat (d.applySlips d.beatNo).beatCounts).sendBeats

/-- Advance the counter to the next beat boundary (02 R24). -/
def Dev.toBoundary (d : Dev) : Dev :=
  let next := (d.beatNo + 1) * Config.beat
  { d with ft := { d.ft with now := BitVec.ofNat 64 next, frac := 0 }, clk := d.clk + (next - d.ft.now.toNat) }

/-- One cycle of the fabric-time clock (02 R22): the counter adds FT_INCR; passing a boundary does its work. -/
def Dev.ftTick (d : Dev) : Dev :=
  let d0 := { d with clk := d.clk + 640 }
  if d.ftEn then
    let sum := d.ft.now.toNat * 2 ^ 32 + d.ft.frac.toNat + d.ft.incr.toNat
    let d1 := d0.modFt (fun f => { f with now := BitVec.ofNat 64 (sum / 2 ^ 32), frac := BitVec.ofNat 32 sum })
    if d1.beatNo = d.beatNo then d1 else d1.beatWork
  else d0

/-- The 16 bytes of a slip notice: requester, number, amount and apply beat, low bits first (13 Table 5, 02 R39; log 9). -/
def slipBytes (n : SlipNotice) : List Byte :=
  leBytes 16 (n.requester % 2 ^ 20 + 2 ^ 20 * n.number.toNat + 2 ^ 36 * (n.amount % 2 ^ 48) + 2 ^ 84 * n.applyBeat.toNat)

/-- Flood a notice to every domain port but one (02 R26, R39). -/
def Dev.floodSlip (n : SlipNotice) (but : Option Nat) (d : Dev) : Dev :=
  runAll ((List.range Config.ports).filter (fun p => (d.port p).beats && (d.port p).sameDomain && decide (but ≠ some p)))
    (fun p d => d.sendLocal p tySlip (slipBytes n)) d

/-- The asymmetry of a port's link (02 R31, R32). -/
def Dev.asym (d : Dev) (p : Nat) : Int := (d.word (offPort p + 0x14)).toInt

/-- One delay exchange completed (02 R31): the mean of 64 at training, a filter of weight 1/16 in service. The rule states
no rounding: each halving, mean and sixteenth is rounded towards minus infinity (log 7). -/
def Dev.probeResult (p : Nat) (t1 t2 t3 t4 : W64) (d : Dev) : Dev :=
  let rtt := ftDiff t4 t1 - ftDiff t3 t2
  let dab := (rtt + d.asym p) / 2
  let off := ftDiff t2 t1 - dab
  d.modPort p (fun s =>
    if s.probes < 64 then
      let n := s.probes + 1
      let rs := s.rttSum + rtt
      let os := s.offSum + off
      let s1 := { s with probes := n, rttSum := rs, offSum := os }
      if n = 64 then { s1 with rtt := BitVec.ofInt 32 (rs / 64), delay := BitVec.ofInt 32 ((rs / 64 + d.asym p) / 2), offB := satI32 (os / 64) }
      else s1
    else
      let r := (s.rtt.toNat : Int) + (rtt - (s.rtt.toNat : Int)) / 16
      let o := s.offB.toInt + (off - s.offB.toInt) / 16
      { s with rtt := BitVec.ofInt 32 r, delay := BitVec.ofInt 32 ((r + d.asym p) / 2), offB := satI32 o })

/-- The parent port is given up (02 R28, R29): another port on which a usable announce names the master becomes parent,
else HOLDOVER, or FREE from ACQUIRE. FT_STATE.HOPS keeps its last value meanwhile (log 7). -/
def Dev.unparent (d : Dev) : Dev :=
  let d1 := d.modFt (fun f => { f with parent := none, missed := 0 })
  match d1.ft.heard.filter (fun e => decide (d1.ft.master = some e.2.node) && d1.usableCand e.2) with
  | [] =>
    match d1.ft.mode with
    | .locked => d1.enterFt .holdover
    | .acquire => d1.enterFt .free
    | .free | .holdover | .master => d1
  | e :: es =>
    let best := es.foldl (fun b x => if x.2.hops < b.2.hops then x else b) e
    d1.takeParent best.1 best.2

/-- The parent port is dropped (02 R29): what was heard there is forgotten. -/
def Dev.dropParent (d : Dev) : Dev :=
  match d.ft.parent with
  | none => d
  | some p => (d.modFt (fun f => { f with heard := mapDel f.heard p })).unparent

/-- What this chip knows of its master, refreshed by an announce that names it (02 R27, Table 7): from the parent its
priority, class and hops; one too far away ends the parent (02 R28). -/
def Dev.masterHeard (p : Nat) (c : Candidate) (d : Dev) : Dev :=
  if d.ft.parent = some p ∧ d.ft.master = some c.node then
    let d1 := d.modFt (fun f => { f with masterPrio := c.prio, external := c.external })
    if c.hops ≤ d.maxHops then d1.modFt (fun f => { f with hops := c.hops, missed := 0 }) else d1.unparent
  else d

/-- What follows a write of FT_CTL on a master (02 R30, Table 7): its priority and class are those the register now gives,
and without SRC it runs at the nominal increment. -/
def Dev.ftCtl (d : Dev) : Dev :=
  if d.ft.mode = .master then
    d.modFt (fun f => { f with
      masterPrio := d.ftPrio
      external := d.ownClass
      incr := if d.ftSrc then f.incr else BitVec.ofNat 64 Config.incrNominal
      ppsExpect := if d.ftSrc then f.ppsExpect else none })
  else d

/-- A port no longer carries fabric time: what was heard there is forgotten, and it is no parent (02 R29, 13 R370). -/
def Dev.dropPort (p : Nat) (d : Dev) : Dev :=
  let d1 := if d.ft.parent = some p then d.dropParent else d
  d1.modFt (fun f => { f with heard := mapDel f.heard p })

end Sys2Proof.Machine
end

