-- ==== Sys2Proof/Machine/SecBase.lean ====
section
/-! DEFINITION. Key derivation, measurement slots, signed images, and the messages of the seal exchange (16 R411-R416, R423). -/
namespace Sys2Proof.Machine

/-- Change security state. -/
def Dev.modSec (f : SecState → SecState) (d : Dev) : Dev := { d with sec := f d.sec }

/-! ## Key derivation (16 R411) -/

/-- The bytes of an ASCII label. -/
def asciiBytes (s : String) : List Byte := s.toList.map (fun c => BitVec.ofNat 8 c.toNat)

/-- n bytes of SHAKE256. -/
def shake (n : Nat) (m : List Byte) : List Byte := sliceB (Config.shake256 n m) 0 n

/-- The derivation function of every key (16 R411). -/
def kdf (k : List Byte) (label : String) (ctx : List Byte) (n : Nat) : List Byte :=
  shake n (leBytes 2 k.length ++ k ++ leBytes 2 label.length ++ asciiBytes label ++ leBytes 4 ctx.length ++ ctx ++ leBytes 4 n)

/-- The public alias key of a seed, and the digest of it that ports send (16 R412). -/
def aliasPublic (seed : List Byte) : List Byte := sliceB (Config.ed448Public seed) 0 57
def aliasHash (seed : List Byte) : List Byte := shake 32 (aliasPublic seed)
/-- The SHAKE256-256 digest of the device identity key, which debug tokens name (16 R412, R425). -/
def identityDigest : List Byte := shake 32 (Config.ed448Public (kdf Config.uds "gv-devid" [] 57))

/-! ## Measurement slots (16 R414) -/

/-- A measurement slot. -/
def Dev.meas (d : Dev) (n : Nat) : List Byte := mapGet (List.replicate 64 0#8) d.sec.meas n
/-- What an extension makes of a slot. -/
def measNext (m digest : List Byte) : List Byte := shake 64 (m ++ sliceB digest 0 64)
/-- Write a slot as an extension leaves it (16 R414). -/
def Dev.measPut (n : Nat) (digest : List Byte) (d : Dev) : Dev :=
  (d.modSec (fun s => { s with meas := mapPut s.meas n (measNext (d.meas n) digest) })).setFlag evSec 0
/-- The bytes of the slots that a mask names, in ascending order (16 R418). -/
def Dev.measOf (d : Dev) (mask : W16) : List Byte := ((List.range 16).filter (fun i => mask.getLsbD i)).flatMap d.meas

/-- The 16-byte fuse summary of slot 3: lifecycle, SVNs, revocations, debug count (16 Table 2; log 25 on its layout). -/
def Life.summary (l : Life) : List Byte :=
  leBytes 1 l.lifecycle ++ leBytes 1 l.loaderSvn ++ leBytes 1 l.fwSvn ++ leBytes 1 l.revoked.toNat ++ leBytes 1 l.debugCount ++ leBytes 11 0

/-! ## Signed images (16 R415, R416) -/

/-- Fields of an image header (16 Table 3). -/
def imComponent (b : List Byte) : Nat := leAt b 4 2
def imKey (b : List Byte) : Nat := leAt b 6 1
def imCommit (b : List Byte) : Bool := leAt b 7 1 % 2 == 1
def imSvn (b : List Byte) : Nat := leAt b 8 4
def imIfver (b : List Byte) : Nat := leAt b 12 4
def imPayload (b : List Byte) : List Byte := sliceB b 256 (leAt b 16 8)
def imDigest (b : List Byte) : List Byte := sliceB b 24 64

/-- A valid MAGIC, COMPONENT, LENGTH and DIGEST (16 R416). -/
def imageWhole (component : Nat) (b : List Byte) : Bool :=
  leAt b 0 4 == 0x4756494D && imComponent b == component && decide (256 ≤ b.length) && decide (leAt b 16 8 ≤ b.length - 256) &&
  shake 64 (imPayload b) == imDigest b

/-- Whether a loader or firmware image is accepted (16 R413, R416). -/
def imageOk (l : Life) (component fused : Nat) (b : List Byte) : Bool :=
  imageWhole component b && decide (imKey b < 4) && !l.revoked.getLsbD (imKey b) &&
  Config.rootVerify (imKey b) (sliceB b 0 96) (sliceB b 96 114) && decide (fused ≤ imSvn b) && decide (imSvn b ≤ 64)

/-! ## The seal exchange (16 R423) -/

/-- Four free words as 32 bytes. -/
def Dev.freeNonce (d : Dev) : List Byte × Dev :=
  let a := d.takeFree
  let b := a.2.takeFree
  let c := b.2.takeFree
  let e := c.2.takeFree
  (leBytes 8 a.1.toNat ++ leBytes 8 b.1.toNat ++ leBytes 8 c.1.toNat ++ leBytes 8 e.1.toNat, e.2)

/-- Whether a port's link is to be sealed: SEAL_REQ on either side (13 R376, 16 R423). -/
def Dev.sealWanted (d : Dev) (p : Nat) : Bool :=
  fbit (d.word (offPort p)) 1 || bitsN (leAt (d.port p).partnerRec 7 1) 1 1 == 1

/-- This part's SEAL_MSG: nonce, ephemeral key, slot 1, the signature over these, the certificate chain (log 25). -/
def Dev.sealSend (p : Nat) (d : Dev) : Dev :=
  let n := d.freeNonce
  let signed := n.1 ++ sliceB (Config.ecdhPublic d.free) 0 96 ++ d.meas 1
  ((n.2.modPort p (fun s => { s with sealNonce := n.1, sealSecret := d.free })).sendLocal p tySeal
    (signed ++ sliceB (Config.ed448Sign d.sec.aliasKey signed) 0 114 ++ Config.certChain (aliasPublic d.sec.aliasKey)))

/-- The keys of a port from the partner's message (16 R423): the side with the lower IDHASH is A. The transmit key first. -/
def Dev.sealKeys (d : Dev) (p : Nat) (msg : List Byte) : SealKey × SealKey :=
  let s := d.port p
  let z := Config.ecdhSecret s.sealSecret (sliceB msg 32 96)
  let mine := decide (leNat (sliceB d.sec.idHash 0 32) < leNat (sliceB s.partnerRec 32 32))
  let t := if mine then s.sealNonce ++ sliceB msg 0 32 else sliceB msg 0 32 ++ s.sealNonce
  let ab := leNat (kdf z "gv-link-ab" t 32)
  let ba := leNat (kdf z "gv-link-ba" t 32)
  let sess := BitVec.ofNat 32 (leNat (kdf z "gv-link-iv" t 4))
  ({ key := if mine then ab else ba, session := sess }, { key := if mine then ba else ab, session := sess })

/-- New keys of a port: into the slot in use where the link is not yet sealed, else into the other, which the transmitter
then uses (13 R376, 16 R423). -/
def PortState.install (k : SealKey × SealKey) (s : PortState) : PortState :=
  let phase := if s.isSealed then !s.txPhase else s.txPhase
  { s with
    txKeys := s.txKeys.set (b2n phase) k.1
    rxKeys := s.rxKeys.set (b2n phase) k.2
    txPhase := phase
    isSealed := true }

end Sys2Proof.Machine
end

