-- ==== Sys2Proof/Machine/PortOps.lean ====
section
/-! DEFINITION. Operations of a Limrad port (13 R349-R353, R365-R375): capability records, link control, replay, lane swaps, and the passages between port states. -/
namespace Sys2Proof.Machine

/-- LNK_Ln_CTL of a port (13 Table 15). -/
def Dev.portCtl (d : Dev) (p : Nat) : W32 := d.word (offPort p)

/-- The input buffer of each channel in flits (13 Table 7). -/
def portBuffers : List Nat := [64, 1024, 1984, 1024]

/-- The healthy lanes of nine. -/
def laneCount (m : BitVec 9) : Nat := ((List.range 9).filter (fun i => m.getLsbD i)).length

/-- This part's capability record for a port (13 Table 10). -/
def Dev.ownRecord (d : Dev) (p : Nat) : List Byte :=
  let s := d.port p
  let c := d.portCtl p
  leBytes 2 1 ++ leBytes 2 0x0640 ++ [0xB0#8] ++ leBytes 1 p ++ leBytes 1 (s.lanes + 16 * b2n (!s.failed.getLsbD 8)) ++
  leBytes 1 (1 + 2 * b2n (fbit c 1) + 4 * b2n (fbit c 2) + 8 * b2n d.dor) ++ leBytes 4 d.node ++ leBytes 2 d.domain ++ leBytes 2 0 ++
  portBuffers.flatMap (leBytes 2) ++ leBytes 4 8192 ++ leBytes 4 0 ++ sliceB d.sec.idHash 0 32

/-- A port leaves routes and loses what it buffers (13 R370). -/
def PortState.flush (s : PortState) : PortState :=
  { s with
    inRoutes := false, joined := false, replay := [], replays := 0, partials := [[], [], [], []], rx := [], txq := [], txf := [[], [], [], []], nak := false, discarding := false
    owed := [0, 0, 0, 0, 0, 0, 0, 0], swapping := none, swapSeq := none, asked := false, agreed := false, narrow := false
    paused := 0, missed := 0, child := false }

/-- A port enters FAULT with a reason (13 R366, R367). -/
def Dev.portFault (p reason : Nat) (d : Dev) : Dev :=
  ((d.modPort p (fun s => { s.flush with mode := .fault, lanes := 0, isSealed := false, reason := reason })).dropPort p).setFlag (evPort p) 5

/-- EN set (13 R366). -/
def Dev.portOn (p : Nat) (d : Dev) : Dev :=
  if (d.port p).mode = .disabled then d.modPort p (fun s => { s with mode := .detect, reason := 0 }) else d

/-- EN cleared (13 R366): lanes idle. -/
def Dev.portOff (p : Nat) (d : Dev) : Dev :=
  if (d.port p).mode = .disabled then d else
  (d.modPort p (fun s => { s.flush with mode := .disabled, lanes := 0, isSealed := false, reason := 0 })).dropPort p

/-- The four lanes that carry data at four lanes: the healthiest found by the training, `best`, where these are four healthy
lanes, else the first four (13 R373). -/
def pickLanes (healthy : BitVec 9) (best : List Nat) : List Nat :=
  let l := (best.filter (fun i => decide (i < 9) && healthy.getLsbD i)).eraseDups
  (l ++ (List.range 9).filter (fun i => healthy.getLsbD i && !l.contains i)).take 4

/-- This part's record goes out in EXCHANGE while the partner's has not come and this part has a node ID (13 R365, R367). -/
def Dev.sendRecord (p : Nat) (d : Dev) : Dev :=
  if decide ((d.port p).mode = .exchange) && (d.port p).partnerRec.isEmpty && d.node != 0xFFFFF then d.emit (.record p (d.ownRecord p)) else d

/-- Receive lanes trained (13 R349, R366, R367): fewer than four end in FAULT; a port runs on eight lanes or four; its
record goes out. -/
def Dev.portAlign (p : Nat) (healthy : BitVec 9) (rx tx : List Nat) (d : Dev) : Dev :=
  let n := laneCount healthy
  if n < 4 then d.portFault p 5 else
  let bad := (List.range 8).find? (fun i => !healthy.getLsbD i)
  d.modPort p (fun s => { s with
    mode := .exchange, lanes := (if 8 ≤ n then 8 else 4), failed := ~~~healthy, probes := 0, rttSum := 0, offSum := 0
    rxSpare := (if 8 ≤ n then bad else none), txSpare := none, txSwapped := false, partnerRec := []
    rxLanes := pickLanes healthy rx, txLanes := pickLanes 0x1FF#9 tx }) |>.sendRecord p

/-- The reason a partner's record is refused, 0 where it is accepted (13 R367). -/
def Dev.recordReason (d : Dev) (p : Nat) (rec : List Byte) : Nat :=
  let node := bitsN (leAt rec 8 4) 19 0
  let port := leAt rec 5 1
  if leAt rec 0 2 ≠ 1 then 1
  else if node = d.node ∧ fbit (d.portCtl p) 6 = false then 3
  else if (List.range Config.ports).any (fun q => q != p && (d.port q).usable && (d.port q).partnerNode == node &&
      (d.port q).partnerPort != port && sliceB (d.port q).partnerRec 32 32 != sliceB rec 32 32) then 2
  else if fbit (d.portCtl p) 1 && bitsN (leAt rec 7 1) 0 0 = 0 then 4
  else if bitsN (leAt rec 6 1) 3 0 < 4 then 5
  else 0

/-- The partner's record arrives in EXCHANGE (13 R365, R367): a part without a node ID waits; the first one is still answered
with this part's own. A partner of this domain is one of its members (02 R26). -/
def Dev.takeRecord (p : Nat) (rec : List Byte) (d0 : Dev) : Dev :=
  if decide ((d0.port p).mode ≠ .exchange) || d0.node == 0xFFFFF || !(d0.port p).partnerRec.isEmpty then d0 else
  let d := d0.sendRecord p
  let cr := (List.range 4).map (fun i => leAt rec (16 + 2 * i) 2)
  let note (s : PortState) : PortState := { s with
    partnerRec := sliceB rec 0 64
    partnerNode := bitsN (leAt rec 8 4) 19 0
    partnerPort := bitsN (leAt rec 5 1) 4 0
    sameDomain := leAt rec 12 2 == d.domain
    lanes := min s.lanes (if bitsN (leAt rec 6 1) 3 0 < 8 then 4 else 8)
    credits := if d.dor then cr.map (· / 2) ++ cr.map (· / 2) else cr ++ [0, 0, 0, 0] }
  match d.recordReason p rec with
  | 0 =>
    let d1 := d.modPort p note
    let d2 := if (d1.port p).sameDomain then (d1.learn (d1.port p).partnerNode).2 else d1
    if d2.sealWanted p then d2.sealSend p else d2
  | r => (d.modPort p note).portFault p r

/-- A port's partner is the recorded one, and the port enters routes, but for a drain (13 R371, R375). -/
def Dev.enterRoutes (p : Nat) (d : Dev) : Dev :=
  d.modPort p (fun s => { s with inRoutes := !s.draining, joined := true, recorded := some (s.partnerNode, s.partnerPort) })

/-- A port reaches ACTIVE (13 R371): the first time it enters routes; again, with AUTO_REJOIN and the recorded partner;
otherwise NEW_PARTNER. A drain under way keeps it out. -/
def Dev.portActive (p : Nat) (d : Dev) : Dev :=
  let s := d.port p
  let same := fbit (d.portCtl p) 3 && s.recorded == some (s.partnerNode, s.partnerPort)
  let d1 := (d.modPort p (fun s => { s with mode := .active, everActive := true, missed := 0, agreed := false, asked := false, narrow := false, paused := 0 })).setFlag (evPort p) 0
  if !s.everActive || same then (d1.enterRoutes p).drainTxq p else (d1.setFlag (evPort p) 2).drainTxq p

/-- Whether EXCHANGE is complete: the record held, 64 probes, and a seal where either side requires one (13 R367, R376). -/
def Dev.exchanged (d : Dev) (p : Nat) : Bool :=
  let s := d.port p
  decide (s.mode = .exchange) && !s.partnerRec.isEmpty && decide (64 ≤ s.probes) &&
  (s.isSealed || !d.sealWanted p)

/-- Flit sequences start at 0 at ACTIVE (13 R352); credits owed for what came in EXCHANGE stay owed. -/
def PortState.zeroSeq (s : PortState) : PortState :=
  { s with txSeq := 0, rxSeq := 0, replay := [], replays := 0, nak := false, discarding := false }

/-! ## Replay (13 R352) -/

/-- A retrain begins (13 R369): out of routes, buffers kept. -/
def Dev.startRetrain (p : Nat) (agreed : Bool) (d : Dev) : Dev :=
  let m := (d.port p).mode
  if m = .active ∨ m = .drained then
    d.modPort p (fun s => { s with mode := .retrain, inRoutes := false, agreed := agreed, asked := false, paused := 0, replays := 0 })
  else if m = .retrain then d.modPort p (fun s => { s with agreed := s.agreed || agreed })
  else d

/-- Replay from the oldest flit kept (13 R352): the sixteenth replay of one flit takes the port to RETRAIN. -/
def Dev.replayAll (p : Nat) (d : Dev) : Dev :=
  let s := d.port p
  if s.replay.isEmpty then d else
  let d1 := d.putPort p { s with replays := s.replays + 1, replayCnt := s.replayCnt + 1 }
  if 16 ≤ s.replays + 1 then d1.startRetrain p false
  else runAll s.replay (fun b d =>
    ((d.modPort p (fun s => { s.frameFlit b with sinceLink := s.sinceLink + 1 })).emit (.flit p b)).linkIfDue p) d1

/-- A cumulative ACK frees flits; one that names no kept flit frees nothing (13 R352). -/
def PortState.ackTo (ack : W16) (s : PortState) : PortState :=
  let n := (ack - (s.txSeq - BitVec.ofNat 16 s.replay.length)).toNat
  if n = 0 ∨ s.replay.length < n then s else { s with replay := s.replay.drop n, replays := 0 }

/-- Ask for an agreed retrain (13 R369), as a width change or not. -/
def Dev.askRetrain (p : Nat) (narrow : Bool) (d : Dev) : Dev :=
  (d.modPort p (fun s => { s with asked := true, narrow := s.narrow || narrow })).sendLink p 4 0 0

/-- Start a swap of a receive lane, or a width change where the spare is in use (13 R372). -/
def Dev.startSwap (p lane : Nat) (d : Dev) : Dev :=
  let s := d.port p
  if !s.beats then d
  else if s.rxSpare.isSome || s.swapping.isSome then d.askRetrain p true
  else (d.modPort p (fun s => { s with swapping := some lane })).sendLink p 1 lane 0

/-- SWAP_REQ at the transmitter (13 R372): lane 8 copies the lane and SWAPSEQ stands 4,096 flits ahead. -/
def Dev.takeSwapReq (p lane : Nat) (d : Dev) : Dev :=
  let s := d.port p
  if !s.beats then d
  else if s.txSpare.isSome then d.askRetrain p true
  else (d.modPort p (fun s => { s with txSpare := some lane })).sendLink p 2 lane ((s.txSeq + 4096).setWidth 32)

/-- The receiver reads lane 8 from SWAPSEQ on and answers SWAP_DONE (13 R372). -/
def Dev.swapIfDue (p : Nat) (d : Dev) : Dev :=
  let s := d.port p
  match s.swapping, s.swapSeq with
  | some lane, some q =>
    if 0 ≤ (s.rxSeq - q.setWidth 16).toInt then
      ((d.modPort p (fun s => { s with rxSpare := some lane, swapping := none, swapSeq := none })).sendLink p 3 lane 0).setFlag (evPort p) 3
    else d
  | _, _ => d

/-- SWAP_ACK at the receiver (13 R372). -/
def Dev.takeSwapAck (p : Nat) (q : W32) (d : Dev) : Dev :=
  if (d.port p).swapping.isSome then (d.modPort p (fun s => { s with swapSeq := some q })).swapIfDue p else d

/-- SWAP_DONE at the transmitter (13 R372): it stops driving data on the old lane. -/
def Dev.takeSwapDone (p : Nat) (d : Dev) : Dev :=
  if (d.port p).txSpare.isSome then (d.modPort p (fun s => { s with txSwapped := true })).setFlag (evPort p) 3 else d

/-- RETRAIN_REQ from the partner: answered and begun (13 R369). -/
def Dev.takeRetrainReq (p : Nat) (d : Dev) : Dev :=
  if (d.port p).beats then (d.sendLink p 5 0 0).startRetrain p true else d

/-- RETRAIN_ACK: the retrain this port asked for begins (13 R369). -/
def Dev.takeRetrainAck (p : Nat) (d : Dev) : Dev := if (d.port p).asked then d.startRetrain p true else d

/-- A link control body arrives (13 R352, R353, R358, R369, R372). -/
def Dev.takeLink (p : Nat) (body : List Byte) (d : Dev) : Dev :=
  if !(d.port p).carries then d else
  let ackf := leAt body 2 1
  let cr := (List.range 8).map (fun i => leAt body (4 + 2 * i) 2)
  let d1 := d.modPort p (fun s =>
    let s1 := if bitsN ackf 0 0 = 1 then s.ackTo (BitVec.ofNat 16 (leAt body 0 2)) else s
    { s1 with credits := (s1.credits.zip cr).map (fun c => c.1 + c.2) })
  let d2 := if bitsN ackf 1 1 = 1 then d1.replayAll p else d1
  let lane := leAt body 20 1 / 16
  let d3 := match leAt body 20 1 % 16 with
    | 1 => d2.takeSwapReq p lane
    | 2 => d2.takeSwapAck p (BitVec.ofNat 32 (leAt body 24 4))
    | 3 => d2.takeSwapDone p
    | 4 => d2.takeRetrainReq p
    | 5 => d2.takeRetrainAck p
    | _ => d2
  d3.drainTxq p

/-- A retrain ends (13 R373): a width change of either side, or too few lanes for eight, leaves the four healthiest and
DEGRADED; fewer than four end in FAULT; a partner unheard for eight beats ends it in LOST. -/
def Dev.retrainEnd (p : Nat) (healthy : BitVec 9) (rx tx : List Nat) (narrow : Bool) (d : Dev) : Dev :=
  let s := d.port p
  let n := laneCount healthy
  if s.mode ≠ .retrain then d
  else if n < 4 then d.portFault p 5
  else
    let drop := decide (s.lanes = 8) && (s.narrow || narrow || decide (n < 8))
    ((d.modPort p (fun s => { s with
      lanes := (if drop then 4 else s.lanes), failed := ~~~healthy
      rxLanes := pickLanes healthy rx, txLanes := pickLanes 0x1FF#9 tx })).portActive p).setFlagIf drop (evPort p) 4

/-- The loss of a member of the group is a topology change, which sends the next step to the fall-back path (09 R246). -/
def Dev.memberLost (node : Nat) (d : Dev) : Dev :=
  match d.step.group with
  | some g => if decide (g.nodeBase ≤ node) && g.isMember (node - g.nodeBase) then d.modStep (fun st => { st with fallbackAsk := true }) else d
  | none => d

/-- A partner is lost (13 R370): the port returns to DETECT at once. -/
def Dev.portLost (p : Nat) (d : Dev) : Dev :=
  let node := (d.port p).partnerNode
  (((d.modPort p (fun s => { s.flush with mode := .detect, lanes := 0, isSealed := false })).dropPort p).setFlag (evPort p) 1).note
    11 7 p 0 (BitVec.ofNat 64 node) [] |>.memberLost node

/-- Set a bit of a register's software-written word. -/
def Dev.setBit (off i : Nat) (b : Bool) (d : Dev) : Dev :=
  d.setWord off (if b then d.word off ||| BitVec.ofNat 32 (2 ^ i) else d.word off &&& ~~~(BitVec.ofNat 32 (2 ^ i)))

/-- DRAIN set (13 R375). -/
def Dev.portDrainOn (p : Nat) (d : Dev) : Dev := d.modPort p (fun s => { s with inRoutes := false, draining := true })
/-- DRAIN cleared (13 R375): the port returns to routes, unless a new partner keeps it out (R371). -/
def Dev.portDrainOff (p : Nat) (d : Dev) : Dev :=
  let s := d.port p
  if !s.draining then d
  else if s.mode = .active ∨ s.mode = .drained then
    (d.modPort p (fun s => { s with mode := .active, draining := false, inRoutes := s.joined })).drainTxq p
  else d.modPort p (fun s => { s with draining := false })

/-- Whether a flit is of VC1, VC2 or VC3 (13 Table 2). -/
def flitBulk (b : List Byte) : Bool := leAt b 0 1 % 4 != 0

/-- Nothing but VC0 is left at a draining port (13 R375). -/
def PortState.drained (s : PortState) : Bool :=
  s.draining && decide (s.mode = .active) && s.txq.all (fun k => k.vc == 0) && (s.txf.drop 1).all List.isEmpty && !s.replay.any flitBulk

/-- DRAINED is entered (13 R375). -/
def Dev.portDrainEnd (p : Nat) (d : Dev) : Dev :=
  if (d.port p).drained then (d.modPort p (fun s => { s with mode := .drained })).setFlag (evPort p) 9 else d

/-- REJOIN (13 R371). -/
def Dev.portRejoin (p : Nat) (d : Dev) : Dev :=
  if (d.port p).mode = .active ∨ (d.port p).mode = .drained then (d.enterRoutes p).drainTxq p else d

/-- A write of LNK_Ln_CTL (13 Table 15): EN, DRAIN, REJOIN and RETRAIN act. -/
def Dev.lnkCtl (req : Req) (p : Nat) (val : W32) (d : Dev) : Dev :=
  let old := d.portCtl p
  let d1 := storeReg req (offPort p) val d
  let d2 := if fbit val 0 then d1.portOn p else d1.portOff p
  let d3 := if fbit val 4 && !fbit old 4 then d2.portDrainOn p else if !fbit val 4 && fbit old 4 then d2.portDrainOff p else d2
  let d4 := if fbit val 5 then d3.portRejoin p else d3
  if fbit val 7 && (d4.port p).beats then d4.askRetrain p false else d4

end Sys2Proof.Machine
end

