-- ==== Sys2Proof/Machine/ReleaseOps.lean ====
section
/-! DEFINITION. Release signals at their destination (11 R297-R301, R527): the ledger, the hold buffer, and what is performed when a count lands. -/
namespace Sys2Proof.Machine

/-- An OPEN (11 R297): an entry with a landed count of 0; a full ledger refuses it for retry. -/
def Dev.ledgerOpen (node ep : Nat) (d : Dev) : Nat × Dev :=
  if (mapFind d.sync.ledger (ledKey node ep)).isNone && decide (4096 ≤ d.sync.ledger.length) then
    (stRetry, (d.modSync (fun s => { s with retryCnt := s.retryCnt + 1 })).setFlag evSyn 2)
  else (stOk, d.modSync (fun s => { s with ledger := mapPut s.ledger (ledKey node ep) 0 }))

/-- A CLOSE (11 R297). -/
def Dev.ledgerClose (node ep : Nat) (d : Dev) : Dev :=
  d.modSync (fun s => { s with ledger := mapDel s.ledger (ledKey node ep) })

/-- Answer a signal: to the packet that brought it, or to its source. -/
def Dev.answerSig (h : HeldSig) (status : Nat) (data : List Byte) (d : Dev) : Dev :=
  match h.pk with
  | some pk => d.respond pk (wireStatus status) data
  | none => d.emit (.access h.who (wireStatus status) data)

/-- Perform a signal and answer it; it lands (11 R298). -/
def Dev.performSig (h : HeldSig) (d : Dev) : Dev :=
  let r := d.memAccess h.who h.addr (.atomic .sig h.val 0)
  (r.2.2.land h.who.node h.who.endpoint 1).answerSig h r.1 r.2.1

/-- Perform the held signals whose counts have landed, oldest first, at most n (11 R298). -/
def Dev.holdPump : Nat → Dev → Dev
  | 0, d => d
  | n + 1, d =>
    match d.sync.hold.find? d.landed with
    | none => d
    | some h => Dev.holdPump n ((d.modSync (fun s => { s with hold := s.hold.erase h })).performSig h)

/-- Counted requests of a source land, and held signals now allowed are performed (11 R298). -/
def Dev.landAll (node ep n : Nat) (d : Dev) : Dev := (d.land node ep n).holdPump d.sync.hold.length

/-- A release signal arrives (11 R298-R300, R527): one of this part's own sources needs no ledger; one of a source without
an entry is refused; one whose count has landed is performed; others are held, or refused for retry where no room is. -/
def Dev.signalArrive (h : HeldSig) (d : Dev) : Dev :=
  if h.who.node = d.node ∨ h.who.kind = .host then (d.performSig h).holdPump d.sync.hold.length
  else if (mapFind d.sync.ledger (ledKey h.who.node h.who.endpoint)).isNone then d.answerSig h stRefused []
  else if d.landed h then (d.performSig h).holdPump d.sync.hold.length
  else if 256 ≤ d.sync.held then
    ((d.modSync (fun s => { s with retryCnt := s.retryCnt + 1 })).setFlag evSyn 0).answerSig h stRetry []
  else d.holdSig h

/-- A held signal is refused (11 R299): it lands without being performed. A host write has no limit (R301). -/
def Dev.holdExpire (i : Nat) (d : Dev) : Dev :=
  match d.sync.hold[i]? with
  | none => d
  | some h =>
    if h.who.kind = .host then d else
    let d1 := ((d.modSync (fun s => { s with hold := s.hold.eraseIdx i })).setFlag evSyn 1).answerSig h stRefused []
    d1.landAll h.who.node h.who.endpoint 1

/-- A signal or an OPEN refused for retry is sent again with its count (11 R299). -/
def Dev.resend (i : Nat) (d : Dev) : Dev :=
  match d.sync.retries[i]? with
  | none => d
  | some tag =>
    let d1 := d.modSync (fun s => { s with retries := s.retries.eraseIdx i })
    match d1.findReq tag with
    | none => d1
    | some r => d1.launch r

end Sys2Proof.Machine
end

