-- ==== Sys2Proof/Machine/PacketOps.lean ====
section
/-! DEFINITION. Packets at this part (13 R351, R352, R354-R361, R377, R378): flits into packets, serving requests, taking answers, forwarding. -/
namespace Sys2Proof.Machine

/-- On whose behalf a packet's access is made (07 R196, 13 R377): SEALED counts only on a sealed port. -/
def Dev.peerWho (d : Dev) (p : Nat) (pk : Packet) : Who :=
  { kind := .peer, node := pk.src, endpoint := pk.endpoint, owner := 0xFF, sealed := pk.sealed && (d.port p).isSealed }

/-- A packet leaves its port's input buffer, whose credits are owed to the partner (13 R358). -/
def Dev.takeRx (p : Nat) (pk : Packet) (d : Dev) : Dev :=
  if (d.port p).rx.contains pk then
    let i := d.creditIdx pk.vc pk.cls
    d.modPort p (fun s => { s with rx := s.rx.erase pk, owed := s.owed.set i (listGet 0 s.owed i + s.flitCount pk) })
  else d

/-- Whether a port takes packets, and this one is for this part (13 R360, R366). -/
def Dev.isHere (d : Dev) (p : Nat) (pk : Packet) : Bool := (d.port p).beats && decide (pk.dst = d.node)

/-- Serve a packet that is here. -/
def Dev.onPacket (p : Nat) (pk : Packet) (f : Dev → Dev) (d : Dev) : Dev :=
  if d.isHere p pk then f (d.takeRx p pk) else d

/-- A WRITE (13 R355): performed, its pieces counted as landed, and acknowledged once. -/
def Dev.serveWrite (p : Nat) (pk : Packet) (d : Dev) : Dev :=
  let n := piecesOf pk.addr pk.data.length
  let r := d.memAccess (d.peerWho p pk) pk.addr (.write pk.data)
  ((r.2.2.land pk.src pk.endpoint n).respond pk (wireStatus r.1) (leBytes 4 n)).holdPump r.2.2.sync.hold.length

/-- A READ (13 R355): one READ_RESP. -/
def Dev.serveRead (p : Nat) (pk : Packet) (d : Dev) : Dev :=
  let r := d.memAccess (d.peerWho p pk) pk.addr (.read pk.len)
  r.2.2.respond pk (wireStatus r.1) r.2.1

/-- The atomic operation of a code (05 R140): 5 is a signal and has its own packet. -/
def atomOfCode : Nat → Option AtomOp
  | 0 => some .add | 1 => some .swap | 2 => some .cas | 3 => some .maxu | 4 => some .maxs
  | _ => none

/-- An ATOMIC (13 R355): the old value, and one landing; a code that names no operation is refused. -/
def Dev.serveAtomic (p : Nat) (pk : Packet) (d : Dev) : Dev :=
  let x : W64 := BitVec.ofNat 64 (leAt pk.data 0 8)
  let c : W64 := BitVec.ofNat 64 (leAt pk.data 8 8)
  let r := match atomOfCode pk.op with
    | some op => d.memAccess (d.peerWho p pk) pk.addr (.atomic op x c)
    | none => (stRefused, [], d)
  ((r.2.2.land pk.src pk.endpoint 1).respond pk (wireStatus r.1) r.2.1).holdPump r.2.2.sync.hold.length

/-- A SIGNAL (11 R298). -/
def Dev.serveSignal (p : Nat) (pk : Packet) (d : Dev) : Dev :=
  d.signalArrive {
    who := d.peerWho p pk
    addr := pk.addr
    val := BitVec.ofNat 64 (leAt pk.data 0 8)
    count := pk.seq
    rtag := pk.rtag
    pk := some pk }

/-- What waited for a request goes on: a tile half's other operations, a movement channel, a mirror, the vanes. -/
def Dev.afterAnswer (use : ReqFor) (d : Dev) : Dev :=
  match use with
  | .global t h _ => d.globPump t h
  | .move t ch => ((d.movePump t ch).globPump t 0).globPump t 1
  | .mirror s => d.mirrorPump s
  | .other => d.vaneRun vaneFuel
  | .openEntry | .closeEntry | .lamb _ | .core _ | .restore => d

/-- A response arrives (13 R355, R356): one that answers no outstanding request is discarded. -/
def Dev.takeAnswer (pk : Packet) (d : Dev) : Dev :=
  match d.findReq pk.rtag with
  | none => d
  | some r => if r.pk.dst = pk.src ∧ respType r.pk.type = pk.type then (d.answered r pk.op pk.data).afterAnswer r.use else d

/-- A request without a response in time ends as refused (13 R356). -/
def Dev.timeoutReq (rtag : W16) (d : Dev) : Dev :=
  match d.findReq rtag with
  | none => d
  | some r =>
    let d1 := d.modSync (fun s => { s with retries := s.retries.filter (· != rtag), stalled := s.stalled.filter (· != rtag) })
    (d1.answered r stRefused []).afterAnswer r.use

/-- A packet that cannot go on is answered where it is a request (13 R360, R377). -/
def Dev.bounce (p : Nat) (pk : Packet) (status : Nat) (d : Dev) : Dev :=
  let d1 := if status = stNoRoute then d.noRouteEvent (some p) else d
  if isRequest pk.type then d1.respond pk status (if respType pk.type = tyAck then leBytes 4 (countOf pk.type pk.addr pk.len) else []) else d1

/-- A packet for another node (13 R360, R361, R377): HOPS falls by 1; at 0, or without a route, it is discarded. -/
def Dev.forward (p : Nat) (pk0 : Packet) (d0 : Dev) : Dev :=
  if !(d0.port p).beats || decide (pk0.dst = d0.node) then d0 else
  let d := d0.takeRx p pk0
  let pk := { pk0 with sealed := pk0.sealed && (d.port p).isSealed }
  if pk.hops = 0 then (d.modPort p (fun s => { s with noRoute := s.noRoute + 1 })).bounce p pk stNoRoute
  else
    let r := d.sendPacket (some p) { pk with hops := pk.hops - 1 }
    if r.1 = stOk then r.2 else r.2.bounce p pk r.1

/-- A packet on a sealed port is decrypted under the count of its key, which it advances (13 R376). -/
def PortState.unseal (s : PortState) (pk : Packet) : Packet × PortState :=
  if s.isSealed then
    let k := listGet {} s.rxKeys (b2n pk.kphase)
    ({ pk with data := k.crypt pk.data }, { s with rxKeys := s.rxKeys.set (b2n pk.kphase) { k with count := k.count + 1 } })
  else (pk, s)

/-- A packet is whole: the port's own kinds are taken by the port, others wait to be served or forwarded (13 R368). On a
sealed port every packet has a tag, and one whose tag fails is discarded (13 R377, R378). -/
def Dev.wholePacket (p vc : Nat) (cls : Bool) (bs : List Byte) (tagOk : Bool) (d0 : Dev) : Dev :=
  let u := (d0.port p).unseal (parsePacket vc cls bs)
  let pk := u.1
  let s := u.2
  let d := d0.putPort p s
  let i := d.creditIdx vc cls
  let back (d : Dev) : Dev := d.modPort p (fun s => { s with owed := s.owed.set i (listGet 0 s.owed i + bs.length / 60) })
  if s.isSealed && !tagOk then
    (back (d.modPort p (fun s => { s with sealFail := s.sealFail + 1 }))).setFlag (evPort p) 6
  else if pk.type = tyBeat ∨ pk.type = tySlip ∨ pk.type = tyProbe then back d
  else d.modPort p (fun s => { s with rx := s.rx ++ [{ pk with sealed := pk.sealed && s.isSealed }] })

/-- A flit arrives (13 R351-R353): a bad one is discarded with a NAK at once, and so is every later one until the flit with
the expected sequence arrives again. `seq` is the sequence under which the partner sent it, which it does not carry;
`fixed` the symbols that the FEC corrected since the flit before (log 17). -/
def Dev.takeFlit (p : Nat) (fl : List Byte) (seq : W16) (fecOk tagOk : Bool) (fixed : Nat) (d0 : Dev) : Dev :=
  if !(d0.port p).carries then d0 else
  let d := d0.modPort p (fun s => { s with fecCorr := s.fecCorr + BitVec.ofNat 64 fixed })
  let s := d.port p
  let fh := leAt fl 0 2
  let crcOk := leAt fl 62 2 == (crc16 (sliceB fl 0 62)).toNat
  if !fecOk || !crcOk then
    (d.putPort p { s with
      fecUncorr := (if fecOk then s.fecUncorr else s.fecUncorr + 1)
      crcErr := (if fecOk then s.crcErr + 1 else s.crcErr)
      discarding := true, nak := true }).sendLink p 0 0 0
  else if bitsN fh 4 4 = 1 then d.takeLink p (sliceB fl 2 60)
  else if seq ≠ s.rxSeq then d
  else
    let vc := bitsN fh 1 0
    let cls := bitsN fh 5 5 == 1
    let got := (if bitsN fh 2 2 = 1 then [] else listGet [] s.partials vc) ++ sliceB fl 2 60
    let eop := bitsN fh 3 3 == 1
    let d1 := d.putPort p { s with
      discarding := false, rxSeq := s.rxSeq + 1, partials := s.partials.set vc (if eop then [] else got) }
    (if eop then d1.wholePacket p vc cls got tagOk else d1).swapIfDue p

end Sys2Proof.Machine
end

