-- ==== Sys2Proof/Machine/RetireOps.lean ====
section
/-! DEFINITION. Tile retirement (19 R481-R486) and the clearing of a tile (16 R422). -/
namespace Sys2Proof.Machine

/-! ## Clearing (16 R422) -/

/-- What R422 clears of a half: vector and scalar registers and token counts. -/
def HalfState.scrubbed (s : HalfState) : HalfState := { s with sregs := [], vregs := [], tokens := [] }

/-- What R422 clears of a tile: its memories, tags, banks and window buffer, and its halves' registers and tokens. -/
def TileState.scrubbed (t : TileState) : TileState :=
  { t with tmem := [], acc := [], tags := [], bank0 := [], bank1 := [], win := [], bad := [], h0 := t.h0.scrubbed, h1 := t.h1.scrubbed }

/-- A tile cleared as the target of a retirement (19 R482, R484): both halves without a task, in one state. -/
def TileState.retired (m : HalfMode) (t : TileState) : TileState :=
  let u := (TileState.dropMoves 1 (TileState.dropMoves 0 t)).scrubbed
  { u with lulled := false, waking := false, h0 := { u.h0.clearTask with mode := m }, h1 := { u.h1.clearTask with mode := m } }

/-! ## Retirement (19 R482-R485) -/

/-- The state a physical tile shows, with a retirement under way as RETIRING (19 Table 6). -/
def Dev.setPhysMode (p : Nat) (m : PhysMode) (d : Dev) : Dev := d.modPhys p (fun q => { q with mode := some m })

/-- The unmapped spare of a quadrant (19 R483). -/
def Dev.spareOf (d : Dev) (q : Nat) : Option Nat :=
  ((List.range 18).map (18 * (q % 4) + ·)).find? (fun p => decide (d.physMode p = .spare))

/-- The spare that the part chooses for a tile of quadrant q (19 R483). -/
def Dev.chooseSpare (d : Dev) (q : Nat) : Option Nat := [q, q + 1, q + 3, q + 2].findSome? d.spareOf

/-- A retirement is refused (19 R483): firmware then clears the tile's enable where it found no spare (log 23). -/
def Dev.retireRefuse (t result : Nat) (d : Dev) : Dev :=
  let d1 := d.modRas (fun r => { r with status := 3, result := result })
  if result = 1 then
    let p := d1.physOf t
    let d2 := (d1.setFlag evRas 4).note 18 9 t 0 (BitVec.ofNat 64 p) []
    if d2.boot.firmware then d2.setWord (offTil t + 4) (d2.word (offTil t + 4) &&& ~~~1#32) else d2
  else d1

/-- A retirement begins (19 R482 steps 1, 2): dispatch is held while `ras.job` names the tile; NOW acts as a halt. -/
def Dev.retireBegin (t p : Nat) (copy now : Bool) (d : Dev) : Dev :=
  let old := d.physOf t
  let d1 := (d.modRas (fun r => { r with
    status := 1, result := 0, newPhys := p
    job := some { tile := t, old := old, target := p, copy := copy, phase := .quiet } })).setPhysMode old .retiring
  if now then d1.haltTile t else d1

/-- A write of RAS_TILE_CMD (19 R482, R483, R485): ignored while busy, with a reserved CMD, or for no logical tile. -/
def Dev.tileRetire (val : W32) (d : Dev) : Dev :=
  let t := fld val 6 0
  let target := fld val 13 7
  if d.ras.status = 1 ∨ fld val 17 16 ≠ 0 ∨ Config.tiles ≤ t then d
  else if target = 0x7F then
    match d.chooseSpare (d.quadOf t) with
    | some p => d.retireBegin t p (fbit val 14) (fbit val 15)
    | none => d.retireRefuse t 1
  else if target < Config.physTiles ∧ d.physMode target = .spare then d.retireBegin t target (fbit val 14) (fbit val 15)
  else d.retireRefuse t 3

/-- Whether a half is quiet (19 R482 step 2). -/
def HalfState.isQuiet (s : HalfState) : Bool :=
  decide (s.mode = .idle) || decide (s.mode = .stopped) || decide (s.mode = .frozen)

/-- The copy or the clear of a retirement (19 R482 steps 3, 4, R484). The tile stands under its logical number, so a copy
leaves it as it is; a bad word met loses it. -/
def Dev.retireCopy (d : Dev) : Dev :=
  match d.ras.job with
  | some j =>
    let u := d.tile j.tile
    if j.phase = .quiet ∧ u.h0.isQuiet = true ∧ u.h1.isQuiet = true then
      let lost := j.copy && !u.bad.isEmpty
      let d1 := d.modRas (fun r => { r with job := some { j with phase := .copy }, result := if lost then 2 else 0 })
      if lost then d1.modTile j.tile (TileState.retired .stopped)
      else if j.copy then d1.modTile j.tile (fun u => { u with lulled := false, waking := false })
      else d1.modTile j.tile (TileState.retired .idle)
    else d
  | none => d

/-- The map switches (19 R482 step 5, R484). -/
def Dev.retireSwitch (d : Dev) : Dev :=
  match d.ras.job with
  | some j =>
    if j.phase = .copy then
      let d1 := (d.modRas (fun r => { r with tmap := mapPut r.tmap j.tile j.target, job := some { j with phase := .clear } })).setPhysMode j.target .active
      if d1.ras.result = 2 then (d1.setFlag evRas 5).note 18 10 j.tile 0 (BitVec.ofNat 64 j.target) [] else d1
    else d
  | none => d

/-- The old tile is cleared (19 R482 step 6). -/
def Dev.retireEnd (d : Dev) : Dev :=
  match d.ras.job with
  | some j =>
    if j.phase = .clear then
      (((d.modRas (fun r => { r with job := none, status := 2 })).setPhysMode j.old .retired).setFlag evRas 3).note 18 8 j.tile 0
        (BitVec.ofNat 64 (j.old + 256 * j.target)) []
    else d
  | none => d

/-! ## Firmware's repair agent (19 R486, log 23) -/

/-- The retirement of a tile that firmware asks for, with COPY = 1 and the part's choice of spare. -/
def Dev.agentRetire (t : Nat) (now : Bool) (d : Dev) : Dev :=
  if d.boot.firmware then d.tileRetire (BitVec.ofNat 32 (t + 0x7F * 128 + 16384 + (if now then 32768 else 0))) else d

/-- Whether the agent retires a tile at the next commit. -/
def Dev.wornOut (d : Dev) (t : Nat) : Bool :=
  let p := d.phys (d.physOf t)
  fbit (d.word (offTil t + 4)) 0 && (decide (Nat.max 1 (fld (d.word offRas) 15 8) ≤ p.ce) || decide (0 < p.ue))

/-- At a step's commit the agent retires the first such tile. -/
def Dev.agentCommit (d : Dev) : Dev :=
  match (List.range Config.tiles).find? d.wornOut with
  | some t => d.agentRetire t false
  | none => d

/-- A half has frozen: by MEM_ERROR from the tile's own stores, the tile is retired at once. -/
def Dev.agentFrozen (t cls : Nat) (d : Dev) : Dev :=
  if cls = fltMemError ∧ 0 < (d.phys (d.physOf t)).ue then d.agentRetire t true else d

end Sys2Proof.Machine
end

