-- ==== Sys2Proof/Machine/SecOps.lean ====
section
/-! DEFINITION. Operations of security (07 R194-R197, 16 R414-R426): regions and keys released against measurements, confinement, interfaces, the debug opening. -/
namespace Sys2Proof.Machine

/-! ## Regions and keys (07 R194-R197, 16 R418-R420) -/

/-- A seal entry. -/
def Dev.sealEntry (d : Dev) (e : Nat) : SealEntry := mapGet {} d.mem.seals e
def Dev.modSeal (e : Nat) (f : SealEntry → SealEntry) (d : Dev) : Dev := d.modMem (fun m => { m with seals := mapMod {} m.seals e f })

/-- Closing destroys the keys and advances the generation (07 R197). -/
def Dev.regionClose (e : Nat) (d : Dev) : Dev :=
  if (d.sealEntry e).mode = .opened then
    d.modSeal e (fun s => { s with mode := .closing, gen := s.gen + 1, key := 0, written := [] }) else d

/-- Unbind an ingest key slot: its key is zeroed (16 Table 5). -/
def Dev.keyUnbind (slot : Nat) (d : Dev) : Dev :=
  d.modSec (fun s => { s with ingestKeys := mapDel s.ingestKeys slot, keyExpect := mapDel s.keyExpect slot })

/-- The open regions and the bound key slots released against a measurement slot (16 R419). -/
def Dev.regionsOn (d : Dev) (slot : Nat) : List Nat :=
  (List.range 64).filter (fun e => decide ((d.sealEntry e).mode = .opened) && (mapGet 0#16 d.sec.regionExpect e).getLsbD slot)
def Dev.keysOn (d : Dev) (slot : Nat) : List Nat :=
  (d.sec.ingestKeys.map Prod.fst).filter (fun k => (mapGet 0#16 d.sec.keyExpect k).getLsbD slot)

/-- What a change of a slot closes before it takes effect (16 R419). -/
def Dev.closeAgainst (slot : Nat) (d : Dev) : Dev :=
  let rs := d.regionsOn slot
  let ks := d.keysOn slot
  if rs.isEmpty && ks.isEmpty then d
  else (runAll ks Dev.keyUnbind (runAll rs Dev.regionClose d)).setFlag evSec 3

/-- An extension of a slot (16 R414, R419); slots 5 to 7 remain 0. -/
def Dev.measExtend (slot : Nat) (digest : List Byte) (d : Dev) : Dev :=
  if slot < 16 ∧ ¬(5 ≤ slot ∧ slot ≤ 7) then (d.closeAgainst slot).measPut slot digest else d

/-! ## Confinement (16 R420-R422) -/

/-- Confine a context; a clearing of its bit that is under way is called off. -/
def Dev.confine (c : Nat) (d : Dev) : Dev :=
  d.modSec (fun s => { s with confined := s.confined ||| BitVec.ofNat 64 (2 ^ c), unconfining := s.unconfining.filter (· != c) })

/-- Whether some seal entry that is not FREE has an owner. -/
def Dev.ownsRegion (d : Dev) (c : Nat) : Bool := d.mem.seals.any (fun e => decide (e.2.mode ≠ .free) && e.2.owner == c)

/-- The tiles allotted to a context. -/
def Dev.tilesOf (d : Dev) (c : Nat) : List Nat := (List.range Config.tiles).filter (d.tileAllot c)

/-- A context's bit clears once its tiles have been cleared (16 R422). -/
def Dev.unconfineEnd (c : Nat) (d : Dev) : Dev :=
  if (d.tilesOf c).any d.sec.clearing.contains then d
  else d.modSec (fun s => { s with
    unconfining := s.unconfining.filter (· != c)
    confined := if d.ownsRegion c then s.confined else s.confined &&& ~~~BitVec.ofNat 64 (2 ^ c) })

/-- A context without any region left begins to leave confinement: its tiles are to be cleared (16 R422; log 25). -/
def Dev.unconfineBegin (c : Nat) (d : Dev) : Dev :=
  if c < 64 ∧ d.confinedCtx c = true ∧ d.ownsRegion c = false then
    (d.modSec (fun s => { s with
      unconfining := if s.unconfining.contains c then s.unconfining else c :: s.unconfining
      clearing := s.clearing ++ (d.tilesOf c).filter (fun t => !s.clearing.contains t) })).unconfineEnd c
  else d

/-- A waiting tile is cleared (16 R422). -/
def Dev.tileClear (t : Nat) (d : Dev) : Dev :=
  if d.sec.clearing.contains t then
    let d1 := (d.modTile t TileState.scrubbed).modSec (fun s => { s with clearing := s.clearing.filter (· != t) })
    runAll d1.sec.unconfining Dev.unconfineEnd d1
  else d

/-- The rows of a CLOSING region have been overwritten with zeros, and its entry becomes FREE (07 R197, R206). -/
def Dev.regionZero (e : Nat) (d : Dev) : Dev :=
  let s := d.sealEntry e
  if s.mode = .closing then
    let inside (row : Nat) : Bool := decide (s.base ≤ row) && decide (row < s.base + s.rows)
    let d1 := (d.modMem (fun m => { m with
      hbm := m.hbm.filter (fun b => !inside (b.1 / 262144))
      bad := m.bad.filter (fun b => !inside (b / 4096))
      hbmStacks := m.hbmStacks.map (fun x => (x.1, { x.2 with remap := x.2.remap.map (fun g => if inside (g.1 % 4194304) then (g.1, (g.2.1, 0)) else g) })) })).modSeal e
        (fun s => { s with mode := .free })
    (d1.modSec (fun x => { x with regionExpect := mapDel x.regionExpect e })).unconfineBegin s.owner
  else d

/-! ## Release requests (16 R418) -/

/-- Answer an SPDM request; a denial sets RELEASE_DENIED. -/
def Dev.spdmAnswer (a : SpdmAnswer) (data : List Byte) (d : Dev) : Dev :=
  (d.setFlagIf (decide (a = .denied)) evSec 2).emit (.spdm a data)

/-- Whether a release request is admitted: inside a session whose requester holds a report, on a part whose debug port is
closed, with the slots EXPECT names (16 R418, R425). -/
def Dev.releaseOk (l : Life) (e : Expect) (d : Dev) : Bool :=
  d.pci.session.isSome && d.pci.reported && !l.debugOpen && shake 64 (d.measOf e.mask) == e.digest

/-- A release request (16 R418): denied, or answered as its effect finds. Without firmware nobody answers. -/
def Dev.releaseReq (l : Life) (e : Expect) (f : Dev → SpdmAnswer × List Byte × Dev) (d : Dev) : Dev :=
  if !d.boot.firmware then d
  else if d.releaseOk l e then
    let r := f d
    r.2.2.spdmAnswer r.1 r.2.1
  else d.spdmAnswer .denied []

/-- Rows of the interleaved HBM. -/
def hbmRows : Nat := 2621440

/-- The rows and the owner that firmware admits for a region: inside HBM, apart from every other region, an owner
identifier of 07, and with ACCESS.HOST only for an interface that is locked or runs (07 R194, 16 R420). -/
def Dev.regionFits (d : Dev) (base rows owner access : Nat) : Bool :=
  decide (1 ≤ rows) && decide (base + rows ≤ hbmRows) && decide (access < 16) &&
  (decide (owner < 0x48) || owner == 0xFF) &&
  !d.mem.seals.any (fun e => decide (e.2.mode ≠ .free) && meets base rows e.2.base e.2.rows) &&
  (decide (access / 4 % 2 = 0) || (decide (owner < 64) &&
    (decide (mapGet .unlocked d.pci.tdi owner = .locked) || decide (mapGet .unlocked d.pci.tdi owner = .run))))

/-- OPEN_REGION (16 Table 5, R419, R420; 07 R195). -/
def Dev.regionOpen (x : Expect) (e base rows owner access : Nat) (secret : List Byte) (d : Dev) : SpdmAnswer × List Byte × Dev :=
  let s := d.sealEntry e
  if 64 ≤ e ∨ d.regionFits base rows owner access = false then (.denied, [], d)
  else if s.mode ≠ .free then (.busy, [], d)
  else
    let d1 := if owner < 64 then d.confine owner else d
    let k := leNat (kdf (sliceB secret 0 32) "gv-xts" (leBytes 1 e ++ leBytes 2 s.gen.toNat) 64)
    (.done, [], (d1.modSeal e (fun s => { s with
      base := base, rows := rows, owner := owner, access := BitVec.ofNat 4 access, mode := .opened, key := k, written := [] })).modSec
        (fun y => { y with regionExpect := mapPut y.regionExpect e x.mask }))

/-- CLOSE_REGION (16 Table 5). -/
def Dev.regionCloseReq (e : Nat) (d : Dev) : SpdmAnswer × List Byte × Dev :=
  if 64 ≤ e then (.denied, [], d)
  else if (d.sealEntry e).mode = .opened then (.done, [], d.regionClose e) else (.busy, [], d)

/-- BIND_INGEST_KEY (16 Table 5). -/
def Dev.keyBind (x : Expect) (slot owner : Nat) (key : List Byte) (d : Dev) : SpdmAnswer × List Byte × Dev :=
  if 64 ≤ slot then (.denied, [], d)
  else if (mapFind d.sec.ingestKeys slot).isSome then (.busy, [], d)
  else (.done, [], d.modSec (fun s => { s with
    ingestKeys := mapPut s.ingestKeys slot (owner, sliceB key 0 32), keyExpect := mapPut s.keyExpect slot x.mask }))

/-- UNBIND_INGEST_KEY (16 Table 5). -/
def Dev.keyUnbindReq (slot : Nat) (d : Dev) : SpdmAnswer × List Byte × Dev :=
  if 64 ≤ slot then (.denied, [], d)
  else if (mapFind d.sec.ingestKeys slot).isSome then (.done, [], d.keyUnbind slot) else (.busy, [], d)

/-! ## The report (16 R417) -/

/-- SEC_STATE and SEC_SVN (16 Table 8). -/
def Dev.secState (l : Life) (d : Dev) : W32 :=
  BitVec.ofNat 32 (l.lifecycle % 4 + 4 * b2n l.debugOpen + 8 * b2n d.sec.udsLocked + 256 * (l.debugCount % 128))
def Life.svnWord (l : Life) : W32 := BitVec.ofNat 32 (l.loaderSvn % 128 + 256 * (l.fwSvn % 128) + 65536 * l.revoked.toNat)

/-- A seal entry as block 21 gives it: STATE, OWNER, ACCESS, generation (16 Table 4; log 25 on its layout). -/
def SealEntry.report (e : SealEntry) : List Byte :=
  leBytes 1 (match e.mode with | .free => 0 | .opened => 1 | .closing => 2) ++ leBytes 1 e.owner ++ leBytes 1 e.access.toNat ++
    leBytes 1 0 ++ leBytes 2 e.gen.toNat ++ leBytes 2 0

/-- The measurement blocks in order (16 Table 4). -/
def Dev.blocks (l : Life) (d : Dev) : List Byte :=
  (List.range 16).flatMap d.meas ++ leBytes 2 (d.secState l).toNat ++ leBytes 1 l.debugCount ++ leBytes 4 l.svnWord.toNat ++
    leBytes 8 d.sec.confined.toNat ++ (List.range 64).flatMap (fun e => (d.sealEntry e).report) ++
    leBytes 2 0x0640 ++ leBytes 2 0xB0 ++ leBytes 4 d.node

/-- GET_MEASUREMENTS (16 R417): the blocks, the nonce, and the signature over both under the alias key. -/
def Dev.measReport (l : Life) (nonce : List Byte) (d : Dev) : Dev :=
  if !d.boot.firmware then d else
  let msg := d.blocks l ++ nonce
  { d with pci := { d.pci with reported := d.pci.reported || d.pci.session.isSome } }.emit
    (.spdm .done (msg ++ sliceB (Config.ed448Sign d.sec.aliasKey msg) 0 114))

/-! ## Interfaces (14 R394, 16 R424) -/

/-- The state of a context's TDI. -/
def Dev.tdiOf (d : Dev) (c : Nat) : Tdi := mapGet .unlocked d.pci.tdi c
def Dev.setTdi (c : Nat) (t : Tdi) (d : Dev) : Dev := { d with pci := { d.pci with tdi := mapPut d.pci.tdi c t } }

/-- Every queue of a context is stopped (14 R394). -/
def Dev.stopContext (c : Nat) (d : Dev) : Dev :=
  runAll ((d.fe.sqs.filter (fun s => s.2.ctx == c)).map Prod.fst) Dev.sqStop d

/-- A locked or running TDI enters ERROR (14 R394). -/
def Dev.tdiFail (c : Nat) (d : Dev) : Dev :=
  if d.tdiOf c = .locked ∨ d.tdiOf c = .run then ((d.setTdi c .error).setFlag evPci 7).stopContext c else d

/-! ## The debug opening (16 R425) -/

/-- Whether a debug opening is refused: disabled, 64 openings burnt, or a token that fails. -/
def Dev.debugRefused (l : Life) (nonce token : List Byte) (scope : W32) (keyIndex : Nat) (d : Dev) : Bool :=
  fbit (d.word (offSec + 8)) 0 || decide (64 ≤ l.debugCount) || decide (4 ≤ keyIndex) || l.revoked.getLsbD keyIndex ||
  !Config.rootVerify keyIndex (identityDigest ++ sliceB nonce 0 32 ++ leBytes 4 scope.toNat) token

/-- Step 3: sealed ports fault, IDE streams become insecure, and open regions close. -/
def Dev.debugClose (d : Dev) : Dev :=
  let d1 := runAll ((List.range Config.ports).filter (fun p => (d.port p).isSealed)) (fun p d => d.portFault p 4) d
  let d2 := { d1 with pci := { d1.pci with funcs := d1.pci.funcs.map (fun f => (f.1, { f.2 with ideKey := [] })), session := none, reported := false } }
  runAll (List.range 64) Dev.regionClose d2

/-- Step 4: sealed rows, confined tiles and keys are zeroed; the alias public key's digest is kept. -/
def Dev.debugZero (d : Dev) : Dev :=
  let owned := (List.range Config.tiles).filter (fun t => !(d.tileOwners t).isEmpty)
  let d1 := runAll owned (fun t d => d.modTile t TileState.scrubbed) d
  let d2 := runAll (List.range 64) Dev.regionZero d1
  d2.modSec (fun s => { s with
    ingestKeys := [], keyExpect := [], cdi := [], aliasKey := [], sealRoot := []
    clearing := s.clearing.filter (fun t => !owned.contains t)
    confined := 0, unconfining := [] })

/-- A debug opening (16 R425). -/
def debugOpen (nonce token : List Byte) (scope : W32) (keyIndex : Nat) (l : Life) (d : Dev) : Life × Dev :=
  if d.debugRefused l nonce token scope keyIndex then (l, d.modSec (fun s => { s with refused := s.refused + 1 }))
  else ({ l with debugOpen := true, debugCount := l.debugCount + 1 }, (d.debugClose.debugZero).setEvent evSec 0x30)

/-! ## The seal exchange (16 R423) -/

/-- Whether the partner's message passes the checks: its chain, lifecycle and debug state, and with SAME_FW its slot 1. -/
def Dev.sealPasses (d : Dev) (msg : List Byte) (chainOk : Bool) : Bool :=
  chainOk && (!fbit (d.word (offSec + 0xC)) 0 || sliceB msg 128 64 == d.meas 1)

/-- A SEAL_MSG arrives (16 R423): in EXCHANGE, or on a sealed port as a rekey, which this part then answers. -/
def Dev.takeSeal (p : Nat) (msg : List Byte) (chainOk : Bool) (d : Dev) : Dev :=
  let s := d.port p
  let opening := decide (s.mode = .exchange) && !s.partnerRec.isEmpty && d.sealWanted p && !s.isSealed
  let again := s.isSealed && s.beats
  if !opening && !again then d
  else if !d.sealPasses msg chainOk then d.portFault p 4
  else
    let d1 := if again && !d.sec.rekeying.contains p then d.sealSend p else d
    (d1.modPort p (PortState.install (d1.sealKeys p msg))).modSec (fun s => { s with rekeying := s.rekeying.filter (· != p) })

/-- A rekey begins (16 R423). -/
def Dev.rekey (p : Nat) (d : Dev) : Dev :=
  let s := d.port p
  if s.isSealed && s.beats && d.boot.firmware && !d.sec.rekeying.contains p then
    (d.modSec (fun s => { s with rekeying := p :: s.rekeying })).sealSend p else d

end Sys2Proof.Machine
end

