-- ==== Sys2Proof/Machine/Sync.lean ====
section
/-! DEFINITION. The commands of synchronisation (11): the ledger, release signals, watch entries, vanes and lulls. -/
namespace Sys2Proof.Machine

/-- LEDGER_OPEN (11 R297). -/
def execLedgerOpen (node endpoint : Nat) (s : State) : Result :=
  performMem true s (fun _ d => (d.ledgerOpen node endpoint).2)

/-- LEDGER_CLOSE (11 R297). -/
def execLedgerClose (node endpoint : Nat) (s : State) : Result :=
  performMem true s (fun _ d => d.ledgerClose node endpoint)

/-- RELEASE_SIGNAL (11 R298, R527). -/
def execReleaseSignal (who : Who) (addr : Nat) (val : W64) (count : W32) (rtag : W16) (s : State) : Result :=
  performMem true s (fun _ d =>
    d.signalArrive { who := who, addr := addr, val := val, count := count, rtag := rtag, pk := none })

/-- SIGNAL_RETRY (11 R299). -/
def execSignalRetry (index : Nat) (s : State) : Result :=
  performMem true s (fun _ d => d.resend index)

/-- HOLD_TIMEOUT (11 R299). -/
def execHoldTimeout (index : Nat) (s : State) : Result :=
  performMem true s (fun _ d => d.holdExpire index)

/-- A write of SYN_WATCHn_CTL (11 R303): arming tests the word's current value. -/
def Dev.watchWrite (req : Req) (n : Nat) (val : W32) (d : Dev) : Dev :=
  let d1 := storeReg req (offWatch n) val d
  let i := fld (d1.word (offWatch n)) 13 0
  if fbit val 31 then d1.testWatch n i (d1.sync64 i) else d1

/-- WATCH_ARM (11 R303). -/
def execWatchArm (req : Req) (n : Nat) (val : W32) (s : State) : Result :=
  performMem (reqFull req && decide (n < Config.watchEntries)) s (fun _ d => (d.dropShadow req).watchWrite req n val)

/-- CMD 1 of SYN_VANE_CMD (11 R310). -/
def Dev.vaneBreakCmd (n : Nat) (d : Dev) : Dev := (d.vaneBreakNow n).vaneRun vaneFuel
/-- CMD 0 of SYN_VANE_CMD (11 R310): FWD, ARRIVE, SENSE and BROKEN are cleared, and with the whole words any error in
them (07 R526). -/
def Dev.vaneResetCmd (n : Nat) (d : Dev) : Dev :=
  let a := fld (d.word (offVane n + 4)) 13 0
  let b := d.vaneSense n
  ((d.modSync (fun s => { s with words := mapSet 0 (mapSet 0 s.words a 0) b 0 })).modMem (fun m => { m with
    badSync := m.badSync.filter (fun i => i != a && i != b), weakSync := m.weakSync.filter (fun i => i != a && i != b) })).modVane n (fun _ => {})

/-- VANE_BREAK (11 R310). -/
def execVaneBreak (req : Req) (n : Nat) (s : State) : Result :=
  performMem (reqFull req && decide (n < Config.vanes)) s (fun _ d => (d.dropShadow req).vaneBreakCmd n)

/-- VANE_RESET (11 R310). -/
def execVaneReset (req : Req) (n : Nat) (s : State) : Result :=
  performMem (reqFull req && decide (n < Config.vanes)) s (fun _ d => (d.dropShadow req).vaneResetCmd n)

/-! ## Lull (11 R311-R314) -/

/-- The expected wake time of a waiting half in schedule time (05 R137): none for a half that waits without one. -/
def Dev.wakeAt (d : Dev) (s : HalfState) : Option W64 :=
  match s.wait with
  | some { what := .time target abs _, .. } => some (if abs then target - d.ft.slip else target)
  | some { what := .word _ _ _ _ dl _, .. } => dl
  | _ => none

/-- Whether a half's wait lets its tile lull: `wait.ft`, `wait.w` or `tok.wait` (11 R311). -/
def HalfState.lullable (s : HalfState) : Bool :=
  match s.wait with
  | some { what := .fence _ _ _, .. } => false
  | some _ => decide (s.mode = .wait)
  | none => false

/-- The halves that wait. -/
def TileState.waiting (t : TileState) : List HalfState := [t.h0, t.h1].filter (fun s => decide (s.mode = .wait))
/-- The earliest of the expected wake times. -/
def Dev.earliest (d : Dev) (l : List HalfState) : Option W64 :=
  l.foldl (fun m s => match m, d.wakeAt s with
    | none, w => w
    | some a, none => some a
    | some a, some w => some (if ftDiff w a < 0 then w else a)) none

/-- Whether a tile may lull (11 R311); the time every half has waited is the command's. -/
def Dev.mayLull (d : Dev) (t : Nat) : Bool :=
  let u := d.tile t
  let ws := u.waiting
  let need := (max 500 (fld (d.word (offSyn + 4)) 15 0) + d.sync.lead) * 1024
  fbit (d.word offSyn) 0 && !u.lulled &&
  [u.h0, u.h1].all (fun s => s.aq.isEmpty && s.vq.isEmpty && s.mq.isEmpty && (decide (s.mode = .idle) || s.lullable)) && !ws.isEmpty &&
  (if ws.all (fun s => (d.wakeAt s).isSome) then
    (match d.earliest ws with
    | some w => decide ((need : Int) ≤ ftDiff w d.sched)
    | none => false)
   else true)

/-- LULL_ENTER (11 R311, R312). -/
def execLullEnter (t : Nat) (s : State) : Result :=
  perform (halfOk t 0) s (fun _ d => if d.mayLull t then d.modTile t (fun u => { u with lulled := true, due := d.earliest u.waiting }) else d)

/-- Whether a lulled tile begins to wake (11 R313): its lead has come, a waiter is satisfied, or a stop is asked. -/
def Dev.mustWake (d : Dev) (t : Nat) : Bool :=
  let u := d.tile t
  [u.h0, u.h1].any (fun s => decide (s.mode = .run) || s.halting) ||
  (match d.ras.job with
  | some j => decide (j.tile = t) && decide (j.phase = .quiet)
  | none => false) ||
  (match d.earliest u.waiting with
  | some w => decide (ftDiff w d.sched ≤ (d.sync.lead * 1024 : Nat))
  | none => false)

/-- LULL_WAKE (11 R313). -/
def execLullWake (t : Nat) (s : State) : Result :=
  perform (halfOk t 0) s (fun _ d =>
    if (d.tile t).lulled && !(d.tile t).waking && d.mustWake t then
      (d.modTile t (fun u => { u with waking := true })).wakeBegin t else d)

/-- Whether an expected wake time has passed in schedule time (11 R314). -/
def Dev.overdue (d : Dev) (w : Option W64) : Bool :=
  match w with
  | some w => decide (ftDiff w d.sched < 0)
  | none => false

/-- WAKE_COMPLETE (11 R313, R314): late after the time that the lull expected, be its wait released or not. -/
def execWakeComplete (t latencyNs : Nat) (s : State) : Result :=
  perform (halfOk t 0) s (fun _ d =>
    if !(d.tile t).waking then d else
    let late := d.overdue (d.tile t).due || d.overdue (d.earliest (d.tile t).waiting)
    let d1 := (d.modTile t (fun u => { u with lulled := false, waking := false })).modSync (fun s => { s with
      wakes := (latencyNs :: s.wakes).take 256
      wakeCnt := if late then 0 else s.wakeCnt + 1
      lead := if late then 4000 else s.lead })
    d1.setFlagIf late evSyn 4)

/-- LULL_LEAD_ADAPT (11 R314). -/
def execLullLeadAdapt (s : State) : Result :=
  perform true s (fun _ d =>
    if fbit (d.word offSyn) 1 && decide (64 ≤ d.sync.wakeCnt) then
      d.modSync (fun s => { s with wakeCnt := 0, lead := max 1000 ((maxN s.wakes + 250 + 9) / 10 * 10) })
    else d)

end Sys2Proof.Machine
end

