-- ==== Sys2Proof/Machine/Memory.lean ====
section
/-! DEFINITION. The commands of memory (07). -/
namespace Sys2Proof.Machine

/-- An access performed for an agent, with its answer put out. -/
def Dev.answerAccess (who : Who) (addr : Nat) (op : MemOp) (d : Dev) : Dev :=
  let r := d.memAccess who addr op
  r.2.2.emit (.access who (wireStatus r.1) r.2.1)
/-- An access waits for the end of a repair (07 R210). -/
def Dev.holdAccess (who : Who) (addr : Nat) (op : MemOp) (d : Dev) : Dev :=
  d.modMem (fun m => { m with held := m.held ++ [{ who := who, addr := addr, op := op }] })
/-- An access served for an agent: at once, or once the pseudo-channel it meets is repaired. -/
def Dev.serve (who : Who) (addr : Nat) (op : MemOp) (d : Dev) : Dev :=
  d.orWait (Dev.holdAccess who addr op) (Dev.answerAccess who addr op)

/-- MEMORY_ACCESS (07 R184-R197, R203-R206): an upset of the accessed block, if any, is found by the access. -/
def execMemoryAccess (who : Who) (addr : W64) (op : MemOp) (ecc : Ecc) (s : State) : Result :=
  perform true s (fun _ d => (d.upset addr.toNat ecc).serve who addr.toNat op)

/-- SYNC_WORD_COMMIT (11 R302): a write or atomic to a watch word. -/
def execSyncWordCommit (who : Who) (word : Nat) (op : MemOp) (s : State) : Result :=
  perform (decide (word < Config.watchWords)) s (fun _ d =>
    match op with
    | .read _ => d
    | .write bs => d.serve who (syncBase + 8 * word) (.write bs)
    | .atomic o x c => d.serve who (syncBase + 8 * word) (.atomic o x c))

/-- What a patrol pass finds in a block of a stack (07 R204). -/
def Dev.scrubBlock (b : Nat) (d : Dev) : Dev :=
  let d1 := d.hbmMend [b] 1
  if d1.mem.bad.contains b then d1.hbmUe (64 * b) 1 else d1

/-- The blocks of a stack between two stack offsets that hold an error, correctable ones first. -/
def Dev.scrubHits (d : Dev) (s lo hi : Nat) : List Nat :=
  (d.mem.weak ++ d.mem.bad).filter (fun b => (granOf (64 * b)).1 == s && decide (lo ≤ stackOff (64 * b)) && decide (stackOff (64 * b) < hi))

/-- The patrol pass of a stack goes on to a stack offset (07 R204): it finds every error that stands there, and the upsets
that the command brings. A pass that has come to the end of the backed blocks is over (07 Table 8 SCRUBBING). -/
def Dev.scrubTo (s : Nat) (found : List (Nat × Ecc)) (upTo : Nat) (d : Dev) : Dev :=
  let lo := (d.stack s).scrubAt
  let hi := min upTo stackSize
  if hi ≤ lo then d else
  let d1 := runAll (found.filter (fun f => decide (lo ≤ f.1) && decide (f.1 < hi))) (fun f d => d.upset (interOf s f.1) f.2) d
  let d2 := runAll (d1.scrubHits s lo hi) Dev.scrubBlock d1
  let n := if hi = stackSize then 0 else hi
  d2.modStack s (fun m => { m with scrubAt := n, scrubbing := decide (n ≠ 0) })

/-- PATROL_SCRUB (07 R204): the pass of one stack's blocks goes on; with SCRUB_EN clear there is none. -/
def execPatrolScrub (stack : Nat) (part : ScrubPart) (s : State) : Result :=
  perform (stackOk stack) s (fun _ d =>
    if fbit (d.word 0x2000000) 0 then d.scrubTo stack part.found part.upTo
    else d.modStack stack (fun m => { m with scrubAt := 0, scrubbing := false }))

/-- Block keys of a granule. -/
def granBlocks (s p r : Nat) : List Nat := (List.range 16).map (fun b => interOf s ((r * 32 + p) * 1024 + 64 * b) / 64)

/-- The copy to a spare ends (07 R207, R208): the remap entry switches with the lost mask of the copy. -/
def Dev.retireNow (s p r : Nat) (d : Dev) : Dev :=
  let m := d.stack s
  let k := granKey p r
  if m.retired k then d else
  match m.spare p with
  | none => d.setFlag (evMem s) 4
  | some i =>
    let bs := granBlocks s p r
    let d := d.hbmMend bs 3
    let lost := bs.filter (fun b => d.mem.bad.contains b)
    let mask := lost.foldl (fun (w : W16) b => w ||| BitVec.ofNat 16 (2 ^ (b % 16))) 0
    let d1 := d.modStack s (fun m => { m with remap := mapPut m.remap k (i, mask) })
    let d2 := runAll lost (fun b d => d.hbmUe (64 * b) 3) d1
    d2.setEvent (evMem s) (4#16 ||| (if 256 - (d2.stack s).used p < 16 then 8#16 else 0#16))

/-- The stack's repair command status. -/
def Dev.retireStatus (s : Nat) (st : RetireMode) (w : Option RetireWork) (d : Dev) : Dev :=
  d.modStack s (fun m => { m with status := st, work := w })

/-- RETIRE (07 R207, R208): MEM_Hs_RETIRE written with CMD 0; ignored while a command is busy. -/
def Dev.retireCmd (stack : Nat) (val : W32) (d : Dev) : Dev :=
  let p := fld val 4 0
  let r := fld val 26 5
  let m := d.stack stack
  if m.status = .busy then d
  else if 2621440 ≤ r then d.retireStatus stack .refused none
  else if m.retired (granKey p r) then d.retireStatus stack .done none
  else if (m.spare p).isNone then (d.retireStatus stack .refused none).setFlag (evMem stack) 4
  else d.retireStatus stack .busy (some (.retire p r))
/-- RETIRE as a command. -/
def execRetire (req : Req) (stack : Nat) (val : W32) (s : State) : Result :=
  perform (isRetire req stack val 0) s (fun _ d => (d.dropShadow req).retireCmd stack val)

/-- RELEASE (07 R211): CMD 1; refused where the granule is not retired or has lost blocks. -/
def Dev.releaseCmd (stack : Nat) (val : W32) (d : Dev) : Dev :=
  let p := fld val 4 0
  let r := fld val 26 5
  let m := d.stack stack
  if m.status = .busy then d
  else match mapFind m.remap (granKey p r) with
    | none => d.retireStatus stack .refused none
    | some e => if e.2 = 0 then d.retireStatus stack .busy (some (.release p r)) else d.retireStatus stack .refused none
/-- RELEASE as a command. -/
def execRelease (req : Req) (stack : Nat) (val : W32) (s : State) : Result :=
  perform (isRetire req stack val 1) s (fun _ d => (d.dropShadow req).releaseCmd stack val)

/-- SPPR (07 R210): CMD 2; the row's granule, the one that 07 R187 places in a row of a pseudo-channel, is retired first (log 14). -/
def Dev.spprCmd (stack : Nat) (val : W32) (d : Dev) : Dev :=
  let p := fld val 4 0
  let r := fld val 26 5
  let m := d.stack stack
  if m.status = .busy then d
  else if 2621440 ≤ r then d.retireStatus stack .refused none
  else if !m.retired (granKey p r) && (m.spare p).isNone then (d.retireStatus stack .refused none).setFlag (evMem stack) 4
  else
    let d1 := if m.retired (granKey p r) then d else d.retireNow stack p r
    (d1.retireStatus stack .busy (some (.sppr p r))).modStack stack (fun m => { m with pprBusy := true })
/-- SPPR as a command. -/
def execSppr (req : Req) (stack : Nat) (val : W32) (s : State) : Result :=
  perform (isRetire req stack val 2) s (fun _ d => (d.dropShadow req).spprCmd stack val)

/-- The copy of the command in progress, or of the controller's own next retirement, ends (07 R207, R211). -/
def Dev.retireComplete (stack : Nat) (d : Dev) : Dev :=
  let m := d.stack stack
  match m.work with
  | some (.retire p r) => (d.retireNow stack p r).retireStatus stack .done none
  | some (.release p r) =>
    ((d.modStack stack (fun m => { m with remap := mapDel m.remap (granKey p r) })).setFlag (evMem stack) 2).retireStatus stack .done none
  | some (.sppr _ _) => d
  | none =>
    match m.queue with
    | [] => d
    | k :: rest => (d.modStack stack (fun m => { m with queue := rest })).retireNow stack (k / 4194304) (k % 4194304)

/-- RETIREMENT_COMPLETE (07 R207, R211). -/
def execRetirementComplete (stack : Nat) (s : State) : Result :=
  perform (stackOk stack) s (fun _ => Dev.retireComplete stack)

/-- The accesses that waited for a repair are performed, oldest first, and the halves' operations that waited leave
(07 R210). -/
def Dev.serveHeld (d : Dev) : Dev :=
  let d1 := runAll d.mem.held (fun h d => d.serve h.who h.addr h.op) (d.modMem (fun m => { m with held := [] }))
  runAll d1.tiles (fun t d => (d.globPump t.1 0).globPump t.1 1) d1

/-- PPR_COMPLETE (07 R210). -/
def execPprComplete (stack : Nat) (ok : Bool) (s : State) : Result :=
  perform (stackOk stack) s (fun _ d =>
    if (d.stack stack).pprBusy then
      (((d.retireStatus stack .done none).modStack stack (fun m => { m with pprBusy := false })).setFlag (evMem stack) (if ok then 5 else 6)).serveHeld
    else d)

/-- The lowest remap entry with lost blocks whose key is at least k (07 R209). -/
def StackMem.lostFrom (m : StackMem) (k : Nat) : Option Nat :=
  (m.remap.find? (fun e => decide (k ≤ e.1) && e.2.2 != 0)).map Prod.fst

/-- LOST_CMD.FIRST and NEXT (07 R209). -/
def Dev.lostFirst (s : Nat) (d : Dev) : Dev := d.modStack s (fun m => { m with lostSel := m.lostFrom 0 })
def Dev.lostNext (s : Nat) (d : Dev) : Dev := d.modStack s (fun m => { m with lostSel := m.lostSel.bind (fun k => m.lostFrom (k + 1)) })

/-- LOST_FIRST (07 R209). -/
def execLostFirst (req : Req) (stack : Nat) (s : State) : Result :=
  perform (reqFull req && stackOk stack) s (fun _ d => (d.dropShadow req).lostFirst stack)

/-- LOST_NEXT (07 R209). -/
def execLostNext (req : Req) (stack : Nat) (s : State) : Result :=
  perform (reqFull req && stackOk stack) s (fun _ d => (d.dropShadow req).lostNext stack)

end Sys2Proof.Machine
end

