-- ==== Sys2Proof/Machine/TileEvents.lean ====
section
/-! DEFINITION. Movement issue, the events of a tile's queues and channels, and the tile registers that act when written (03 R70-R76, R78; 05 R130-R132, R143; 07 R198-R201). -/
namespace Sys2Proof.Machine

/-- The precise faults of `mv` (05 R143). -/
def mvFault (t h : Nat) (d : Dev) (_s : HalfState) (e : QEntry) : Option (Nat × W64) :=
  let a := (e.op 1).toNat
  if a % 64 ≠ 0 then some (fltMemRange, e.op 1) else (d.rangeFault t h a 64).map (fun c => (c, e.op 1))

/-- MV (05 R143). -/
def execMv (t h : Nat) (w : W64) (s : State) : Result :=
  perform (isOp t h w 0x20) s (fun _ d => d.issueStart t h w .movement [fB w] (mvFault t h) (fun _ s => s))

/-- QUEUED_INSTRUCTION_START (05 R130, 03 R65). -/
def execQueuedInstructionStart (t h : Nat) (q : QueueId) (s : State) : Result :=
  perform (halfOk t h) s (fun _ d => d.startHead t h q)

/-- A global operation that has come back completes (05 R130, R138-R140): its register is written and its token
signalled; a refusal raises REMOTE and an uncorrectable word MEM_ERROR. -/
def Dev.globDone (t h : Nat) (g : GlobOp) (d : Dev) : Dev :=
  match g.status with
  | none => d
  | some st =>
    let d1 := d.modHalf t h (fun s => { s with globs := s.globs.filter (fun f => f.idx != g.idx) })
    let a : W64 := BitVec.ofNat 64 (if g.byLoc then g.loc else g.node * 2 ^ 44 + g.loc)
    if st ≠ stOk then
      d1.raise t h { cls := (if st = stMemError then fltMemError else fltRemote), source := (if g.ofMove then 3 else 4)
                     channel := (if g.ofMove then mvChannel (d.tile t).twin h g.word else 0)
                     seq := g.seq, pc := g.pc, bank := g.bank, word := g.word, detail := a, time := 0, precise := false }
    else
      (d1.modHalf t h (fun s =>
        let s1 := match g.kind with
          | .load w32 => s.setReg g.dst (if w32 then (lo32 g.value).setWidth 64 else g.value)
          | .store _ => s
          | .atom _ => if g.ofMove then s else s.setReg g.dst g.value
        s1.signal g.sig g.seq g.pc g.bank g.word 4)).globPump t h

/-- The head of a queue completes (05 R130): it leaves and its token is signalled. -/
def Dev.queueDone (t h : Nat) (q : QueueId) (d : Dev) : Dev :=
  let s := d.half t h
  match s.queue? q with
  | [] => d
  | e :: _ =>
    let keep (s : HalfState) : HalfState := if q = .array then { s with undo := none } else s
    if e.started && s.fault.isNone then d.modHalf t h (fun s => keep ((s.popQueue q).finish (queueNum q) e)) else d

/-- INSTRUCTION_COMPLETE (05 R130). -/
def execInstructionComplete (t h : Nat) (u : ExecUnit) (s : State) : Result :=
  performMem (halfOk t h) s (fun _ d =>
    match u with
    | .queue q => d.queueDone t h q
    | .global i =>
      match (d.half t h).globs.find? (fun g => g.idx == i) with
      | some g => if (d.half t h).mode = .frozen then d else d.globDone t h g
      | none => d)

/-- TOKEN_SIGNAL (05 R131, R132): the oldest pending signal of a token raises its count; one that would pass 255 is
ILLEGAL against the signaller. -/
def execTokenSignal (t h tok : Nat) (s : State) : Result :=
  perform (halfOk t h && decide (tok < 32)) s (fun _ d =>
    let s := d.half t h
    match s.sigs.find? (fun p => p.tok == tok) with
    | none => d
    | some p =>
      let d1 := d.modHalf t h (fun s => { s with sigs := s.sigs.erase p })
      if s.token tok < 255 then d1.modHalf t h (fun s => { s with tokens := mapSet 0 s.tokens tok (s.token tok + 1) })
      else d1.raise t h { cls := fltIllegal, source := p.source, seq := p.seq, pc := p.pc, bank := p.bank, word := p.word
                          channel := (if p.source = 3 then mvChannel (d.tile t).twin h p.word else 0)
                          detail := 0, time := 0, precise := p.source == 0 })

/-- MOVE_DESCRIPTOR (07 R198-R201). -/
def execMoveDescriptor (t ch : Nat) (s : State) : Result :=
  perform (halfOk t 0 && decide (ch < 8)) s (fun _ d => (d.mvRun t ch).movePump t ch)

/-- MOVE_DESCRIPTOR_COMPLETE (05 Table 7, 07 R200). -/
def execMoveDescriptorComplete (t ch : Nat) (s : State) : Result :=
  performMem (halfOk t 0 && decide (ch < 8)) s (fun _ d => d.mvDone t ch)

/-- A write of TIL_CTL (03 Table 7, R74): HALT stops both halves. -/
def Dev.tilCtl (req : Req) (t : Nat) (val : W32) (d : Dev) : Dev :=
  let d1 := storeReg req (offTil t + 4) val d
  if fbit val 2 then d1.haltTile t else d1

/-- TIL_HALT (03 R74). -/
def execTilHalt (req : Req) (t : Nat) (val : W32) (s : State) : Result :=
  perform (reqFull req && halfOk t 0) s (fun _ d => (d.dropShadow req).tilCtl req t val)

/-- A write of TIL_Hh_RELEASE (03 Table 9, R73): a FROZEN or STOPPED half becomes IDLE. -/
def Dev.tilRelease (t h : Nat) (val : W32) (d : Dev) : Dev :=
  let m := (d.half t h).mode
  if fbit val 0 && (decide (m = .frozen) || decide (m = .stopped)) then
    (d.modTile t (TileState.dropMoves h)).modHalf t h (fun s => { s.clearTask with mode := .idle })
  else d

/-- TIL_RELEASE (03 R73). -/
def execTilRelease (req : Req) (t h : Nat) (val : W32) (s : State) : Result :=
  perform (reqFull req && halfOk t h) s (fun _ d => (d.dropShadow req).tilRelease t h val)

/-- A write of TIL_Hh_DOORBELL (03 Table 10): the count rises by the value and the half's wait on it is tested. -/
def Dev.tilDoorbell (t h : Nat) (val : W32) (d : Dev) : Dev :=
  d.modHalf t h (fun s =>
    let v := s.doorbell + val.setWidth 64
    ({ s with doorbell := v }).testWord true 0 v)

/-- TIL_DOORBELL (03 R78). -/
def execTilDoorbell (req : Req) (t h : Nat) (val : W32) (s : State) : Result :=
  perform (reqFull req && halfOk t h) s (fun _ d => (d.dropShadow req).tilDoorbell t h val)

/-- TILE_WINDOW_ACCESS (03 R75, R76). -/
def execTileWindowAccess (who : Who) (t off : Nat) (op : MemOp) (s : State) : Result :=
  perform (halfOk t 0 && decide (off < 0x2000000)) s (fun _ d => d.serve who (tileBase + tileSpan * t + off) op)

/-- MODE_CHANGE (03 R71): with both halves idle the tile changes mode; memory, slots and tags keep their contents. Which
bank half 1 then executes is not stated: DESIGN CHOICE, the one that half 0 executes (log 16). A tile in normal mode holds
at most one draught (12), so a twin tile with two does not return to it. -/
def execModeChange (t : Nat) (twin : Bool) (s : State) : Result :=
  perform (halfOk t 0) s (fun _ d =>
    let u := d.tile t
    let both := (mapGet {} d.fe.engines (2 * t)).draught.isSome && (mapGet {} d.fe.engines (2 * t + 1)).draught.isSome
    if decide (u.h0.mode = .idle) && decide (u.h1.mode = .idle) && (if twin then fbit (d.word (offTil t + 4)) 1 else !both) then
      d.modTile t (fun u => { u with twin := twin, h1 := (if twin && !u.twin then { u.h1 with bank := u.h0.bank } else u.h1) })
    else d)

end Sys2Proof.Machine
end

