-- ==== Sys2Proof/Machine/Control.lean ====
section
/-! DEFINITION. Control packets (13 R374, R375): their sending, their acceptance and what an accepted one does. -/
namespace Sys2Proof.Machine

/-- A packet is rejected at its arrival port (13 R374). -/
def Dev.ctrlReject (p : Nat) (d : Dev) : Dev := d.setFlag (evPort p) 7

/-- The argument of a control packet. -/
def ctrlArg (pk : Packet) : Nat := leAt pk.data 0 8

/-- Whether an operation is one of 13 Table 12 and its argument names a resource that exists here (13 R374). -/
def ctrlNames (pk : Packet) : Bool :=
  match pk.op with
  | 1 | 2 => decide (ctrlArg pk % 2048 < Config.sqs)
  | 3 | 4 | 6 => true
  | 5 => decide (ctrlArg pk % 128 < Config.tiles)
  | _ => false

/-- Whether a control packet is accepted (13 R374). -/
def Dev.ctrlAccepts (p : Nat) (pk : Packet) (d : Dev) : Bool :=
  fbit (d.word (offPort p)) 2 && (List.range 8).any (fun n => keyMatches (d.word (offLnk + 0x50 + 4 * n)) pk.src) && ctrlNames pk

/-- DRAIN of a port set or cleared by a control packet (13 R375). -/
def Dev.ctrlDrain (p : Nat) (on : Bool) (d : Dev) : Dev :=
  if on then (d.setBit (offPort p) 4 true).portDrainOn p else (d.setBit (offPort p) 4 false).portDrainOff p

/-- A tile is halted as by TIL_CTL.HALT (03 R74). -/
def Dev.tileHalt (t : Nat) (d : Dev) : Dev := d.haltTile t

/-- What an accepted control packet does (13 Table 12). -/
def Dev.ctrlAct (op arg : Nat) (d : Dev) : Dev :=
  match op with
  | 1 => d.sqStop (arg % 2048)
  | 2 => d.sqPause (arg % 2048)
  | 3 => d.ctrlDrain (arg % 32) true
  | 4 => d.ctrlDrain (arg % 32) false
  | 5 => d.tileHalt (arg % 128)
  | 6 => d.vaneBreakCmd (arg % 256)
  | _ => d

/-- A control packet arrives for this part (13 R374). -/
def Dev.takeControl (p : Nat) (pk : Packet) (d : Dev) : Dev :=
  if d.ctrlAccepts p pk then d.ctrlAct pk.op (ctrlArg pk) else d.ctrlReject p

/-- CONTROL (13 R374). -/
def execControl (p : Nat) (pk : Packet) (s : State) : Result :=
  performMem (isPacket p pk 0x22) s (fun _ d => d.onPacket p pk (Dev.takeControl p pk))

/-- CONTROL_OTHER (13 Table 12): an operation that is none of the table's. -/
def execControlOther (p : Nat) (pk : Packet) (s : State) : Result :=
  perform (isPacket p pk 0x22 && (decide (pk.op = 0) || decide (6 < pk.op))) s (fun _ d => d.onPacket p pk (Dev.ctrlReject p))

/-- DRAIN_PORT (13 R374, R375). -/
def execDrainPort (p : Nat) (s : State) : Result := perform (portOk p) s (fun _ d => d.ctrlDrain p true)
/-- UNDRAIN_PORT (13 R374, R375). -/
def execUndrainPort (p : Nat) (s : State) : Result := perform (portOk p) s (fun _ d => d.ctrlDrain p false)
/-- QUIESCE_TILE (13 R374, 03 R74). -/
def execQuiesceTile (t : Nat) (s : State) : Result := perform (halfOk t 0) s (fun _ => Dev.tileHalt t)
/-- BREAK_VANE (13 R374, 11 R310). -/
def execBreakVane (n : Nat) (s : State) : Result := performMem (decide (n < Config.vanes)) s (fun _ => Dev.vaneBreakCmd n)

/-- A write of LNK_CTRL_OP (13 R374): a control packet to LNK_CTRL_DST with LNK_CTRL_ARG. -/
def Dev.ctrlSend (val : W32) (d : Dev) : Dev :=
  let arg := d.word64 (offLnk + 0x44)
  (d.sendPacket none (mkPacket d 0 (fld (d.word (offLnk + 0x40)) 19 0) tyControl 0 0 8 0 0 (fld val 3 0) (leBytes 8 arg.toNat))).2

/-- CONTROL_PACKET_SEND (13 R374). -/
def execControlPacketSend (req : Req) (val : W32) (s : State) : Result :=
  perform (reqFull req) s (fun _ d => (d.dropShadow req).ctrlSend val)

end Sys2Proof.Machine
end

