-- ==== Sys2Proof/Machine/Ft.lean ====
section
/-! DEFINITION. The commands of fabric time (02). -/
namespace Sys2Proof.Machine

/-- BEAT_BOUNDARY (02 R24): FT_NOW passes to the next boundary and the per-beat work is done; nothing while EN is 0. -/
def execBeatBoundary (s : State) : Result :=
  perform true s (fun _ d => if d.ftEn then d.toBoundary.beatWork else d)

/-- NOTICE_EXPIRY (02 R39, R44): a notice is forgotten 64 beats after its apply beat. -/
def execNoticeExpiry (requester : Nat) (number : W16) (s : State) : Result :=
  perform true s (fun _ d =>
    d.modFt (fun f => { f with notices := f.notices.filter (fun h =>
      !(h.notice.requester == requester && h.notice.number == number &&
        decide (64 ≤ beatDiff d.beatNo h.notice.applyBeat.toNat))) }))

/-- A BEAT taken by a port that exchanges them (13 R368, R369): heartbeat and, from a partner of this domain, announce
and timing stamp (02 R26, which also names the partner and the announced master as members). The stamp aligns a chip whose
parent that port already was: the BEAT by which a master is adopted is no timing packet of a parent (02 R524). -/
def Dev.takeBeat (p : Nat) (b : BeatBody) (d : Dev) : Dev :=
  let d1 := d.modPort p (fun q => { q with missed := 0, child := b.parent && decide (b.domain = d.domain) })
  if b.domain ≠ d.domain ∨ (d.port p).sameDomain = false ∨ d.ftEn = false then d1 else
  let l := (d1.learn (d1.port p).partnerNode).2.learn b.master
  let c : Candidate := { node := b.master, prio := b.prio, external := b.external, hops := b.hops + 1 }
  let was := d.ft.parent = some p ∧ d.ft.master = some b.master
  let d2 := (l.2.modFt (fun f => { f with heard := mapPut f.heard p c })).masterHeard p c
  let d3 := d2.adopt.yieldMaster
  if was ∧ d3.ft.parent = some p ∧ d3.ft.master = some b.master then d3.align b.stamp (d3.port p).delay else d3

/-- BEAT_RECEIVED (13 R368; 02 R26-R28, R33-R36, R524). -/
def execBeatReceived (port : Nat) (body : BeatBody) (s : State) : Result :=
  perform (portOk port) s (fun _ d => if (d.port port).beats then d.takeBeat port body else d)

/-- MASTER_ELECTED (02 R27, R30): a chip that ranked itself best at MAX_HOPS + 2 boundaries becomes master, without a step. -/
def execMasterElected (s : State) : Result :=
  perform true s (fun _ d =>
    if (d.ft.mode = .free ∨ d.ft.mode = .holdover) ∧ d.maxHops + 2 ≤ d.ft.selfBest ∧ d.hearsBetter = false ∧ d.ftEn = true then
      let d1 := (d.nameMaster d.node d.ftPrio d.ownClass).modFt (fun f => { f with
        parent := none, hops := 0, ppsExpect := none
        incr := if d.ftSrc then f.incr else BitVec.ofNat 64 Config.incrNominal })
      d1.enterFt .master
    else d)

/-- LOCK_ACQUIRED (02 R34). -/
def execLockAcquired (s : State) : Result :=
  perform true s (fun _ d => if d.ft.mode = .acquire ∧ 16 ≤ d.ft.inLock then d.enterFt .locked else d)

/-- PARENT_LOST (02 R29): 8 boundaries without the master's announce from the parent. -/
def execParentLost (s : State) : Result :=
  perform true s (fun _ d => if d.ft.parent.isSome && decide (8 ≤ d.ft.missed) then d.dropParent else d)

/-- PROBE_EXCHANGE (02 R31): a port sends a delay probe carrying its counter. -/
def execProbeExchange (port : Nat) (s : State) : Result :=
  perform (portOk port) s (fun _ d =>
    if (d.port port).beats || decide ((d.port port).mode = .exchange) then
      d.sendLocal port tyProbe (leBytes 8 d.ft.now.toNat ++ leBytes 16 0)
    else d)

/-- PROBE (02 R31): a probe is stamped and answered; an answer completes one exchange. -/
def execProbe (port : Nat) (reply : Bool) (t1 t2 t3 : W64) (s : State) : Result :=
  perform (portOk port) s (fun _ d =>
    if (d.port port).beats || decide ((d.port port).mode = .exchange) then
      if reply then d.probeResult port t1 t2 t3 d.ft.now
      else d.sendLocal port tyProbe (leBytes 8 t1.toNat ++ leBytes 8 d.ft.now.toNat ++ leBytes 8 d.ft.now.toNat)
    else d)

/-- Ftu from one edge of FT_PPS to the next (02 R30). -/
def ppsPeriod : Nat := 1024000000000

/-- FT_PPS_EDGE (02 R23, R30): the edge is captured; on an armed master it aligns FT_NOW to FT_EPOCH; a later edge is
expected one second after the one before it, and the master slews its capture error away. -/
def execFtPpsEdge (s : State) : Result :=
  perform true s (fun _ d =>
    let disciplined := decide (d.ft.mode = .master) && d.ftSrc
    let d1 := d.modFt (fun f => { f with
      ppsCap := if d.ppsEn || disciplined then f.now else f.ppsCap
      ppsValid := true
      ppsAt := some d.clk
      external := if f.mode = .master then d.ftSrc && f.refValid else f.external })
    let next (at_ : W64) (d : Dev) : Dev := d.modFt (fun f => { f with ppsExpect := some (at_ + BitVec.ofNat 64 ppsPeriod) })
    if disciplined && d1.ft.epochArmed then
      let epoch := d.word64 (offFt + 0x50)
      (next epoch (d1.modFt (fun f => { f with now := epoch, frac := 0, epochArmed := false }))).setFlag evFt 7
    else if disciplined then
      match d.ft.ppsExpect with
      | some e => (next e d1).steer (ftDiff d.ft.now e)
      | none => (next d.ft.now d1).steer 0
    else d1.modFt (fun f => { f with ppsExpect := none }))

/-- Whether no edge of FT_PPS has come within 1.000,001 s of the last (02 R30). -/
def Dev.ppsLate (d : Dev) : Bool :=
  match d.ft.ppsAt with
  | some t => decide (t + ppsPeriod + 1024000 ≤ d.clk)
  | none => true

/-- PPS_MISSING (02 R30): no edge within 1.000,001 s of the last drops a disciplined master to system class. -/
def execPpsMissing (s : State) : Result :=
  perform true s (fun _ d =>
    if d.ppsLate then
      let d1 := d.modFt (fun f => { f with ppsValid := false, ppsExpect := none })
      if d.ftSrc && d.ft.ppsValid && decide (d.ft.mode = .master) then
        (d1.modFt (fun f => { f with external := false })).setFlag evFt 8
      else d1
    else d)

/-- FT_EPOCH_ARM (02 Table 9, 17 R437): a write of FT_EPOCH_HI applies the staged pair and arms. -/
def execFtEpochArm (req : Req) (hi : W32) (s : State) : Result :=
  perform (reqFull req) s (fun _ d =>
    (applyHi req (offFt + 0x54) hi (d.dropShadow req)).modFt (fun f => { f with epochArmed := true }))

/-- FT_CTL.EN cleared (02 R26, Table 5): FT_NOW holds, the state is FREE, the member list is cleared. -/
def Dev.ftOff (d : Dev) : Dev :=
  (d.enterFt .free).modFt (fun f => { f with parent := none, members := [], selfBest := 0, missed := 0 })

/-- FT_DISABLE (02 R26): a write of FT_CTL with EN = 0. -/
def execFtDisable (req : Req) (val : W32) (s : State) : Result :=
  perform (reqFull req) s (fun _ d =>
    let d1 := storeReg req (offFt + 0x10) val (d.dropShadow req)
    if d1.ftEn then d1.ftCtl else d1.ftOff)

/-- A slip request (02 R39). -/
def Dev.slipRequest (val : W32) (d : Dev) : Dev :=
  let n := fld val 15 0
  let amount := n * d.slotFtu
  if n = 0 then d
  else if 2 ^ 48 ≤ amount ∨ d.releasing = false then d.setFlag evFt 6
  else
    let notice : SlipNotice := {
      requester := d.node
      number := d.ft.nextNotice
      amount := amount
      applyBeat := BitVec.ofNat 44 (d.beatNo + fld (d.word (offFt + 0x38)) 5 0) }
    (d.modFt (fun f => { f with notices := f.notices ++ [{ notice := notice }], nextNotice := f.nextNotice + 1 })).floodSlip notice none

/-- SLIP_REQUEST (02 R39). -/
def execSlipRequest (req : Req) (val : W32) (s : State) : Result :=
  perform (reqFull req) s (fun _ d => (d.dropShadow req).slipRequest val)

/-- A slip notice taken from a domain port (02 R39, R40, R43): once per notice; late after its apply beat's boundary. -/
def Dev.takeSlip (p : Nat) (n : SlipNotice) (d : Dev) : Dev :=
  if d.ft.notices.any (fun h => h.notice.requester == n.requester && h.notice.number == n.number) then d
  else
    let d1 := (d.learn n.requester).2
    let bad := n.amount % d1.slotFtu != 0
    let h : HeldNotice := { notice := n, late := decide (beatDiff n.applyBeat.toNat d1.beatNo ≤ 0) && !bad, applied := bad }
    ((d1.modFt (fun f => { f with notices := f.notices ++ [h] })).setFlagIf bad evFt 6).floodSlip n (some p)

/-- SLIP (02 R39). -/
def execSlip (port : Nat) (notice : SlipNotice) (s : State) : Result :=
  perform (portOk port) s (fun _ d =>
    if (d.port port).beats && (d.port port).sameDomain then d.takeSlip port notice else d)

end Sys2Proof.Machine
end

