-- ==== Sys2Proof/Machine/BreezeOps.lean ====
section
/-! DEFINITION. Operations of the breeze engines (08 R236-R238): the descriptor, its vectors and its outputs. -/
namespace Sys2Proof.Machine

/-- One breeze engine. -/
def Dev.breeze (d : Dev) (s : Nat) : BreezeState := mapGet {} d.eng.breezes s
/-- Change one breeze engine. -/
def Dev.modBreeze (s : Nat) (f : BreezeState → BreezeState) (d : Dev) : Dev :=
  d.modEng (fun e => { e with breezes := mapMod {} e.breezes s f })

/-- The fields of a breeze descriptor (08 Table 10). -/
structure BreezeDesc where
  wf   : Nat
  af   : Nat
  nv   : Nat
  bf16 : Bool
  k    : Nat
  n    : Nat
  wstr : Nat
  wb   : Nat
  ws   : Nat
  xb   : Nat
  xstr : Nat
  ystr : Nat
  yb   : Nat
  rsv  : Bool
deriving DecidableEq, Repr

/-- Read a breeze descriptor (08 Table 10). -/
def breezeDesc (b : List Byte) : BreezeDesc :=
  let c := leAt b 0 4
  { wf := bitsN c 3 0
    af := bitsN c 7 4
    nv := bitsN c 10 8 + 1
    bf16 := bitsN c 11 11 == 1
    k := leAt b 4 4
    n := leAt b 8 4
    wstr := leAt b 12 4
    wb := leAt b 16 8
    ws := leAt b 24 8
    xb := leAt b 32 8
    xstr := leAt b 40 4
    ystr := leAt b 44 4
    yb := leAt b 48 8
    rsv := nz (bitsN c 31 12) || nz (leAt b 56 8) }

/-- Format depth, K-chunks, bytes of a weight row and of a vector's elements, scale bytes of each (06 Table 3, R153). -/
def BreezeDesc.depth (b : BreezeDesc) : Nat := codeDepth b.wf
def BreezeDesc.kcs (b : BreezeDesc) : Nat := (b.k + b.depth - 1) / b.depth
def BreezeDesc.wlen (b : BreezeDesc) : Nat := b.kcs * codeChunk b.wf
def BreezeDesc.xlen (b : BreezeDesc) : Nat := b.kcs * codeChunk b.af
def BreezeDesc.wsst (b : BreezeDesc) : Nat := if codeMx b.wf then b.kcs * (b.depth / 32) else 0
def BreezeDesc.xsst (b : BreezeDesc) : Nat := if codeMx b.af then b.kcs * (b.depth / 32) else 0
/-- Where a vector's scales begin: after its elements, rounded up to 32 bytes (08 Table 10). -/
def BreezeDesc.xsoff (b : BreezeDesc) : Nat := (b.xlen + 31) / 32 * 32
/-- Bytes of an output element. -/
def BreezeDesc.ysz (b : BreezeDesc) : Nat := if b.bf16 then 2 else 4

/-- Whether a breeze descriptor is MALFORMED (08 R237; log 20). -/
def BreezeDesc.bad (b : BreezeDesc) : Bool :=
  b.rsv || decide (7 < b.wf) || decide (7 < b.af) || codeDepth b.wf != codeDepth b.af || b.k == 0 || decide (65536 < b.k) ||
  b.n == 0 || decide (2 ^ 24 < b.n) || nz (b.wstr % 32) || nz (b.wb % 32) || nz (b.xstr % 32) || nz (b.ystr % 4) ||
  decide (0x40000 < b.nv * (b.xsoff + b.xsst)) || decide (stackSize < b.wb + (b.n - 1) * b.wstr + b.wlen) ||
  decide (stackSize < b.ws + b.n * b.wsst)

/-- One output (08 R237): the fold over the K-chunks from a clear slot with tag 0; where the `mma` would rescale, the value
is the largest finite one with the sign of the sum. The second answer says that it saturated. -/
def foldOut (vals : List (Num × Num)) : W32 × Bool :=
  vals.foldl (fun (acc : W32 × Bool) v =>
    if acc.2 then acc else (slotValue acc.1 0 v, slotOver acc.1 0 v)) (0, false)

/-- The decoded K-chunks of a row of elements with its scales. -/
def BreezeDesc.decode (b : BreezeDesc) (code : Nat) (els scs : List Byte) : List (List Num) :=
  (List.range b.kcs).map (fun kc =>
    opElems code (sliceB els (kc * codeChunk code) (codeChunk code)) (sliceB scs (kc * (b.depth / 32)) (b.depth / 32))
      b.depth (b.k - kc * b.depth))

/-- The bytes of an output and whether it saturated: the slot's value as `ep.rd` reads it with SAT (06 R175), as FP32 or
rounded on to BF16 by RNE with SAT. -/
def BreezeDesc.out (b : BreezeDesc) (w x : List (List Num)) : List Byte × Bool :=
  let r := foldOut ((w.zip x).map (fun e => treeDot (leafSize b.wf) e.1 e.2))
  let v := toF32Sat true (f32Num r.1)
  (if b.bf16 then leBytes 2 (Fmt.bf16.convert .rne true (f32Num v)) else leBytes 4 v.toNat, r.2)

/-- A breeze descriptor meets an error: an uncorrectable one, or a refused access (08 R238; log 20). -/
def Dev.breezeFail (s : Nat) (st : Nat) (d : Dev) : Dev :=
  (d.modBreeze s (fun c => { c with outcome := some (if st = stMemError then .memError else .refused) })).setFlagIf (decide (st = stMemError)) (evBrz s) 1

/-- Load the vectors from vector j up (08 R236): none where an access fails. -/
def Dev.breezeVectors (s : Nat) (who : Who) (b : BreezeDesc) : Nat → Nat → Dev → Option (List (List Byte × List Byte)) × Dev
  | 0, _, d => (some [], d)
  | n + 1, j, d =>
    let a := b.xb + j * b.xstr
    let r := d.memAccess who a (.read b.xlen)
    if r.1 ≠ stOk then (none, r.2.2.breezeFail s r.1) else
    let q := if b.xsst = 0 then (stOk, [], r.2.2) else r.2.2.memAccess who (a + b.xsoff) (.read b.xsst)
    if q.1 ≠ stOk then (none, q.2.2.breezeFail s q.1) else
    match Dev.breezeVectors s who b n (j + 1) q.2.2 with
    | (none, d1) => (none, d1)
    | (some l, d1) => (some ((r.2.1, q.2.1) :: l), d1)

/-- Write the outputs of one weight row, vector by vector; false where an access fails. -/
def Dev.breezeRow (s : Nat) (who : Who) (b : BreezeDesc) (row : Nat) (w : List (List Num)) :
    Nat → List (List (List Num)) → Dev → Bool × Dev
  | _, [], d => (true, d)
  | j, x :: xs, d =>
    let o := b.out w x
    let r := d.memAccess who (b.yb + j * b.ystr + row * b.ysz) (.write o.1)
    if r.1 ≠ stOk then (false, r.2.2.breezeFail s r.1) else
    let d1 := (r.2.2.modBreeze s (fun c => { c with sat := c.sat + (if o.2 then 1 else 0) })).setFlagIf o.2 (evBrz s) 0
    Dev.breezeRow s who b row w (j + 1) xs d1

/-- Stream n weight rows in ascending order from a first one (08 R236). -/
def Dev.breezeRows (s : Nat) (who : Who) (b : BreezeDesc) (xs : List (List (List Num))) : Nat → Nat → Dev → Dev
  | 0, row, d => d.modBreeze s (fun c => { c with row := row })
  | n + 1, row, d =>
    let r := d.memAccess who (stackAddr s (b.wb + row * b.wstr)) (.read b.wlen)
    if r.1 ≠ stOk then r.2.2.breezeFail s r.1 else
    let q := if b.wsst = 0 then (stOk, [], r.2.2) else r.2.2.memAccess who (stackAddr s (b.ws + row * b.wsst)) (.read b.wsst)
    if q.1 ≠ stOk then q.2.2.breezeFail s q.1 else
    let d1 := q.2.2.modBreeze s (fun c => { c with bytes := c.bytes + BitVec.ofNat 64 (b.wlen + b.wsst) })
    let o := d1.breezeRow s who b row (b.decode b.wf r.2.1 q.2.1) 0 xs
    if o.1 then Dev.breezeRows s who b xs n (row + 1) o.2 else o.2

/-- Check a descriptor that has been read and load its vectors (08 R236, R237). -/
def Dev.breezeLoad (s : Nat) (bytes : List Byte) (d : Dev) : Dev :=
  let who := (d.breeze s).who
  let b := breezeDesc bytes
  if b.bad then (d.modBreeze s (fun c => { c with outcome := some .malformed })).setFlag (evBrz s) 2
  else
    match d.breezeVectors s who b b.nv 0 with
    | (none, d1) => d1
    | (some l, d1) => d1.modBreeze s (fun c => { c with vectors := l, row := 0 })

/-- The engine goes on to a row: it streams every weight row before it, and after the last one or at a stop it ends
(08 R238). -/
def Dev.breezeTo (s upTo : Nat) (d : Dev) : Dev :=
  let c := d.breeze s
  let b := breezeDesc c.desc
  if !c.busy || c.outcome.isSome then d else
  let d1 := d.breezeRows s c.who b (c.vectors.map (fun v => b.decode b.af v.1 v.2)) (min upTo b.n - c.row) c.row
  if (d1.breeze s).outcome.isSome then d1
  else if b.n ≤ (d1.breeze s).row then d1.modBreeze s (fun c => { c with outcome := some .ok })
  else if c.stopAsk then d1.modBreeze s (fun c => { c with outcome := some .stopped })
  else d1

/-- An engine takes its dispatched descriptor and loads its vectors (08 R236, R237; 12 R324). -/
def Dev.breezeTake (s : Nat) (d : Dev) : Dev :=
  let k := 184 + s
  let e := d.engine k
  match e.draught with
  | none => d
  | some t =>
    if e.running.isSome || t.stop.isSome || d.keepsEntry k || (d.breeze s).busy then d else
    let who : Who := { kind := .engine, node := d.node, endpoint := k, owner := ((d.sq t.queue).map (fun q => q.ctx)).getD 0xFF }
    let d1 := d.modEngine k (fun e => { e with running := some { t with start := d.ft.now }, draught := none, loaded := false })
    let r := d1.memAccess who (stackAddr s (tdDesc t.desc)) (.read 64)
    let d2 := r.2.2.modBreeze s (fun c => { c with busy := true, desc := r.2.1, who := who, queue := some t.queue, outcome := none, stopAsk := false, vectors := [], row := 0 })
    if r.1 ≠ stOk then d2.breezeFail s r.1 else d2.breezeLoad s r.2.1

/-- A breeze descriptor ends (08 R238, 12 R333): a stop that came before its end is its status. -/
def Dev.breezeEnd (s : Nat) (d : Dev) : Dev :=
  let c := d.breeze s
  match c.outcome with
  | none => d
  | some o =>
    let stop := (((d.engine (184 + s)).running).bind (fun t => t.stop)).getD 1
    let st := match o with
      | .ok => if c.stopAsk then stop else 0
      | .stopped => stop
      | .malformed => 0x302
      | .memError | .refused => 0x301
    ((d.modBreeze s (fun c => { sat := c.sat, bytes := c.bytes })).taskEnd (184 + s) st false false false).feSettle

end Sys2Proof.Machine
end

