-- ==== Sys2Proof/Machine/Breeze.lean ====
section
/-! DEFINITION. The commands of the breeze engines (08 R236-R238). -/
namespace Sys2Proof.Machine

/-- BREEZE_DESCRIPTOR (08 R236, R237). -/
def execBreezeDescriptor (stack : Nat) (s : State) : Result :=
  performMem (stackOk stack) s (fun _ d => d.breezeTake stack)

/-- BREEZE_END (08 R236, R238): the engine has streamed the weight rows before `upTo`, and ends where that was its last row
or a stop has come. -/
def execBreezeEnd (cut : RowCut) (s : State) : Result :=
  performMem (stackOk cut.stack) s (fun _ d => (d.breezeTo cut.stack cut.upTo).breezeEnd cut.stack)

end Sys2Proof.Machine
end

