-- ==== Sys2Proof/Machine/Zstd.lean ====
section
/-! DEFINITION. Zstandard frames as the ingest engines decode them (15 R407): frame and block headers after RFC 8878 (PRESUMED, log 24), the limits of the rule, dictionaries. -/
namespace Sys2Proof.Machine

/-- The highest Window_Size: 8 MiB (15 R407). -/
def zWindowMax : Nat := 8388608
/-- The highest size of a block. -/
def zBlockMax : Nat := 131072

/-- A frame's header: its length, its Window_Size, its Dictionary_ID (0: none named), its content size where given, and whether
a checksum follows its blocks. -/
structure ZHeader where
  len    : Nat
  window : Nat
  dict   : Nat
  size   : Option Nat
  sum    : Bool
deriving DecidableEq, Repr

/-- Field sizes that two bits of the descriptor select. -/
def zDictBytes (f : Nat) : Nat := if f = 3 then 4 else f
def zSizeBytes (f : Nat) (single : Bool) : Nat :=
  match f with
  | 0 => if single then 1 else 0
  | 1 => 2
  | 2 => 4
  | _ => 8

/-- The Window_Size that a window descriptor gives. -/
def zWindow (b : Nat) : Nat := let base := 2 ^ (10 + b / 8); base + base / 8 * (b % 8)

/-- The header of a frame that stands after its magic number; none where it is cut short or sets the reserved bit. -/
def zHeader (b : List Byte) : Option ZHeader :=
  let d := leAt b 0 1
  let single := bitsN d 5 5 == 1
  let w := if single then 0 else 1
  let k := zDictBytes (bitsN d 1 0)
  let z := zSizeBytes (bitsN d 7 6) single
  let len := 1 + w + k + z
  let size := leAt b (1 + w + k) z + (if z = 2 then 256 else 0)
  if b.length < len || bitsN d 3 3 == 1 then none
  else some { len := len, window := if single then size else zWindow (leAt b 1 1), dict := leAt b (1 + w) k
              size := if z = 0 then none else some size, sum := bitsN d 2 2 == 1 }

/-- How decoding ends. -/
inductive ZEnd where
  | ok | format | space
deriving DecidableEq, Repr

/-- The blocks of a frame, at most n: `hist` holds the frame's bytes before the block, on which it may depend. Answers how
they end, the output, and what follows the last block. -/
def zBlocks (cap limit : Nat) (dict : List Byte) : Nat → List Byte → List Byte → List Byte → ZEnd × List Byte × List Byte
  | 0, _, _, out => (.format, out, [])
  | n + 1, hist, b, out =>
    let h := leAt b 0 3
    let size := h / 8
    let stored := if h / 2 % 4 = 1 then 1 else size
    let body := sliceB b 3 stored
    let got : Option (List Byte) := match h / 2 % 4 with
      | 0 => some body
      | 1 => some (List.replicate size (listGet 0 body 0))
      | 2 => Config.zstdBlock dict hist body
      | _ => none
    if b.length < 3 + stored || limit < size then (.format, out, [])
    else match got with
      | none => (.format, out, [])
      | some o =>
        if limit < o.length then (.format, out, [])
        else if cap < out.length + o.length then (.space, (out ++ o).take cap, [])
        else if h % 2 = 1 then (.ok, out ++ o, b.drop (3 + stored))
        else zBlocks cap limit dict n (hist ++ b.take (3 + stored)) (b.drop (3 + stored)) (out ++ o)

/-- The Dictionary_ID of a dictionary in the format of RFC 8878. -/
def zDictId (c : List Byte) : Option Nat := if leAt c 0 4 = 0xEC30A437 then some (leAt c 4 4) else none

/-- The dictionary that a frame names: none where it is not loaded. -/
def zDict (dicts : MapOf (List Byte)) (id : Nat) : Option (List Byte) :=
  if id = 0 then some [] else (dicts.find? (fun e => zDictId e.2 == some id)).map Prod.snd

/-- What follows the blocks of a frame: the content size and the checksum agree with the frame's output. -/
def zTail (h : ZHeader) (o rest : List Byte) : Bool :=
  (match h.size with
  | some n => o.length == n
  | none => true) &&
  (!h.sum || (decide (4 ≤ rest.length) && leAt rest 0 4 == (Config.xxh64 o).toNat % 2 ^ 32))

/-- Frames one after another into one output, skippable ones skipped, at most n (15 R407). -/
def zFrames (cap : Nat) (dicts : MapOf (List Byte)) : Nat → List Byte → List Byte → ZEnd × List Byte
  | 0, _, out => (.format, out)
  | n + 1, b, out =>
    if b.isEmpty then (.ok, out)
    else if b.length < 5 then (.format, out)
    else if leAt b 0 4 / 16 = 0x184D2A5 then
      (if b.length < 8 ∨ b.length < 8 + leAt b 4 4 then (.format, out) else zFrames cap dicts n (b.drop (8 + leAt b 4 4)) out)
    else if leAt b 0 4 ≠ 0xFD2FB528 then (.format, out)
    else match zHeader (b.drop 4) with
      | none => (.format, out)
      | some h =>
        if zWindowMax < h.window then (.format, out) else
        match zDict dicts h.dict with
        | none => (.format, out)
        | some dict =>
          let r := zBlocks cap (min h.window zBlockMax) dict b.length (b.take (4 + h.len)) (b.drop (4 + h.len)) out
          match r.1 with
          | .ok =>
            if zTail h (r.2.1.drop out.length) r.2.2 then zFrames cap dicts n (r.2.2.drop (if h.sum then 4 else 0)) r.2.1
            else (.format, r.2.1)
          | .format => (.format, r.2.1)
          | .space => (.space, r.2.1)

/-- The Zstandard frames of an input decoded into at most `cap` bytes. -/
def zDecode (cap : Nat) (dicts : MapOf (List Byte)) (b : List Byte) : ZEnd × List Byte := zFrames cap dicts (b.length + 1) b []

end Sys2Proof.Machine
end

