-- ==== Sys2Proof/Machine/Ingest.lean ====
section
/-! DEFINITION. The ingest engines (15 R406-R409): rings, descriptors, statuses. The ciphers and the block coding of the standards it names are free values (log 24). -/
namespace Sys2Proof.Machine

/-- One engine. -/
def Dev.ingest (d : Dev) (n : Nat) : IngEngine := mapGet {} d.ing n
def Dev.modIngest (n : Nat) (f : IngEngine → IngEngine) (d : Dev) : Dev := { d with ing := mapMod {} d.ing n f }

/-! ## Rings (15 R406, Table 8) -/

/-- The registers of a ring. -/
def offRing (n r : Nat) : Nat := offIng n + 0x100 + 0x20 * r
def Dev.ringCfg (d : Dev) (n r : Nat) : W32 := d.word (offRing n r + 8)
def Dev.ringOn (d : Dev) (n r : Nat) : Bool := fbit (d.ringCfg n r) 31
def Dev.ringOwner (d : Dev) (n r : Nat) : Nat := fld (d.ringCfg n r) 11 4
def Dev.ringLog (d : Dev) (n r : Nat) : Nat := clampN 4 12 (fld (d.ringCfg n r) 3 0)
def Dev.ringHead (d : Dev) (n r : Nat) : W32 := mapGet 0 (d.ingest n).heads r
/-- A ring is processed while enabled and not empty. -/
def Dev.ringReady (d : Dev) (n r : Nat) : Bool := d.ringOn n r && d.word (offRing n r + 0xC) != d.ringHead n r
/-- The ring that round robin serves next (15 R406). -/
def Dev.ringNext (d : Dev) (n : Nat) : Option Nat :=
  let l := (d.ingest n).last
  [(l + 1) % 4, (l + 2) % 4, (l + 3) % 4, l % 4].find? (d.ringReady n)
/-- The address of a ring's next descriptor. -/
def Dev.ringSlot (d : Dev) (n r : Nat) : Nat :=
  (d.word64 (offRing n r)).toNat / 64 * 64 + 64 * ((d.ringHead n r).toNat % 2 ^ d.ringLog n r)
/-- The agent that an engine is for a ring's owner. -/
def Dev.ingWho (d : Dev) (n owner : Nat) : Who := { kind := .ingest, node := d.node, endpoint := 192 + n, owner := owner }

/-! ## Descriptors (15 Table 4) -/

def inDec (b : List Byte) : Bool := leAt b 0 4 % 2 == 1
def inZstd (b : List Byte) : Bool := leAt b 0 4 / 2 % 2 == 1
def inSig (b : List Byte) : Bool := leAt b 0 4 / 4 % 2 == 1
def inIv (b : List Byte) : List Byte := sliceB b 8 12
def inKey (b : List Byte) : Nat := leAt b 4 4
def inAad (b : List Byte) : Nat := leAt b 20 4
def inSrc (b : List Byte) : Nat := leAt b 24 8
def inSlen (b : List Byte) : Nat := leAt b 32 4
def inDcap (b : List Byte) : Nat := leAt b 36 4
def inDst (b : List Byte) : Nat := leAt b 40 8
def inSiga (b : List Byte) : Nat := leAt b 48 8
def inStat (b : List Byte) : Nat := leAt b 56 8

/-- Statuses (15 Table 5). -/
def igOk : Nat := 0
def igAuth : Nat := 1
def igFormat : Nat := 2
def igSpace : Nat := 3
def igAccess : Nat := 4
def igMemError : Nat := 5
def igMalformed : Nat := 6

/-- A reserved field, or a field out of its range (15 Table 4). -/
def inBad (b : List Byte) : Bool :=
  decide (8 ≤ leAt b 0 4) || decide (64 ≤ inKey b) || decide (4096 < inAad b) || decide (inSlen b = 0) || decide (2 ^ 30 < inSlen b) ||
  decide (inDcap b = 0) || decide (inSrc b < inAad b)

/-- The status an access leaves an engine with. -/
def igOf (st : Nat) : Nat := if st = stOk then igOk else if st = stMemError then igMemError else igAccess

/-- Decryption, and whether the tag agrees; a descriptor without DEC has neither (15 R408, Table 5). `x` is the additional
data, the input and, with DEC, the tag, in that order. -/
def ingOpen (key b x : List Byte) : Bool × List Byte :=
  let c := sliceB x (inAad b) (inSlen b)
  if !inDec b then (true, c) else
  (decide (Config.gcmTag key (inIv b) (x.take (inAad b)) c = sliceB x (inAad b + inSlen b) 16),
   c.mapIdx (fun i v => v ^^^ Config.gcmStream key (inIv b) i))

/-- Decompression into DCAP bytes; without ZSTD the bytes as they are (15 R406, R407). -/
def ingUnpack (dicts : MapOf (List Byte)) (b p : List Byte) : Nat × List Byte :=
  if inZstd b then
    match zDecode (inDcap b) dicts p with
    | (.ok, o) => (igOk, o)
    | (.format, o) => (igFormat, o)
    | (.space, o) => (igSpace, o)
  else if p.length ≤ inDcap b then (igOk, p) else (igSpace, p.take (inDcap b))

/-- The status and the output of a descriptor whose input `x` has been read; a tag that does not agree stands before every
other status (log 24). -/
def ingFind (dicts : MapOf (List Byte)) (key b x : List Byte) : Nat × List Byte :=
  let p := ingOpen key b x
  let u := ingUnpack dicts b p.2
  (if p.1 then u.1 else igAuth, u.2)

/-- A descriptor runs (15 R406-R408): what it leaves for its end. -/
def Dev.ingRun (n r : Nat) (d : Dev) : IngWork × Dev :=
  let owner := d.ringOwner n r
  let who := d.ingWho n owner
  let a := d.memAccess who (d.ringSlot n r) (.read 64)
  let work (b : List Byte) (st : Nat) (out : List Byte) : IngWork := { ring := r, owner := owner, desc := b, status := st, output := out }
  if a.1 ≠ stOk then (work [] (igOf a.1) [], a.2.2) else
  let b := a.2.1
  if inBad b then (work b igMalformed [], a.2.2)
  else if inDec b && (mapFind d.sec.ingestKeys (inKey b)).map Prod.fst != some owner then (work b igAccess [], a.2.2)
  else
    let i := a.2.2.memAccess who (inSrc b - inAad b) (.read (inAad b + inSlen b + (if inDec b then 16 else 0)))
    if i.1 ≠ stOk then (work b (igOf i.1) [], i.2.2) else
    let f := ingFind d.gc.dicts ((mapFind d.sec.ingestKeys (inKey b)).map Prod.snd |>.getD []) b i.2.1
    if f.2 = [] then (work b f.1 [], i.2.2) else
    let o := i.2.2.memAccess who (inDst b) (.write f.2)
    (work b (if o.1 = stOk then f.1 else igOf o.1) f.2, o.2.2)

/-- Firmware has loaded dictionary slots (15 R407): no row of the table loads one, so the descriptor that follows carries them
(log 24). -/
def Dev.loadDicts (loads : List (Nat × List Byte)) (d : Dev) : Dev :=
  { d with gc := { d.gc with dicts := loads.foldl (fun m e => mapPut m e.1 e.2) d.gc.dicts } }

/-- The engine takes the next descriptor of the ring that round robin serves (15 R406, R409). -/
def Dev.ingStart (n r : Nat) (loads : List (Nat × List Byte)) (d : Dev) : Dev :=
  if (d.ingest n).work.isSome || d.ringNext n != some r then d else
  let w := (d.loadDicts loads).ingRun n r
  w.2.modIngest n (fun e => { e with work := some w.1, last := r })

/-- INGEST_DESCRIPTOR (15 R406-R408). -/
def execIngestDescriptor (n r : Nat) (loads : List (Nat × List Byte)) (s : State) : Result :=
  performMem (decide (n < 4) && decide (r < 4) &&
      loads.all (fun e => decide (e.1 < 16) && decide (e.2.length ≤ 65536))) s (fun _ => Dev.ingStart n r loads)

/-- The event bit of a status (15 Table 8). -/
def igEvent (st : Nat) : Nat := if st = igOk then 0 else if st = igAccess then 2 else if st = igMemError then 3 else 1

/-- A descriptor ends (15 R408): a failed one's output is overwritten with zeros, then STAT is written and SIGA
signalled. -/
def Dev.ingFinish (n : Nat) (d : Dev) : Dev :=
  match (d.ingest n).work with
  | none => d
  | some w =>
    let who := d.ingWho n w.owner
    let b := w.desc
    let d1 := if w.status ≠ igOk ∧ w.output ≠ [] then (d.memAccess who (inDst b) (.write (List.replicate w.output.length 0))).2.2 else d
    let len := if w.status = igOk then w.output.length else 0
    let d2 := if b = [] then d1 else (d1.memAccess who (inStat b) (.write (leBytes 8 w.status ++ leBytes 8 len))).2.2
    let d3 := if inSig b then (d2.memAccess who (inSiga b) (.atomic .sig 1 0)).2.2 else d2
    (d3.modIngest n (fun e => { e with work := none, done := e.done + 1, heads := mapPut e.heads w.ring (mapGet 0 e.heads w.ring + 1) })).setFlag (evIng n) (igEvent w.status)

/-- INGEST_END (15 R408). -/
def execIngestEnd (n : Nat) (s : State) : Result := performMem (decide (n < 4)) s (fun _ => Dev.ingFinish n)

/-- ING_RING_TAIL (15 Table 8): the count of descriptors written. -/
def execIngRingTail (req : Req) (n r : Nat) (val : W32) (s : State) : Result :=
  performMem (reqFull req && decide (n < 4) && decide (r < 4)) s (fun _ d => storeReg req (offRing n r + 0xC) val (d.dropShadow req))

/-- ING_RING_DISABLE (15 R409): a write of a ring's CFG; a ring whose EN is clear stops at its next descriptor boundary. -/
def execIngRingDisable (req : Req) (n r : Nat) (val : W32) (s : State) : Result :=
  performMem (reqFull req && decide (n < 4) && decide (r < 4)) s (fun _ d => storeReg req (offRing n r + 8) val (d.dropShadow req))

end Sys2Proof.Machine
end

