-- ==== Sys2Proof/Machine/Power.lean ====
section
/-! DEFINITION. The commands of power and clocks (18). A command that reports the end of an interval or a voltage read back is that event (log 22). -/
namespace Sys2Proof.Machine

/-- CEILING_EVALUATE (18 R458-R460). -/
def execCeilingEvaluate (q : Nat) (s : State) : Result := perform (quadOk q) s (fun _ => Dev.ceilEvaluate q)

/-- A rise ends with the clocks at its target, which warns the regulator (18 R460, R463). -/
def Dev.ceilRise (q : Nat) (d : Dev) : Dev :=
  match (d.quad q).rise with
  | some r => (d.modQuad q (fun s => { s with ceil := r.1, rise := none })).gust q
  | none => d

/-- CEILING_RISE (18 R460): the voltage of a rise in progress has arrived. -/
def execCeilingRise (q : Nat) (s : State) : Result := perform (quadOk q) s (fun _ => Dev.ceilRise q)

/-- RISE_TIMEOUT (18 R460): the rise is abandoned and the ceiling stays. -/
def execRiseTimeout (q : Nat) (s : State) : Result :=
  perform (quadOk q) s (fun _ d => d.modQuad q (fun s => { s with rise := none }))

/-- The voltage follows a fall, unless the rail has failed (18 R456, R460). -/
def Dev.voltLower (q : Nat) (d : Dev) : Dev :=
  if (d.quad q).fell.isSome && !(d.rail q).fault && d.boot.firmware then
    (d.modQuad q (fun s => { s with fell := none })).avsWrite q (d.quad q).ceil
  else d

/-- VOLTAGE_LOWER (18 R460). -/
def execVoltageLower (q : Nat) (s : State) : Result := perform (quadOk q) s (fun _ => Dev.voltLower q)

/-- AVS_POLL (18 R456). -/
def execAvsPoll (rail : Nat) (reply : Option AvsReply) (s : State) : Result :=
  perform (decide (rail < 6)) s (fun _ => Dev.avsPoll rail reply)

/-- GUST_TRIGGER (18 R463): the warnings due on a quadrant are given; a wake and a rise warn as they happen. -/
def execGustTrigger (q : Nat) (s : State) : Result := perform (quadOk q) s (fun _ => Dev.gustDue q)

/-- The pin releases once its width has run (18 R463). -/
def Dev.gustEnd (q : Nat) (d : Dev) : Dev :=
  match (d.quad q).gust with
  | some t => if 0 ≤ ftDiff d.ft.now t then d.modQuad q (fun s => { s with gust := none }) else d
  | none => d

/-- GUST_RELEASE (18 R463). -/
def execGustRelease (q : Nat) (s : State) : Result := perform (quadOk q) s (fun _ => Dev.gustEnd q)

/-- A tile's clock is stretched by some cycles (18 R466). -/
def Dev.droop (p cycles : Nat) (d : Dev) : Dev :=
  if d.pwrOn 2 && decide (0 < cycles) then
    (d.modPwr (fun w => { w with droops := mapMod 0 w.droops p (· + BitVec.ofNat 16 cycles) })).setFlag evPwr 4
  else d

/-- DROOP (18 R466). -/
def execDroop (phys cycles : Nat) (s : State) : Result := perform (decide (phys < Config.physTiles)) s (fun _ => Dev.droop phys cycles)

/-- CURRENT_ESTIMATE (18 R467). -/
def execCurrentEstimate (q amps : Nat) (s : State) : Result :=
  perform (quadOk q) s (fun _ => Dev.currentEstimate q amps)

/-- THERMAL_RESPONSE (18 R468). -/
def execThermalResponse (q temp : Nat) (s : State) : Result :=
  perform (quadOk q) s (fun _ => Dev.thermalResponse q temp)

/-- THERMTRIP (18 R469): THERMTRIP_N is asserted and every clock stops. -/
def execThermtrip (s : State) : Result := perform true s (fun _ d => d.modPwr (fun p => { p with thermTrip := true }))

/-- A bit of CLK_STATUS (18 Table 8). -/
def Dev.setLock (i : Nat) (b : Bool) (d : Dev) : Dev :=
  d.modPwr (fun p => { p with locks := if b then p.locks ||| BitVec.ofNat 20 (2 ^ i) else p.locks &&& ~~~BitVec.ofNat 20 (2 ^ i) })

/-- PLL_UNLOCK (18 R471): the quadrant's tiles run at 1,000 MHz. -/
def execPllUnlock (q : Nat) (s : State) : Result :=
  perform (quadOk q) s (fun _ d => ((d.modQuad q (fun u => { u with unlocked := true })).setLock q false).setFlag evClk 0)

/-- PLL_RELOCK (18 R471): the quadrant's tiles return to their PLL. -/
def execPllRelock (q : Nat) (s : State) : Result :=
  perform (quadOk q) s (fun _ d => (d.modQuad q (fun u => { u with unlocked := false })).setLock q true)

/-- The system reference is lost (18 R471, 02 R36): FAULT_N follows, and fabric time leaves LOCKED. -/
def Dev.loseRef (d : Dev) : Dev :=
  let d1 := ((d.modPwr (fun p => { p with refLost := true })).setLock 19 false).setFlag evClk 1
  if d1.ft.mode = .locked then d1.enterFt .acquire else d1

/-- REF_LOST (18 R471). -/
def execRefLost (s : State) : Result := perform true s (fun _ => Dev.loseRef)

/-- A SerDes reference is lost (18 R471): the quadrant's ports that carry a link retrain. -/
def Dev.loseSerdes (q : Nat) (d : Dev) : Dev :=
  let d1 := (d.modPwr (fun p => { p with sdLost := if p.sdLost.contains q then p.sdLost else q :: p.sdLost })).setLock (14 + q) false
  runAll ((List.range 8).map (8 * q + ·)) (fun p d =>
    if (d.port p).mode = .active ∨ (d.port p).mode = .drained ∨ (d.port p).mode = .exchange then d.startRetrain p false else d)
    (d1.setFlag evClk 2)

/-- SDREF_LOST (18 R471). -/
def execSdrefLost (q : Nat) (s : State) : Result := perform (quadOk q) s (fun _ => Dev.loseSerdes q)

end Sys2Proof.Machine
end

