-- ==== Sys2Proof/Machine/RasCmd.lean ====
section
/-! DEFINITION. The commands of availability (19): the fault log, tile retirement, bridges. -/
namespace Sys2Proof.Machine

/-! ## The fault log (19 R479, R480) -/

/-- Entries of the log (19 Table 6). -/
def Dev.logSize (d : Dev) : Nat := 2 ^ clampN 6 14 (fld (d.word (offRas + 0x18)) 3 0)

/-- Bytes 4 to 63 of an entry (19 Table 2). -/
def LogItem.bytes (e : LogItem) : List Byte :=
  [BitVec.ofNat 8 e.block, BitVec.ofNat 8 e.kind] ++ leBytes 2 e.unit ++ leBytes 8 e.time.toNat ++ leBytes 8 e.addr.toNat ++
    leBytes 8 e.info.toNat ++ sliceB e.record 0 32

/-- Whether writing the next entry overwrites one that software has not consumed (19 R480). -/
def Dev.logFull (d : Dev) : Bool := decide (d.logSize ≤ (d.ras.count - d.word (offRas + 0x20)).toNat)

/-- The oldest noted entry is written, bytes 0 to 3 last; a refused write drops it (19 R479, R480). -/
def Dev.logCommit (d : Dev) : Dev :=
  match d.ras.log with
  | [] => d
  | e :: rest =>
    let d1 := d.modRas (fun r => { r with log := rest })
    if !fbit (d.word offRas) 0 then d1 else
    let n := d.ras.count + 1
    let at64 := (d.word64 (offRas + 0x10)).toNat % 2 ^ 44 / 4096 * 4096 + 64 * (d.ras.count.toNat % d.logSize)
    let who : Who := { kind := .engine, node := d.node, endpoint := 255, owner := 0xFF }
    let a := d1.memAccess who (at64 + 4) (.write e.bytes)
    let b := a.2.2.memAccess who at64 (.write (leBytes 4 n.toNat))
    if a.1 ≠ stOk then a.2.2.setFlag evRas 1
    else if b.1 ≠ stOk then b.2.2.setFlag evRas 1
    else (b.2.2.modRas (fun r => { r with count := n })).setEvent evRas (if d.logFull then 3 else 1)

/-- FAULT_LOG_COMMIT (19 R479, R480). -/
def execFaultLogCommit (s : State) : Result := perform true s (fun _ => Dev.logCommit)

/-! ## Tile retirement (19 R482-R485) -/

/-- TILE_RETIRE (19 R482, R483). -/
def execTileRetire (req : Req) (val : W32) (s : State) : Result :=
  perform (reqFull req) s (fun _ d => (d.dropShadow req).tileRetire val)

/-- TILE_QUIESCED (19 R482 steps 3, 4). -/
def execTileQuiesced (s : State) : Result := perform true s (fun _ => Dev.retireCopy)

/-- TILE_COPY_COMPLETE (19 R482 step 5, R484). -/
def execTileCopyComplete (s : State) : Result := perform true s (fun _ => Dev.retireSwitch)

/-- OLD_TILE_CLEARED (19 R482 step 6). -/
def execOldTileCleared (s : State) : Result := perform true s (fun _ => Dev.retireEnd)

/-! ## Bridges (19 R487, 01 R15) -/

/-- One bridge. -/
def Dev.bridge (d : Dev) (b : Nat) : BridgeState := mapGet {} d.ras.bridges b
/-- Change one bridge. -/
def Dev.modBridge (b : Nat) (f : BridgeState → BridgeState) (d : Dev) : Dev :=
  d.modRas (fun r => { r with bridges := mapMod {} r.bridges b f })

/-- A bridge is lost (01 R15): its traffic goes round the other way, with one address map. -/
def Dev.bridgeLose (b : Nat) (d : Dev) : Dev :=
  ((d.modBridge b (fun x => { x with lost := true })).setFlag evRas 7).note 18 12 b 0 (BitVec.ofNat 64 (d.bridge b).spares) []

/-- A lane of a bridge fails (19 R487): a spare takes it while one is left. -/
def Dev.bridgeSwap (b : Nat) (d : Dev) : Dev :=
  if (d.bridge b).lost then d
  else if (d.bridge b).spares < 2 then
    ((d.modBridge b (fun x => { x with spares := x.spares + 1 })).setFlag evRas 6).note 18 11 b 0 (BitVec.ofNat 64 ((d.bridge b).spares + 1)) []
  else d.bridgeLose b

/-- BRIDGE_LANE_SWAP (19 R487). -/
def execBridgeLaneSwap (b : Nat) (s : State) : Result := perform (decide (b < 4)) s (fun _ => Dev.bridgeSwap b)

/-- BRIDGE_LOST (01 R15): a bridge with its spares used fails. -/
def execBridgeLost (b : Nat) (s : State) : Result :=
  perform (decide (b < 4)) s (fun _ d => if (d.bridge b).lost || decide ((d.bridge b).spares < 2) then d else d.bridgeLose b)

end Sys2Proof.Machine
end

