-- ==== Sys2Proof/Machine/Scalar.lean ====
section
/-! DEFINITION. The Alanko instructions of the scalar unit but the global ones (05 R122-R137, R142, R144), and the release of its waits. -/
namespace Sys2Proof.Machine

/-- No operand value is illegal. -/
def anyOk : HalfState → Bool := fun _ => false
/-- No precise fault. -/
def noFault : Dev → HalfState → Option (Nat × W64) := fun _ _ => none

/-- NOP (05 R114). -/
def execNop (t h : Nat) (w : W64) (s : State) : Result :=
  perform (isOp t h w 0x00) s (fun _ d => d.issueScalar t h w [] anyOk noFault (Dev.regEffect t h w id))

/-- The functions of `alu` (05 Table 4); `sel` is the predicate of D. -/
def aluValue (fn : Nat) (b c : W64) (sel : Bool) : W64 :=
  match fn with
  | 0 => b + c
  | 1 => b - c
  | 2 => b * c
  | 3 => BitVec.ofNat 64 (b.toNat * c.toNat / 2 ^ 64)
  | 4 => BitVec.ofInt 64 (b.toInt * c.toInt / 2 ^ 64)
  | 5 => b &&& c
  | 6 => b ||| c
  | 7 => b ^^^ c
  | 8 => b <<< (c.toNat % 64)
  | 9 => b >>> (c.toNat % 64)
  | 10 => b.sshiftRight (c.toNat % 64)
  | 11 => if b.toNat ≤ c.toNat then b else c
  | 12 => if b.toInt ≤ c.toInt then b else c
  | 13 => if c.toNat ≤ b.toNat then b else c
  | 14 => if c.toInt ≤ b.toInt then b else c
  | _ => if sel then b else c

/-- ALU (05 R122). -/
def execAlu (t h : Nat) (w : W64) (s : State) : Result :=
  perform (isOp t h w 0x01) s (fun _ d => d.issueScalar t h w [fA w, fB w, fC w] anyOk noFault
    (Dev.regEffect t h w (fun s => s.setReg (fA w) (aluValue (bw w 4 0) (s.reg (fB w)) (s.reg (fC w)) (s.pred (fD w % 8))))))

/-- An immediate operation on s[B] into s[A] (05 R123). -/
def Dev.immOp (t h : Nat) (w : W64) (f : W64 → W64 → W64) (d : Dev) : Dev :=
  d.issueScalar t h w [fA w, fB w] anyOk noFault (Dev.regEffect t h w (fun s => s.setReg (fA w) (f (s.reg (fB w)) (imm31 w))))

/-- ADDI (05 R123). -/
def execAddi (t h : Nat) (w : W64) (s : State) : Result :=
  perform (isOp t h w 0x02) s (fun _ d => d.immOp t h w (fun b i => b + i))
/-- ANDI (05 R123). -/
def execAndi (t h : Nat) (w : W64) (s : State) : Result :=
  perform (isOp t h w 0x03) s (fun _ d => d.immOp t h w (fun b i => b &&& i))
/-- ORI (05 R123). -/
def execOri (t h : Nat) (w : W64) (s : State) : Result :=
  perform (isOp t h w 0x04) s (fun _ d => d.immOp t h w (fun b i => b ||| i))
/-- XORI (05 R123). -/
def execXori (t h : Nat) (w : W64) (s : State) : Result :=
  perform (isOp t h w 0x05) s (fun _ d => d.immOp t h w (fun b i => b ^^^ i))

/-- The shifts of `shi` (05 R123). -/
def shiValue (fn sh : Nat) (a : W64) : W64 :=
  match fn with
  | 0 => a <<< sh
  | 1 => a >>> sh
  | _ => a.sshiftRight sh

/-- SHI (05 R123). -/
def execShi (t h : Nat) (w : W64) (s : State) : Result :=
  perform (isOp t h w 0x06) s (fun _ d => d.issueScalar t h w [fA w] anyOk noFault
    (Dev.regEffect t h w (fun s => s.setReg (fA w) (shiValue (fFN4 w) (imm32 w % 64) (s.reg (fA w))))))

/-- LI_LO (05 R123). -/
def execLiLo (t h : Nat) (w : W64) (s : State) : Result :=
  perform (isOp t h w 0x07 && wordBits w 35 32 != 1) s (fun _ d => d.issueScalar t h w [fA w] anyOk noFault
    (Dev.regEffect t h w (fun s => s.setReg (fA w) (BitVec.ofInt 64 (signedN 32 (imm32 w))))))

/-- LI_HI (05 R123). -/
def execLiHi (t h : Nat) (w : W64) (s : State) : Result :=
  perform (isOp t h w 0x07 && wordBits w 35 32 == 1) s (fun _ d => d.issueScalar t h w [fA w] anyOk noFault
    (Dev.regEffect t h w (fun s => s.setReg (fA w) (of32 (lo32 (s.reg (fA w))) (BitVec.ofNat 32 (imm32 w))))))

/-- The address of `ld` and `st` (05 R124). -/
def HalfState.ldAddr (s : HalfState) (w : W64) : W64 := s.reg (fB w) + imm31 w

/-- The address faults of `ld` and `st` (05 R124). -/
def Dev.ldFault (t h : Nat) (w : W64) (d : Dev) (s : HalfState) : Option (Nat × W64) :=
  let a := s.ldAddr w
  if a.toNat % 8 ≠ 0 then some (fltMemRange, a) else (d.rangeFault t h a.toNat 8).map (fun c => (c, a))

/-- LD (05 R124). -/
def execLd (t h : Nat) (w : W64) (s : State) : Result :=
  perform (isOp t h w 0x08) s (fun _ d => d.issueScalar t h w [fA w, fB w] anyOk
    (fun d s => match d.ldFault t h w s with
      | some f => some f
      | none => if ((d.tile t).badIn ((d.tile t).base h + (s.ldAddr w).toNat) 8).isSome then some (fltMemError, s.ldAddr w) else none)
    (fun d => (d.tileMend t ((d.tile t).base h + ((d.half t h).ldAddr w).toNat) 8).regEffect t h w (fun s =>
      s.setReg (fA w) (BitVec.ofNat 64 (leNat ((d.tile t).bytes ((d.tile t).base h + (s.ldAddr w).toNat) 8))))))

/-- ST (05 R124). -/
def execSt (t h : Nat) (w : W64) (s : State) : Result :=
  perform (isOp t h w 0x09) s (fun _ d => d.issueScalar t h w [fA w, fB w] anyOk (fun d s => d.ldFault t h w s)
    (fun d =>
      let s := d.half t h
      ((d.tileWrite t ((d.tile t).base h + (s.ldAddr w).toNat) (leBytes 8 (s.reg (fA w)).toNat)).2).regEffect t h w id))

/-- CMP (05 R126). -/
def execCmp (t h : Nat) (w : W64) (s : State) : Result :=
  perform (isOp t h w 0x0A) s (fun _ d => d.issueScalar t h w [fB w, fC w] anyOk noFault
    (Dev.regEffect t h w (fun s => s.setPred (fA w) (condHolds (bw w 3 0) (s.reg (fB w)) (s.reg (fC w))))))

/-- CMPI (05 R126). -/
def execCmpi (t h : Nat) (w : W64) (s : State) : Result :=
  perform (isOp t h w 0x0B) s (fun _ d => d.issueScalar t h w [fB w] anyOk noFault
    (Dev.regEffect t h w (fun s => s.setPred (fA w) (condHolds (fCC w) (s.reg (fB w)) (imm27 w)))))

/-- The functions of `pop` (05 R127). -/
def popValue (fn : Nat) (b c : Bool) : Bool :=
  match fn with
  | 0 => b && c
  | 1 => b || c
  | 2 => b != c
  | 3 => b && !c
  | _ => b

/-- POP (05 R127). -/
def execPop (t h : Nat) (w : W64) (s : State) : Result :=
  perform (isOp t h w 0x0C) s (fun _ d => d.issueScalar t h w [] anyOk noFault
    (Dev.regEffect t h w (fun s => s.setPred (fA w) (popValue (fFN w) (s.pred (fB w)) (s.pred (fC w))))))

/-- A branch taken: issue goes on at the target. -/
def Dev.branch (t h : Nat) (w : W64) (target : Nat) (d : Dev) : Dev :=
  d.modHalf t h (fun s => { s.done w with pc := target })

/-- BR (05 R128). -/
def execBr (t h : Nat) (w : W64) (s : State) : Result :=
  perform (isOp t h w 0x0D) s (fun _ d => d.issueScalar t h w [] anyOk noFault (Dev.branch t h w (fTarget w)))

/-- BDEC (05 R128). -/
def execBdec (t h : Nat) (w : W64) (s : State) : Result :=
  perform (isOp t h w 0x0E) s (fun _ d => d.issueScalar t h w [fA w] anyOk noFault (fun d =>
    let v := (d.half t h).reg (fA w) - 1
    let d1 := d.modHalf t h (HalfState.setReg (fA w) v)
    if v = 0 then d1.regEffect t h w id else d1.branch t h w (fTarget w)))

/-- BRR (05 R128): a target with bits above 13, or beyond the bank, is illegal. -/
def execBrr (t h : Nat) (w : W64) (s : State) : Result :=
  perform (isOp t h w 0x0F) s (fun _ d => d.issueScalar t h w [fB w]
    (fun s => decide ((d.tile t).pcMax < (s.reg (fB w)).toNat)) noFault
    (fun d => d.branch t h w ((d.half t h).reg (fB w)).toNat))

/-- FT_STATE.STATE (02 Table 7). -/
def FtMode.num : FtMode → Nat
  | .free => 0 | .acquire => 1 | .locked => 2 | .holdover => 3 | .master => 4

/-- The values of `rdsr` (05 Table 5); the cycle count of identifier 7 is a free value (log 4). -/
def Dev.srValue (t h id : Nat) (d : Dev) : W64 × Dev :=
  let s := d.half t h
  match id with
  | 0 => (d.ft.now, d)
  | 1 => (d.sched, d)
  | 2 => (BitVec.ofNat 64 (t + 256 * h + 512 * b2n (d.tile t).twin), d)
  | 3 => (BitVec.ofNat 64 d.node, d)
  | 4 => (s.tag, d)
  | 5 => (s.rescale, d)
  | 6 => (s.sat.setWidth 64, d)
  | 7 => d.takeFree
  | 8 => (BitVec.ofNat 64 d.ft.mode.num, d)
  | _ => (s.doorbell, d)

/-- RDSR (05 R125). -/
def execRdsr (t h : Nat) (w : W64) (s : State) : Result :=
  perform (isOp t h w 0x10) s (fun _ d => d.issueScalar t h w [fA w] anyOk noFault (fun d =>
    let r := d.srValue t h (imm32 w)
    r.2.regEffect t h w (HalfState.setReg (fA w) r.1)))

/-- TOK_SIG (05 R132, R133): counts rise at issue, after its own wait is taken; a count that would pass 255, with the signals
on their way, is illegal. -/
def execTokSig (t h : Nat) (w : W64) (s : State) : Result :=
  perform (isOp t h w 0x11 && wordBits w 35 32 != 1) s (fun _ d => d.issueScalar t h w [] anyOk
    (fun _ s => if (maskTokens (BitVec.ofNat 32 (imm32 w))).any (s.takeWait w).tokFull then some (fltIllegal, 0) else none)
    (Dev.regEffect t h w (fun s =>
      (maskTokens (BitVec.ofNat 32 (imm32 w))).foldl (fun s k => { s with tokens := mapSet 0 s.tokens k (s.token k + 1) }) s)))

/-- A wait begins (05 R130): issue is held. -/
def HalfState.startWait (w : W64) (what : WaitFor) (s : HalfState) : HalfState :=
  { s.nextPc with
    wait := some { what := what, seq := s.nextSeq, pc := s.pc, bank := s.bank, word := w, sig := sigOf w }
    mode := .wait }

/-- TOK_WAIT (05 R133). -/
def execTokWait (t h : Nat) (w : W64) (s : State) : Result :=
  perform (isOp t h w 0x11 && wordBits w 35 32 == 1) s (fun _ d => d.issueScalar t h w [] anyOk noFault (fun d =>
    let m : W32 := BitVec.ofNat 32 (imm32 w)
    if (d.half t h).haveTokens m then d.regEffect t h w (HalfState.takeTokens m)
    else d.modHalf t h (HalfState.startWait w (.token m))))

/-- TOK_WAIT_RELEASE (05 R133): the tokens are lowered and issue goes on. -/
def execTokWaitRelease (t h : Nat) (s : State) : Result :=
  perform (halfOk t h) s (fun _ d =>
    match (d.half t h).wait with
    | some { what := .token m, .. } =>
      if (d.half t h).haveTokens m then d.modHalf t h (fun s => (s.takeTokens m).unwait) else d
    | _ => d)

/-- A load or an atomic, which returns a value (05 R142). -/
def GlobOp.returns (g : GlobOp) : Bool :=
  match g.kind with
  | .load _ => true
  | .store _ => false
  | .atom _ => !g.ofMove

/-- The condition of a fence (05 R142). -/
def Dev.fenceHolds (d : Dev) (t h : Nat) (rel acq empty : Bool) : Bool :=
  let s := d.half t h
  (!rel || d.writesAcked t h) && (!acq || s.globs.all (fun g => !g.returns)) &&
  (!empty || (s.aq.isEmpty && s.vq.isEmpty && s.mq.isEmpty && ((d.tile t).chanMoves h).isEmpty))

/-- A fence issues: it releases at once where its condition holds (05 R142). -/
def Dev.fence (t h : Nat) (w : W64) (rel acq empty : Bool) (d : Dev) : Dev :=
  d.issueScalar t h w [] anyOk noFault (fun d =>
    if d.fenceHolds t h rel acq empty then d.regEffect t h w id
    else d.modHalf t h (HalfState.startWait w (.fence rel acq empty)))

/-- FENCE_REL (05 R142). -/
def execFenceRel (t h : Nat) (w : W64) (s : State) : Result :=
  perform (isOp t h w 0x12 && wordBits w 35 32 != 1 && wordBits w 35 32 != 2) s (fun _ d => d.fence t h w true false false)
/-- FENCE_ACQ (05 R142). -/
def execFenceAcq (t h : Nat) (w : W64) (s : State) : Result :=
  perform (isOp t h w 0x12 && wordBits w 35 32 == 1) s (fun _ d => d.fence t h w false true false)
/-- FENCE_ALL (05 R142). -/
def execFenceAll (t h : Nat) (w : W64) (s : State) : Result :=
  perform (isOp t h w 0x12 && wordBits w 35 32 == 2) s (fun _ d => d.fence t h w true true true)

/-- FENCE_RELEASE (05 R142). -/
def execFenceRelease (t h : Nat) (s : State) : Result :=
  perform (halfOk t h) s (fun _ d =>
    match (d.half t h).wait with
    | some { what := .fence rel acq empty, .. } =>
      if d.fenceHolds t h rel acq empty then d.modHalf t h HalfState.unwait else d
    | _ => d)

/-- The clock a wait names. -/
def Dev.clock (d : Dev) (abs : Bool) : W64 := if abs then d.ft.now else d.sched
/-- Whether a wait on fabric time releases (05 R134). -/
def Dev.timeDue (d : Dev) (target : W64) (abs : Bool) : Bool :=
  decide (0 ≤ ftDiff (d.clock abs) target) && (abs || d.releasing)

/-- WAIT_FT (05 R134). -/
def execWaitFt (t h : Nat) (w : W64) (s : State) : Result :=
  perform (isOp t h w 0x13) s (fun _ d => d.issueScalar t h w [fB w] anyOk
    (fun d s => if ftDiff (s.reg (fB w)) (d.clock (bw w 0 0 == 1)) > 2 ^ 62 then some (fltSched, s.reg (fB w)) else none)
    (fun d =>
      let target := (d.half t h).reg (fB w)
      if d.timeDue target (bw w 0 0 == 1) then d.regEffect t h w id
      else
        let d1 := d.modHalf t h (HalfState.startWait w (.time target (bw w 0 0 == 1) (bw w 1 1 == 1)))
        if bw w 1 1 = 1 then d1.gustIssue t (2 * t + h) (d.half t h).nextSeq target (bw w 0 0 == 1) else d1))

/-- WAIT_FT_RELEASE (05 R134). -/
def execWaitFtRelease (t h : Nat) (s : State) : Result :=
  perform (halfOk t h) s (fun _ d =>
    match (d.half t h).wait with
    | some { what := .time target abs _, .. } => if d.timeDue target abs then d.modHalf t h HalfState.unwait else d
    | _ => d)

/-- The word that `wait.w` watches: the doorbell count or a watch word (05 R135, R136). -/
def Dev.watched (d : Dev) (t h : Nat) (db : Bool) (i : Nat) : W64 := if db then (d.half t h).doorbell else d.sync64 i

/-- The precise faults of `wait.w` (05 R135, R136). -/
def Dev.waitWFault (w : W64) (d : Dev) (s : HalfState) : Option (Nat × W64) :=
  let db := bw w 3 3 == 1
  let a := s.reg (fB w)
  if db && fB w != 0 then some (fltMemRange, a)
  else if !db && (a.toNat % 8 != 0 || decide (a.toNat < syncBase) || decide (syncBase + syncSize ≤ a.toNat)) then some (fltMemRange, a)
  else if fD w != 0 && decide (ftDiff (s.reg (fD w)) d.sched > 2 ^ 62) then some (fltSched, s.reg (fD w))
  else if !db && d.mem.badSync.contains ((a.toNat - syncBase) / 8) then some (fltMemError, a)
  else none

/-- WAIT_W (05 R135, R136): the condition is tested first, then the deadline. -/
def execWaitW (t h : Nat) (w : W64) (s : State) : Result :=
  perform (isOp t h w 0x14) s (fun _ d => d.issueScalar t h w [fB w, fC w, fD w] anyOk (fun d s => d.waitWFault w s)
    (fun d0 =>
      let s := d0.half t h
      let db := bw w 3 3 == 1
      let i := ((s.reg (fB w)).toNat - syncBase) / 8
      let d := if db then d0 else d0.syncMend i
      let v := s.reg (fC w)
      let dl := if fD w = 0 then none else some (s.reg (fD w))
      if condW (bw w 2 0) (d.watched t h db i) v then d.regEffect t h w (HalfState.setPred (fA w) true)
      else if dl.any (fun x => d.due x && d.releasing) then d.regEffect t h w (HalfState.setPred (fA w) false)
      else d.modHalf t h (HalfState.startWait w (.word db i (bw w 2 0) v dl (fA w)))))

/-- WAIT_W_DEADLINE (05 R135). -/
def execWaitWDeadline (t h : Nat) (s : State) : Result :=
  perform (halfOk t h) s (fun _ d =>
    match (d.half t h).wait with
    | some { what := .word _ _ _ _ (some dl) pd, .. } =>
      if d.due dl && d.releasing then d.modHalf t h (fun s => (s.setPred pd false).unwait) else d
    | _ => d)

/-- END (05 R144): fetch stops. -/
def execEndTask (t h : Nat) (w : W64) (s : State) : Result :=
  perform (isOp t h w 0x15) s (fun _ d => d.issueScalar t h w [] anyOk noFault
    (fun d => d.modHalf t h (fun s => { s.nextPc with ended := some (BitVec.ofNat 16 (imm32 w)) })))

/-- RESERVED_OPCODE (05 R114, R116): the fetch checks raise ILLEGAL before any effect. -/
def execReservedOpcode (t h : Nat) (w : W64) (s : State) : Result :=
  perform (halfOk t h && opcodeReserved (wordOpcode w)) s (fun _ d => d.issueScalar t h w [] anyOk noFault id)

end Sys2Proof.Machine
end

