-- ==== Sys2Proof/Machine/Churn.lean ====
section
/-! DEFINITION. The commands of the churn units (08 R225-R235). -/
namespace Sys2Proof.Machine

/-- CHURN_DESCRIPTOR_START (08 R225). -/
def execChurnDescriptorStart (stack : Nat) (s : State) : Result :=
  performMem (stackOk stack) s (fun _ d => d.churnTake stack)

/-- CHURN_NORM_READY (08 R227). -/
def execChurnNormReady (stack : Nat) (s : State) : Result :=
  performMem (stackOk stack) s (fun _ d => d.churnReady stack)

/-- CHURN_NO_NORM (08 R227). -/
def execChurnNoNorm (stack : Nat) (s : State) : Result :=
  performMem (stackOk stack) s (fun _ d => d.churnNoNorm stack)

/-- CHURN_BLOCK (08 R228-R234): the next block, and after the last one the pair of LAMB pass 1 (R231). -/
def execChurnBlock (stack : Nat) (s : State) : Result :=
  performMem (stackOk stack) s (fun _ d => (d.churnBlock stack).lambPair stack)

/-- The local record of the mirrored block becomes STATE 2 (08 R233 step 5). -/
def Dev.mirrorEnd (s : Nat) (d : Dev) : Dev :=
  let c := d.churn s
  match c.mirror with
  | none => d
  | some m =>
    if !(m.recordSent && m.acked) then d else
    let st := m.status ||| 0x80#8
    ((d.unitWrite c.who (stackAddr s (cdLrec c.desc + 32 * m.block + 8)) [2, st]).2).blockDone s st

/-- MIRROR_ACK (08 R233). -/
def execMirrorAck (stack : Nat) (s : State) : Result :=
  performMem (stackOk stack) s (fun _ d => (d.mirrorEnd stack).lambPair stack)

/-- The buddy refused or did not answer: the local block stands, not MIRRORED (08 R233). -/
def Dev.mirrorLost (s : Nat) (d : Dev) : Dev :=
  match (d.churn s).mirror with
  | none => d
  | some m => if m.failed && (m.out == 0 || m.recordSent) then (d.setFlag (evChn s) 6).blockDone s m.status else d

/-- MIRROR_FAIL (08 R233). -/
def execMirrorFail (stack : Nat) (s : State) : Result :=
  performMem (stackOk stack) s (fun _ d => (d.mirrorLost stack).lambPair stack)

/-- The trust contribution of pass 1 is acknowledged: its marker of weight 1 goes to the trust bucket, unless NOMARK
leaves it to the step controller (08 R231). -/
def Dev.lambAck (s : Nat) (d : Dev) : Dev :=
  let c := d.churn s
  if !c.pairSent || c.pairOut != 0 || c.pairFail || c.pairDone then d else
  let d1 := d.modChurn s (fun c => { c with pairDone := true })
  if cdNoMark c.desc then d1 else d1.unitSignal c.who (cdMrec c.desc) (d.markerWord 1)

/-- LAMB_PAIR_ACK (08 R231). -/
def execLambPairAck (stack : Nat) (s : State) : Result :=
  performMem (stackOk stack) s (fun _ d => d.lambAck stack)

/-- The completion status of an outcome (12 R333): STOPPED has its own, by what stopped the task. -/
def ChurnOutcome.status (stop : Nat) : ChurnOutcome → Nat
  | .ok => 0 | .partly => 0x201 | .skipped => 0x202 | .noNorm => 0x203 | .bucket => 0x204 | .malformed => 0x205
  | .stopped => stop

/-- Whether a descriptor has reached its end, and how (08 R235): stopped at a block boundary, or after its last block and
what follows it. -/
def ChurnState.outcome? (c : ChurnState) : Option ChurnOutcome :=
  match c.phase with
  | .idle => none
  | .ended => some c.outcome
  | .waiting => if c.stopAsk then some .stopped else none
  | .blocks =>
    if c.mirror.isSome then none
    else if cdNb c.desc ≤ c.block then
      if cdRecipe c.desc ≠ 6 ∨ c.pairDone = true ∨ (c.pairFail = true ∧ c.pairOut = 0) ∨ (c.stopAsk = true ∧ c.pairSent = false) then
        some (if c.flagged then .partly else .ok)
      else none
    else if c.stopAsk then some .stopped else none

/-- A RELEASE that waited for the descriptor goes on (08 R218). -/
def Dev.releaseNow (s b : Nat) (d : Dev) : Dev :=
  match d.bucket s b with
  | none => d
  | some k => if k.releasing then (d.bucketFree s b).vatEnd s 2 0 else d

/-- Dispatch a churn descriptor again (10 R288, 09 R264). -/
def Dev.churnDispatch (stack queue : Nat) (task : List Byte) (d : Dev) : Dev :=
  (d.modSq queue (fun s => { s with running := s.running + 1 })).modEngine (168 + stack) (fun e =>
    { e with draught := some { queue := queue, desc := task }, loaded := false, redo := false, swapped := false })

/-- Run a pass 1 again, with the addresses of its trust bucket's other entry (09 R264). -/
def Dev.rerunOne (r : Rerun) (d : Dev) : Dev :=
  let a := stackAddr r.pass.stack (tdDesc r.pass.task + 104)
  let d1 := (d.memAccess d.stepWho a (.write (leBytes 8 r.mir.toNat ++ leBytes 8 r.mrec.toNat))).2.2
  (d1.modStep (fun st => { st with reruns := st.reruns.erase r })).churnDispatch r.pass.stack r.pass.queue r.pass.task

/-- Run again what a free churn unit allows. -/
def Dev.rerunPump (d : Dev) : Dev :=
  runAll (List.range Config.stackCount) (fun s d =>
    match d.step.reruns.find? (fun r => r.pass.stack == s) with
    | some r => if (d.engine (168 + s)).draught.isSome then d else d.rerunOne r
    | none => d) d

/-- What the step controller notes of a descriptor that ends (10 R288, R291; 08 R231; 09 R264): a saturation, blocks written
or with ERROR, a pass 1 with a trust contribution left without a marker. -/
def Dev.stepNote (s : Nat) (d : Dev) : Dev :=
  let c := d.churn s
  d.modStep (fun st => { st with
    satSeen := st.satSeen || c.sat
    wrote := st.wrote || c.wrote
    passOnes := match (d.engine (168 + s)).running with
      | some t =>
        if cdRecipe c.desc = 6 ∧ st.active = true then st.passOnes ++ [{ stack := s, task := t.desc, queue := t.queue, desc := c.desc }]
        else st.passOnes
      | none => st.passOnes
    lambs := if cdRecipe c.desc = 6 ∧ cdNoMark c.desc = true then st.lambs ++ [(cdMir c.desc, c.pairDone)] else st.lambs
    failures := match (d.engine (168 + s)).running with
      | some t =>
        if c.errs.isEmpty then st.failures
        else st.failures ++ [{
          stack := s
          task := t.desc
          queue := t.queue
          desc := c.desc
          blocks := c.errs
          reruns := ((st.rerun.find? (fun r => r.1 == s && r.2.1 == c.desc)).map (fun r => r.2.2)).getD 0 }]
      | none => st.failures })

/-- A churn descriptor ends with its outcome (08 R235, 12 R333). -/
def Dev.churnEnd (s : Nat) (d : Dev) : Dev :=
  let c := d.churn s
  match c.outcome? with
  | none => d
  | some o =>
    let stop := (((d.engine (168 + s)).running).bind (fun t => t.stop)).getD 1
    let d1 := (((d.stepNote s).modChurn s (fun c => { blocks := c.blocks })).releaseNow s (cdBucket c.desc)).stepGo
    (d1.taskEnd (168 + s) (o.status stop) false false false).feSettle.rerunPump

/-- CHURN_DESCRIPTOR_END (08 R235). -/
def execChurnDescriptorEnd (stack : Nat) (s : State) : Result :=
  performMem (stackOk stack) s (fun _ d => d.churnEnd stack)

end Sys2Proof.Machine
end

