-- ==== Sys2Proof/Machine/StepOps.lean ====
section
/-! DEFINITION. Operations of the step controller (09, 10, 19 R488-R491): attempts, re-reduction, the norm, votes, restoring blocks, verdicts. -/
namespace Sys2Proof.Machine

/-- A 64-bit store to a local address of a node. -/
def Dev.stepStore (node loc : Nat) (v : W64) (d : Dev) : Dev :=
  if node = d.node then (d.memAccess d.stepWho loc (.write (leBytes 8 v.toNat))).2.2
  else (d.request stepEp .other (d.pkWrite stepEp node loc (leBytes 8 v.toNat))).2

/-- Every store of the step controller has been acknowledged. -/
def Dev.stepQuiet (d : Dev) : Bool := !d.lnk.requests.any (fun r => r.ep == stepEp && decide (r.use = .other))

/-- The step record (10 Table 2); an unreadable one reads as 0. -/
def Dev.stepRecord (g : Group) (d : Dev) : List Byte := ((d.plainRead g.stepRec 64).1).getD (List.replicate 64 0)
/-- Write bytes of the step record. -/
def Dev.putRecord (g : Group) (off : Nat) (bs : List Byte) (d : Dev) : Dev := (d.memAccess d.stepWho (g.stepRec + off) (.write bs)).2.2

/-- The keys of the buckets this member owns in a group: plan entries, and the norm bucket on its root. -/
def Dev.ownKeys (g : Group) (d : Dev) : List Nat :=
  ((List.range g.plan.length).filter (fun i => match g.plan[i]? with
    | some e => e.owner == d.node
    | none => false)) ++ (if g.root = d.node then [normKey] else [])
/-- Whether this member owns some bucket of the plan (09 R259). -/
def Dev.isOwner (g : Group) (d : Dev) : Bool := g.owners.contains d.node

/-- The scale of a first attempt, and whether it is a pre-pass (09 R251). The previous step is the last one of a lower number:
what another attempt at this step left is kept apart (DEDUCED, unsafe, log 21). -/
def StepState.firstX (st : StepState) (g : Group) (k : Nat) (lsexp : Int) : Int × Bool :=
  match mapFind st.hist k with
  | none => (16383, true)
  | some (me, ls) => (chooseX (if me = -32768 then me else me + lsexp - ls) g.count (if g.special k then g.nh else g.h), false)

/-- Deadlines of a schedule, counted from a time. -/
def dueFrom (base : W64) (due : MapOf W64) : MapOf W64 := due.map (fun e => (e.1, base + e.2))

/-- Order the opening of the current attempts' entries, with the deadlines that the schedule places (09 R247-R249). -/
def Dev.openAll (g : Group) (deadlines : MapOf W64) (d : Dev) : Dev :=
  let dl := d.oneDomain g
  let l := d.step.tries.filterMap (fun e => (g.entries e.1).map (fun x =>
    (x.1, e.2.entry x, VatOrder.openAt e.2.x dl (mapFind deadlines e.1))))
  (d.modStep (fun st => { st with orders := st.orders ++ l })).stepGo

/-- The saturation counters of the tile halves (04 R112). -/
def Dev.satCounts (d : Dev) : MapOf W32 := d.tiles.flatMap (fun e => [(2 * e.1, e.2.h0.sat), (2 * e.1 + 1, e.2.h1.sat)])

/-- Enable the scheduled queues that the chosen schedule names (10 R267, R287; 09 R246). -/
def Dev.enableQueues (queues : List Nat) (d : Dev) : Dev :=
  runAll queues (fun q d => match d.sq q with
    | some s => if s.sched then d.sqResume q else d
    | none => d) (d.modStep (fun st => { st with queues := queues }))

/-- Whether an owner that lost its schedule time in the last attempt has it back (09 R260). -/
def Dev.ownerBack (g : Group) (d : Dev) : Bool := !d.step.lostLock || !d.isOwner g || d.releasing

/-- What an attempt leaves of the one before. -/
def StepState.fresher (st : StepState) (step : W32) : StepState :=
  { st with
    fallbackAsk := false, active := true, step := step, vanes := 0, past := []
    hist := if st.histStep = step then st.hist else st.histNow.foldl (fun h e => mapPut h e.1 e.2) st.hist
    histNow := if st.histStep = step then st.histNow else []
    histStep := step
    partialSent := false, normTry := 0, lostLock := false, abandoned := false, normWord := none, forwarded := false
    voted := false, published := false, satSeen := false, bucketSat := false, wrote := false, lambs := [], passOnes := []
    reruns := [], failures := [], restores := [], unwritten := false, rerun := [] }

/-- An attempt starts (10 R287, 09 R246, R247): ATTEMPT advances, the words are cleared, the path is chosen, on the main path
the owner opens its primary entries, and the queues of the path's schedule are enabled. A step record that cannot be read starts none. -/
def Dev.attemptStart (replay : Bool) (d : Dev) : Dev :=
  match d.step.group with
  | none => d
  | some g =>
    if !d.step.running || d.step.active || !d.boot.firmware || (d.step.outcome == 3) != replay || !d.ownerBack g then d else
    match d.plainRead g.stepRec 64 with
    | (none, d1) => d1
    | (some r, _) =>
    let lsexp := signedN 8 (fld (d.word 0x2500000) 7 0)
    let fall := d.step.fresh || d.step.prevSat || d.ft.reportLate || d.step.fallbackAsk
    let d1 := d.putRecord g 4 (leBytes 4 (leAt r 4 4 + 1))
    let d2 := (d1.stepStore d.node g.normWord 0).stepStore d.node (g.normWord + 8) 0
    let pairs := if d.isOwner g then (g.plan.filter (fun e => e.trust)).flatMap (fun e => [syncBase + e.tpair, syncBase + e.tpair + 8]) else []
    let d3 := runAll pairs (fun a d => d.stepStore d.node a 0) d2
    let d4 := if g.root = d.node then d3.stepStore d.node (g.normWord + 16) 0 else d3
    let d5 := (d4.modFt (fun f => { f with reportLate := false })).modStep (fun st =>
      let st1 := st.fresher (BitVec.ofNat 32 (leAt r 0 4 + 1))
      { st1 with
        fallback := fall
        lsexp := lsexp
        record := sliceB r 0 4 ++ leBytes 4 (leAt r 4 4 + 1) ++ sliceB r 8 56
        satBase := d4.satCounts
        tries := (d.ownKeys g).map (fun k =>
          let x := st1.firstX g k lsexp
          (k, ({ pre := x.2, x := x.1 } : BucketTry))) })
    if fall then d5.enableQueues g.schedule.fallQueues
    else (d5.openAll g (dueFrom d.sched g.schedule.mainDue)).enableQueues g.schedule.mainQueues

/-- A drain vane of the step is passed (09 R242, R248): entries last used before it may be opened again, and on the fall-back
path the first vane opens the first entries and enables the queues that resend from retention. -/
def Dev.drainPassed (d : Dev) : Dev :=
  match d.step.group with
  | none => d
  | some g =>
    if !d.step.active then d else
    let d1 := d.modStep (fun st => { st with vanes := st.vanes + 1, vaneAt := d.sched })
    if d.step.fallback && d.step.vanes == 0 then (d1.openAll g (dueFrom d.sched g.schedule.fallDue)).enableQueues g.schedule.resend else d1

/-- Whether a late slip makes every bucket of a main-path step be reduced again (09 R246, 02 R43): before a norm has gone
out. -/
def Dev.slipRedo (d : Dev) : Bool := !d.step.fallback && d.ft.reportLate && d.step.normWord.isNone

/-- Whether some pre-pass bucket met a non-finite value, so that no second round is sent (09 R251). -/
def StepState.preBad (st : StepState) : Bool := st.tries.any (fun e => e.2.pre && e.2.final && decide (e.2.cls = some .nonfinite))

/-- Whether an attempt of a bucket is to be followed by another (09 R251, R254, R255). -/
def Dev.tryAgain (t : BucketTry) (d : Dev) : Bool :=
  t.final && (decide (t.cls = some .redo) || (decide (t.cls = none) && !d.step.preBad) || (d.slipRedo && !t.pre))

/-- Whether the entry of the next attempt may be opened: a drain vane of the step has followed the attempt that last used it
(09 R242, R255). -/
def StepState.vanePassed (st : StepState) (k : Nat) (t : BucketTry) : Bool :=
  decide (0 < st.vanes) && (st.past.all (fun p => p.1 != k || p.2.alternate == t.alternate || decide (p.2.vane < st.vanes)))
/-- Whether no further attempt is left for it (09 R256). -/
def Group.spent (g : Group) (k : Nat) (t : BucketTry) : Bool :=
  if g.special k then decide (1 ≤ t.further) else !t.pre && decide (g.redo ≤ t.further)
/-- The next attempt: the other entry, with the scale of 09 R252. -/
def Group.nextTry (g : Group) (k : Nat) (t : BucketTry) : BucketTry :=
  { alternate := !t.alternate
    further := if t.pre && !g.special k then t.further else t.further + 1
    x := chooseX t.maxexp g.count (if g.special k then g.nh else g.h) }

/-- One bucket is reduced again (09 R242, R255): what its last attempt left is recorded, and an entry used earlier in the step
is released first; its deadline is counted from the drain vane. -/
def Dev.redoOne (g : Group) (k : Nat) (t : BucketTry) (d : Dev) : Dev :=
  match g.entries k with
  | none => d
  | some e =>
    let n := g.nextTry k t
    let b := n.entry e
    let rel : List (Nat × Nat × VatOrder) := if (d.bucket e.1 b).isSome then [(e.1, b, .release)] else []
    d.modStep (fun st => { st with
      tries := mapPut st.tries k n
      past := st.past ++ [(k, t)]
      orders := st.orders ++ rel ++ [(e.1, b, .openAt n.x (d.oneDomain g) (mapFind (dueFrom st.vaneAt g.schedule.fallDue) k))]
      partialSent := st.partialSent && k != normKey })

/-- Whether an address lies in the window of the stack that holds a plan entry's bucket. -/
def PlanEntry.holds (e : PlanEntry) (a : W64) : Bool :=
  gNode a == e.owner && decide (stackAddr e.stack 0 ≤ gLoc a) && decide (gLoc a < stackAddr e.stack stackSpan)

/-- The intake of the entry that a trust bucket's next attempt uses: its own entry's field on its owner, a free value
elsewhere (log 21). -/
def Dev.trustIntake (e : PlanEntry) (alternate : Bool) (d : Dev) : Nat × Dev :=
  if e.owner = d.node then
    let r := d.stackRead e.stack (d.bucketOff e.stack (if alternate then e.alternate else e.primary) + 32) 8
    (leNat (r.1.getD []), r.2)
  else
    let f := d.takeFree
    (f.1.toNat % stackSize, f.2)

/-- The pass 1 descriptors of a tensor that ended here are to run again, on the other entry of the trust bucket (09 R264). -/
def Dev.passAgain (g : Group) (k : Nat) (alternate : Bool) (d : Dev) : Dev :=
  match g.plan[k]? with
  | none => d
  | some e =>
    if !e.trust || !d.step.passOnes.any (fun p => e.holds (cdMir p.desc)) then d else
    let a := d.trustIntake e alternate
    let base : W64 := BitVec.ofNat 64 (e.owner * 2 ^ 44 + stackAddr e.stack a.1)
    a.2.modStep (fun st => { st with
      passOnes := st.passOnes.filter (fun p => !e.holds (cdMir p.desc))
      reruns := st.reruns ++ (st.passOnes.filter (fun p => e.holds (cdMir p.desc))).map (fun p =>
        ({ pass := p, mir := base + 64, mrec := if cdNoMark p.desc then 0 else base } : Rerun)) })

/-- Whether a bucket of another owner, of which this part holds no record, is reduced again there: a free value (log 21). -/
def Dev.ifElsewhere (f : Dev → Dev) (d : Dev) : Dev :=
  let r := d.takeFree
  if r.1.getLsbD 0 then f r.2 else r.2

/-- What this member adds again to buckets of other owners (09 R259, R264): its norm partial, for the one further attempt of
the norm bucket, which a run's first step is sure to have after its pre-pass, and pass 1 of the tensors that have
contributions of it. -/
def Dev.redoElsewhere (g : Group) (d : Dev) : Dev :=
  let d1 := if g.root != d.node && d.step.partialSent && d.step.normTry == 0 then
      let send : Dev → Dev := Dev.modStep (fun st => { st with partialSent := false, normTry := 1 })
      if d.step.fresh then send d else d.ifElsewhere send
    else d
  runAll ((List.range g.plan.length).filter (fun k => (g.plan[k]?).any (fun e =>
      e.owner != d.node && d.step.passOnes.any (fun p => e.holds (cdMir p.desc)))))
    (fun k => Dev.ifElsewhere (fun d => d.passAgain g k true)) d1

/-- RE_REDUCTION (09 R255, R256, R259, R264): all buckets to be reduced again, once the drain vane allows their entries, and what
this member adds to the norm and trust buckets that their owners elsewhere reduce again. -/
def Dev.reReduce (d : Dev) : Dev :=
  match d.step.group with
  | none => d
  | some g =>
    if !d.step.active || d.step.abandoned || d.step.normWord.any (fun w => !finF32 (lo32 w)) then d else
    let l := d.step.tries.filter (fun e => d.tryAgain e.2)
    if l.any (fun e => g.spent e.1 e.2) then d.modStep (fun st => { st with abandoned := true })
    else if !l.all (fun e => d.step.vanePassed e.1 e.2) then d
    else
      let slip := d.slipRedo
      let d1 := runAll l (fun e d => (d.redoOne g e.1 e.2).passAgain g e.1 (!e.2.alternate)) d
      let d2 := if slip then (d1.modFt (fun f => { f with reportLate := false })).modStep (fun st => { st with fallback := true }) else d1
      ((d2.redoElsewhere g).stepGo.rerunPump).enableQueues g.schedule.resend

/-! ## The norm (09 R258-R263) -/

/-- The gradient buckets this member owns, in plan order. -/
def StepState.gradients (st : StepState) (g : Group) : List BucketTry := (st.tries.filter (fun e => !g.special e.1)).map Prod.snd

/-- The norm partial of an owner (09 R258). -/
def StepState.normPart (st : StepState) (g : Group) : W32 := (st.gradients g).foldl (fun a t => add32 a t.normsq) 0

/-- NORM_PARTIAL (09 R258, R260): one FP32 element and a marker of weight 1 to the norm bucket's intake, whose offset on
another node is open here (log 21). A pre-pass that met a non-finite value sends it at once, which makes the norm non-finite
(R251; DEDUCED, unsafe, log 21). -/
def Dev.normPartial (d : Dev) : Dev :=
  match d.step.group with
  | none => d
  | some g =>
    let st := d.step
    if !st.active || !d.isOwner g || !d.releasing || st.lostLock || st.abandoned || st.partialSent || d.slipRedo ||
      !((st.gradients g).all BucketTry.feeds || (st.gradients g).any (fun t => t.pre && t.feeds)) then d else
    let p := leBytes 4 (st.normPart g).toNat
    let sent (d : Dev) : Dev := d.modStep (fun st => { st with partialSent := true })
    if g.root = d.node then
      match mapFind st.tries normKey with
      | none => d
      | some t =>
        match d.bucket g.normStack (if t.alternate then g.normAlternate else g.normPrimary) with
        | none => d
        | some k =>
          let a := stackAddr g.normStack k.intake
          let d1 := (d.memAccess d.stepWho (a + 64) (.write p)).2.2
          sent ((d1.memAccess d.stepWho a (.atomic .sig (d.markerWord 1) 0)).2.2)
    else
      let f := d.takeFree
      let a := stackAddr g.normStack (f.1.toNat % stackSize)
      let d1 := (f.2.request stepEp .other (f.2.pkWrite stepEp g.root (a + 64) p)).2
      sent ((d1.request stepEp .other (d1.pkAtomic stepEp g.root a .sig (d.markerWord 1) 0)).2)

/-- The norm of a final norm bucket (09 R261); none where its word cannot be read. -/
def Dev.normOf (g : Group) (t : BucketTry) (d : Dev) : Option W32 × Dev :=
  if t.cls = some .nonfinite then (some (if t.normsq = 0x7FC00000#32 then 0x7FC00000#32 else 0x7F800000#32), d)
  else
    let r := d.stackRead g.normStack t.data 8
    (r.1.map (fun bs => sqrt32 (toF32 ((mkNum (signedN 64 (leNat bs)) 0 false).scale t.x))), r.2)

/-- The attempt from which the root publishes the norm: the norm bucket's final one, or a pre-pass that met a non-finite
value (09 R251, R261). -/
def StepState.normSource (st : StepState) : Option BucketTry :=
  match mapFind st.tries normKey with
  | none => none
  | some t =>
    if t.feeds then some t
    else (st.tries.find? (fun e => e.2.pre && e.2.final && decide (e.2.cls = some .nonfinite))).map Prod.snd

/-- Store a word at a local address on the children of place j (09 R261). -/
def Dev.fanOut (g : Group) (j loc : Nat) (w : W64) (d : Dev) : Dev := runAll (g.children j) (fun n d => d.stepStore n loc w) d

/-- The halving of a step whose norm is not finite (09 R262). -/
def Dev.normHalve (w : W64) (d : Dev) : Dev := if finF32 (lo32 w) then d else d.lscaleHalve (hi32 w).toNat

/-- NORM_WORD_PUBLISH (09 R261, R262). -/
def Dev.normPublish (d : Dev) : Dev :=
  match d.step.group with
  | none => d
  | some g =>
    let st := d.step
    if !st.active || g.root != d.node || st.normWord.isSome || st.published || st.lostLock || st.abandoned then d else
    match st.normSource with
    | none => d
    | some t =>
      match d.normOf g t with
      | (none, d1) => d1
      | (some n, d1) =>
        let w := of32 n st.step
        let d2 := (d1.stepStore d.node g.normWord w).fanOut g 0 g.normWord w
        (d2.modStep (fun st => { st with normWord := some w, forwarded := true })).normHalve w

/-- NORM_WORD_FORWARD (09 R261, R262). -/
def Dev.normForward (d : Dev) : Dev :=
  match d.step.group with
  | none => d
  | some g =>
    let st := d.step
    let w := d.syncAt g.normWord
    if !st.active || st.forwarded || g.root == d.node || hi32 w != st.step then d else
    let d1 := match g.place d.node with
      | some j => d.fanOut g j g.normWord w
      | none => d
    (d1.modStep (fun st => { st with normWord := some w, forwarded := true })).normHalve w

/-! ## LAMB (09 R264, 08 R231) -/

/-- TRUST_PAIR_PUBLISH (09 R264): of a final and complete trust bucket that no flag keeps from feeding (08 R224), word 1, then
word 0, on every owner of the tensor. -/
def Dev.trustPublish (plan : Nat) (d : Dev) : Dev :=
  match d.step.group, mapFind d.step.tries plan with
  | some g, some t =>
    if !d.step.active || !t.final || t.pre || decide (t.cls ≠ some .clean) then d else
    match g.plan[plan]? with
    | none => d
    | some e =>
      if !e.trust then d else
      match d.stackRead e.stack t.data 16 with
      | (none, d1) => d1
      | (some bs, d1) =>
        let sum (i : Nat) : W32 := toF32 ((mkNum (signedN 64 (leAt bs (8 * i) 8)) 0 false).scale t.x)
        let put (i : Nat) (d : Dev) : Dev := runAll (g.tensorOwners plan) (fun n d => d.stepStore n (syncBase + e.tpair + 8 * i) (of32 (sum i) d.step.step)) d
        put 0 (put 1 d1)
  | _, _ => d

/-- LAMB_MARKER (08 R231): the owner's single marker, once no NOMARK descriptor of the tensor is left and none ended without
its pair acknowledged. -/
def Dev.lambMark (plan : Nat) (d : Dev) : Dev :=
  match d.step.group with
  | none => d
  | some g =>
    match g.plan[plan]? with
    | none => d
    | some e =>
      match d.step.lambs.find? (fun l => e.trust && e.holds l.1) with
      | none => d
      | some l =>
        if d.step.reruns.any (fun r => r.mir == l.1) || d.eng.churns.any (fun c => decide (c.2.phase ≠ .idle) && cdRecipe c.2.desc == 6 && cdMir c.2.desc == l.1) then d else
        let d1 := d.modStep (fun st => { st with lambs := st.lambs.filter (fun x => x.1 != l.1) })
        if d.step.lambs.any (fun x => x.1 == l.1 && !x.2) then d1
        else d1.unitSignal d.stepWho (l.1 - 64) (d.markerWord 1)

/-! ## Votes and verdicts (10 R286-R291) -/

/-- The fields of a tally (10 Table 3). -/
def tallyVotes (w : W64) : Nat := bitsN w.toNat 20 0
def tallySats (w : W64) : Nat := bitsN w.toNat 41 21
def tallyFails (w : W64) : Nat := bitsN w.toNat 62 42
/-- A vote (10 R288). -/
def voteWord (sat fail : Bool) : W64 := BitVec.ofNat 64 (1 + b2n sat * 2 ^ 21 + b2n fail * 2 ^ 42)
/-- A verdict word (10 Table 3). -/
def verdictWord (outcome : Nat) (sat missing fail : Bool) (step : W32) : W64 :=
  of32 (BitVec.ofNat 32 (outcome + 4 * b2n sat + 8 * b2n missing + 16 * b2n fail)) step

/-- The root publishes the verdict (10 R289). -/
def Dev.verdictOut (g : Group) (outcome : Nat) (d : Dev) : Dev :=
  let t := d.syncAt (g.normWord + 16)
  let w := verdictWord outcome (decide (0 < tallySats t)) (decide (tallyVotes t < g.count)) (decide (0 < tallyFails t)) d.step.step
  ((d.stepStore d.node (g.normWord + 8) w).fanOut g 0 (g.normWord + 8) w).modStep (fun st => { st with published := true })

/-- Whether churn has written a block of the step (10 R291). -/
def Dev.churnWrote (d : Dev) : Bool := d.step.wrote || d.eng.churns.any (fun c => c.2.wrote)

/-- The outcome the root chooses (10 R289): 1 COMMIT, 2 SKIP, 3 ABANDON. A step abandoned by 09 R256 after its norm ends
ABANDON as long as no block has been written (R291; DEDUCED, unsafe, log 21). -/
def Dev.chooseOutcome (d : Dev) : Nat :=
  match d.step.normWord with
  | none => 3
  | some w => if !finF32 (lo32 w) then 2 else if d.step.abandoned && !d.churnWrote then 3 else 1

/-- VERDICT_PUBLISH and VERDICT_DEADLINE (10 R289): `all` asks that every member has voted. -/
def Dev.verdictPublish (all : Bool) (d : Dev) : Dev :=
  match d.step.group with
  | none => d
  | some g =>
    if !d.step.active || g.root != d.node || d.step.published then d
    else if all && decide (tallyVotes (d.syncAt (g.normWord + 16)) < g.count) then d
    else d.verdictOut g d.chooseOutcome

/-- OWNER_LOCK_LOST (09 R260): the owner closes its open buckets, sends no partial, and as root publishes ABANDON, unless the
norm word has gone out (10 R289, R291). -/
def Dev.ownerLost (d : Dev) : Dev :=
  match d.step.group with
  | none => d
  | some g =>
    if !d.step.active || !d.isOwner g || d.releasing || d.step.lostLock then d else
    let d1 := runAll (d.step.tries.filter (fun e => !e.2.final)) (fun e d => match g.entries e.1 with
      | some x => d.bucketClose x.1 (e.2.entry x) true
      | none => d) d
    let d2 := d1.modStep (fun st => { st with lostLock := true })
    if g.root = d.node && !d.step.published && d.step.normWord.isNone then d2.verdictOut g 3 else d2

/-! ## Restoring the inputs of a block (10 R288, 19 R489) -/

/-- The pieces of a range at a global address, cut at 4 KiB boundaries (13 R355). -/
def cutRange : Nat → W64 → Nat → List (W64 × Nat)
  | 0, _, _ => []
  | k + 1, a, n =>
    if n = 0 then [] else
    let m := min n (4096 - a.toNat % 4096)
    (a, m) :: cutRange k (a + BitVec.ofNat 64 m) (n - m)

/-- Bytes of a block in its mirror slot (08 R233). -/
def mirBytes (b : List Byte) : Nat := 4096 + 1024 * (mBytes (cdRecipe b) + vBytes (cdRecipe b))

/-- One more part of the block asked for last: its tag while it is awaited, or its bytes, and whether it failed. -/
def Dev.restorePart (p : Option W16 × Option (List Byte)) (bad : Bool) (d : Dev) : Dev :=
  d.modStep (fun st => { st with restores := st.restores.dropLast ++
    st.restores.getLast?.toList.map (fun r => { r with parts := r.parts ++ [p], failed := r.failed || bad }) })

/-- Ask for the remote record and the mirror data of a block in the slot of step t - 1. -/
def Dev.restoreAsk (f : FailedChurn) (i : Nat) (d : Dev) : Dev :=
  let b := f.desc
  let slot := 2 * i + (cdStep b - 1) % 2
  let l := cutRange 6 (cdMrec b + BitVec.ofNat 64 (32 * slot)) 32 ++ cutRange 6 (cdMir b + BitVec.ofNat 64 (slot * mirBytes b)) (mirBytes b)
  l.foldl (fun (d : Dev) p =>
    if gNode p.1 = d.node then
      let q := d.memAccess d.stepWho (gLoc p.1) (.read p.2)
      q.2.2.restorePart (none, some q.2.1) (q.1 != stOk)
    else
      let d1 := d.restorePart (some d.lnk.nextTag, none) false
      (d1.request stepEp .restore (d1.pkRead stepEp (gNode p.1) (gLoc p.1) p.2)).2)
    (d.modStep (fun st => { st with
      restores := st.restores ++ [{ stack := f.stack, queue := some f.queue, desc := b, block := i, parts := [], failed := false }] }))

/-- Whether a remote record with its mirror data is a block's copy of a step: its record and its check match (19 R489,
R491). -/
def mirrorGood (step : Nat) (bs : List Byte) : Bool :=
  leAt bs 0 4 == step && leAt bs 8 1 == 2 && leAt bs 12 4 == (crc32c (bs.drop 32)).toNat
/-- Whether what came is the block's copy of step t - 1 (19 R489). -/
def Restore.good (r : Restore) : Bool := !r.failed && mirrorGood (cdStep r.desc - 1) (r.parts.flatMap (fun p => p.2.getD []))

/-- Write a restored block: forward cream, whey, moments, and the backward cream from them (19 R489). -/
def Dev.restorePut (r : Restore) (d : Dev) : Dev :=
  let b := r.desc
  let s := r.stack
  let bs := (r.parts.flatMap (fun p => p.2.getD [])).drop 32
  let i := r.block
  let rc := cdRecipe b
  let cols (base off : Nat) : List (Nat × List Byte) :=
    (List.range 32).map (fun c => (stackAddr s (base + (blkN0 b i + c) * cdFs b + 2 * blkK0 b i), sliceB bs (off + 64 * c) 64))
  let back : List (Nat × List Byte) := (List.range 32).map (fun q =>
    (stackAddr s (cdBk b + (blkK0 b i + q) * cdBs b + 2 * blkN0 b i), (List.range 32).flatMap (fun c => sliceB bs (2 * (32 * c + q)) 2)))
  (d.unitWrites d.stepWho (cols (cdF b) 0 ++ cols (cdWh b) 2048 ++ back ++
    [(stackAddr s (cdMom b + 1024 * mBytes rc * i), sliceB bs 4096 (1024 * mBytes rc)),
     (stackAddr s (cdVbase b + 4096 * i), sliceB bs (4096 + 1024 * mBytes rc) (1024 * vBytes rc))])).2

/-- A churn descriptor that left blocks with ERROR runs again (10 R288). -/
def Dev.churnAgain (f : FailedChurn) (d : Dev) : Dev :=
  (d.churnDispatch f.stack f.queue f.task).modStep (fun st => { st with
      rerun := (f.stack, f.desc, f.reruns + 1) :: st.rerun.filter (fun r => !(r.1 == f.stack && r.2.1 == f.desc)) })

/-- Whether a prefetched task is a churn task of the running step: of a kind for churn units, with the step in its
descriptor (08 Table 4). -/
def Dev.stepTask (b : List Byte) (d : Dev) : Bool :=
  decide (168 ≤ tdKey b) && decide (tdKey b < 176) &&
  (match (d.stackRead (tdKey b - 168) (tdDesc b + 72) 4).1 with
    | some s => leNat s == d.step.step.toNat
    | none => false)

/-- Whether no churn descriptor of the step is left on this part: none is waiting in a queue's prefetched tasks or for
another run, and every unit is free of tasks (10 R288). -/
def Dev.churnQuiet (d : Dev) : Bool :=
  d.step.reruns.isEmpty && d.fe.sqs.all (fun q => q.2.buf.all (fun b => !d.stepTask b.1)) && d.eng.churns.all (fun c => decide (c.2.phase = .idle)) &&
  d.fe.engines.all (fun e => !(decide (168 ≤ e.1) && decide (e.1 < 184)) || (e.2.running.isNone && e.2.draught.isNone))

/-- The bucket that feeds a descriptor's blocks, where some vat word that they read cannot be read (19 R489). -/
def Dev.badBucket (f : FailedChurn) (d : Dev) : Option (Nat × BucketTry) :=
  match d.shardTry f.stack (cdBucket f.desc) with
  | some (k, t, _) =>
    if cdRecipe f.desc != 7 && (!t.feeds || f.blocks.any (fun i => (d.stackRead f.stack (t.data + 8 * (cdEoff f.desc + 1024 * i)) 8192).1.isNone))
    then some (k, t) else none
  | none => none

/-- The first descriptor with ERROR blocks goes one step further: a bucket whose words cannot be read is reduced again first,
its blocks are asked for, written, and it runs again; without a mirror, after two reruns or in an abandoned step its blocks
stay unwritten (10 R288, 19 R489). -/
def Dev.completeOne (f : FailedChurn) (d : Dev) : Dev :=
  let drop (d : Dev) : Dev := d.modStep (fun st => { st with failures := st.failures.erase f, restores := [] })
  if !(d.step.abandoned || decide (2 ≤ f.reruns)) && (d.badBucket f).isSome then
    match d.badBucket f with
    | some (k, t) => d.modStep (fun st => { st with tries := mapPut st.tries k (if t.feeds then { t with cls := some .redo } else t) })
    | none => d
  else if d.step.abandoned || decide (2 ≤ f.reruns) || !cdMirror f.desc then drop (d.modStep (fun st => { st with unwritten := true }))
  else if d.step.restores.isEmpty then runAll f.blocks (fun i d => d.restoreAsk f i) d
  else if d.step.restores.any (fun r => r.parts.any (fun p => p.2.isNone)) then d
  else
    let good := d.step.restores.filter Restore.good
    let d1 := runAll good Dev.restorePut d
    let d2 := drop (d1.modStep (fun st => { st with unwritten := st.unwritten || decide (good.length < d.step.restores.length) }))
    if good.isEmpty then d2 else d2.churnAgain f

/-- Whether this member saw a saturation in the step (10 R288). -/
def Dev.sawSat (d : Dev) : Bool :=
  d.step.satSeen || d.satCounts.any (fun e => e.2 != mapGet 0 d.step.satBase e.1)

/-- VOTE (10 R288). -/
def Dev.castVote (d : Dev) : Dev :=
  match d.step.group with
  | none => d
  | some g =>
    let st := d.step
    let normHere := hi32 (d.syncAt g.normWord) == st.step
    if !st.active || st.voted || !d.churnQuiet || (normHere && !st.forwarded) || !d.stepQuiet then d else
    match st.failures with
    | f :: _ => d.completeOne f
    | [] =>
      let v := voteWord d.sawSat st.unwritten
      let a := g.normWord + 16
      let d1 := d.modStep (fun st => { st with voted := true })
      if g.root = d.node then
        ((d1.memAccess d.stepWho a (.atomic .add v 0)).2.2.memAccess d.stepWho a (.atomic .sig 0 0)).2.2
      else
        let d2 := (d1.request stepEp .other (d1.pkAtomic stepEp g.root a .add v 0)).2
        (d2.request stepEp .other (d2.pkAtomic stepEp g.root a .sig 0 0)).2

/-! ## The verdict applied (10 R284, R290, R291) -/

/-- The growth rule (10 R284): the exponent and CLEAN after a commit. -/
def grow (sat : Bool) (interval : Nat) (cap exp : Int) (clean : Nat) : Int × Nat :=
  if sat then (exp, 0)
  else if interval ≤ clean + 1 then ((if exp + 1 < cap then exp + 1 else cap), 0)
  else (exp, clean + 1)

/-- The range of CHN_LSCALE.EXP (08 Table 13). -/
def lscaleRange (e : Int) : Int := if e < -64 then -64 else if e > 64 then 64 else e
/-- CHN_LSCALE.EXP. -/
def Dev.setLscale (e : Int) (d : Dev) : Dev := d.setWord 0x2500000 (BitVec.ofNat 32 (BitVec.ofInt 8 e).toNat)

/-- Members absent from the verdict (10 Table 2): the root counts them; elsewhere a set MISSING leaves the number open
(log 21). -/
def Dev.absent (g : Group) (w : W64) (d : Dev) : W32 × Dev :=
  if w.getLsbD 3 = false then (0, d)
  else if g.root = d.node then (BitVec.ofNat 32 (g.count - tallyVotes (d.syncAt (g.normWord + 16))), d)
  else
    let f := d.takeFree
    (f.1.setWidth 32, f.2)

/-- The last final attempt of a bucket in the step that was no pre-pass (09 R251). -/
def StepState.lastFinal (st : StepState) (k : Nat) : Option BucketTry :=
  (((st.past ++ st.tries).filter (fun e => e.1 == k)).reverse.map Prod.snd).find? (fun t => t.final && !t.pre)

/-- The orders that bring an entry back to FREE: one that is not FINAL is closed first (10 R290, R292). -/
def Dev.freeOrders (s b : Nat) (d : Dev) : List (Nat × Nat × VatOrder) :=
  match d.bucket s b with
  | none => []
  | some k => (if k.mode = .final then [] else [(s, b, .close)]) ++ [(s, b, .release)]

/-- What a commit records of this member's buckets (09 R254), and for how many commits in a row each member has been missing
from some of them (R266). -/
def StepState.commits (st : StepState) (g : Group) : StepState :=
  let l := st.tries.filterMap (fun e => (g.entries e.1).map (fun x =>
    ({ key := e.1, entry := e.2.entry x, cls := e.2.cls, marks := e.2.marks } : Committed)))
  let plain := l.filter (fun c => !g.special c.key)
  { st with
    committed := l
    absences := g.members.foldl (fun a i => if plain.any (fun c => !c.marks.contains i) then mapPut a i (mapGet 0 a i + 1)
      else if plain.isEmpty then a else mapDel a i) st.absences }

/-- What ends with an attempt: its entries are released, its scales remembered, and at a commit what its buckets admitted is
recorded (10 R290, R292; 09 R242, R251, R254, R266). -/
def Dev.attemptEnd (g : Group) (outcome : Nat) (w : W64) (d : Dev) : Dev :=
  let st := d.step
  let rel := st.tries.flatMap (fun e => match g.entries e.1 with
    | some x => d.freeOrders x.1 x.2.1 ++ (if x.2.2 = x.2.1 then [] else d.freeOrders x.1 x.2.2)
    | none => [])
  let hist := st.tries.foldl (fun h e => match st.lastFinal e.1 with
    | some t => mapPut h e.1 (t.maxexp, st.lsexp)
    | none => h) st.histNow
  let own := st.bucketSat
  let f := d.takeFree
  let d1 := if w.getLsbD 2 && !own then f.2 else d
  (d1.modStep (fun st0 =>
    let st := if outcome = 1 then st0.commits g else st0
    { st with
    active := false
    outcome := outcome
    abandons := if outcome = 3 then st.abandons + 1 else 0
    fresh := st.fresh && outcome != 1
    prevSat := own || (w.getLsbD 2 && f.1.getLsbD 0)
    fail := w.getLsbD 4
    retained := outcome == 3
    histNow := hist
    orders := st.orders ++ rel
    tries := []
    left := if outcome = 1 then st.left.map (· - 1) else st.left
    running := st.running && !(outcome == 1 && decide (st.left = some 1)) })).stepGo

/-- The verdict of this attempt, if this member holds it. -/
def Dev.verdictHere (g : Group) (d : Dev) : Option W64 :=
  let w := d.syncAt (g.normWord + 8)
  if hi32 w = d.step.step ∧ w.toNat % 4 ≠ 0 then some w else none

/-- VERDICT_APPLY on this member (10 R284, R289, R290): the verdict goes on to its children, and the outcome is written. -/
def Dev.verdictApply (d : Dev) : Dev :=
  match d.step.group with
  | none => d
  | some g =>
    if !d.step.active then d else
    match d.verdictHere g with
    | none => d
    | some w =>
      let d1 := if g.root = d.node then d else match g.place d.node with
        | some j => d.fanOut g j (g.normWord + 8) w
        | none => d
      let r := d.step.record
      let a := d1.absent g w
      let exp := signedN 8 (fld (a.2.word 0x2500000) 7 0)
      let cursor := leAt r 8 8 + 1
      let o := w.toNat % 4
      let d3 := a.2.modStep (fun st => { st with missing := a.1 })
      if o = 1 then
        let gr := grow (w.getLsbD 2) d.step.interval d.step.cap exp (leAt r 20 4)
        let e1 := lscaleRange gr.1
        ((d3.setLscale e1).putRecord g 0 (leBytes 4 d.step.step.toNat ++ sliceB r 4 4 ++ leBytes 8 cursor ++
          leBytes 1 (BitVec.ofInt 8 e1).toNat ++ leBytes 1 1 ++ leBytes 2 0 ++ leBytes 4 gr.2 ++ leBytes 8 d.ft.now.toNat ++
          leBytes 4 a.1.toNat ++ leBytes 28 0)).attemptEnd g 1 w
      else if o = 2 then
        let d4 := d3.normHalve (of32 0x7FC00000#32 d.step.step)
        let e2 := signedN 8 (fld (d4.word 0x2500000) 7 0)
        ((d4.putRecord g 8 (leBytes 8 cursor ++ leBytes 1 (BitVec.ofInt 8 e2).toNat ++ leBytes 1 2 ++ leBytes 2 0 ++ leBytes 4 0 ++
          leBytes 8 d.ft.now.toNat)).setWord 0x2500004 0xFFFFFFFF#32).attemptEnd g 2 w
      else
        ((d3.putRecord g 17 (leBytes 1 3)).putRecord g 24 (leBytes 8 d.ft.now.toNat)).attemptEnd g 3 w

/-! ## Checkpoints and lost shards (15 Table 3, 19 R491, R492) -/

/-- Copy local ranges to one place, one after another; false where an access fails. -/
def Dev.saveRanges : List (Nat × Nat) → Nat → Dev → Bool × Dev
  | [], _, d => (true, d)
  | (a, n) :: l, dest, d =>
    match d.unitRead d.stepWho a n with
    | (none, d1) => (false, d1)
    | (some bs, d1) =>
      let w := d1.unitWrite d.stepWho dest bs
      if w.1 then Dev.saveRanges l (dest + n) w.2 else (false, w.2)
/-- Copy them back. -/
def Dev.loadRanges : List (Nat × Nat) → Nat → Dev → Bool × Dev
  | [], _, d => (true, d)
  | (a, n) :: l, src, d =>
    match d.unitRead d.stepWho src n with
    | (none, d1) => (false, d1)
    | (some bs, d1) =>
      let w := d1.unitWrite d.stepWho a bs
      if w.1 then Dev.loadRanges l (src + n) w.2 else (false, w.2)

/-- A block of a lost shard as its buddy holds it for the committed step: what a churn descriptor of the shard says, with
MIR and MREC in this part (08 R233, 19 R491). -/
def Dev.lostBlock (s step : Nat) (b : List Byte) (i : Nat) (d : Dev) : Restore :=
  let slot := 2 * i + step % 2
  let r := d.unitRead d.stepWho (gLoc (cdMrec b) + 32 * slot) 32
  let q := r.2.unitRead d.stepWho (gLoc (cdMir b) + slot * mirBytes b) (mirBytes b)
  { stack := s, queue := none, desc := b, block := i, parts := [(none, r.1), (none, q.1)]
    failed := r.1.isNone || q.1.isNone || gNode (cdMir b) != d.node || gNode (cdMrec b) != d.node }

/-- The blocks of the lost shards whose new owner this member is. -/
def Dev.lostBlocks (step : Nat) (lost : List (Nat × List Byte)) (d : Dev) : List Restore :=
  lost.flatMap (fun l => (List.range (cdNb l.2)).map (fun i => d.lostBlock l.1 step l.2 i))

/-- A lost block is copied into the new owner's arrays, and its local record written, with STATE 1 (19 R491). -/
def Dev.adoptBlock (r : Restore) (d : Dev) : Dev :=
  let recd := (r.parts.flatMap (fun p => p.2.getD [])).take 32
  ((d.restorePut r).unitWrite d.stepWho (stackAddr r.stack (cdLrec r.desc + 32 * r.block)) (recd.take 8 ++ [1#8] ++ recd.drop 9)).2

/-- The current values of a block in mirror order; none where they cannot be read. -/
def Dev.blockImage (s : Nat) (b : List Byte) (i : Nat) (d : Dev) : Option (List Byte) × Dev :=
  let r := cdRecipe b
  d.unitReads d.stepWho (fwdSpans s (cdF b) b i ++ fwdSpans s (cdWh b) b i ++
    [(stackAddr s (cdMom b + 1024 * mBytes r * i), 1024 * mBytes r), (stackAddr s (cdVbase b + 4096 * i), 1024 * vBytes r)])

/-- A full mirror of a block is written to its shard's new buddy, with its record (19 R491). -/
def Dev.mirrorBlock (step : Nat) (l : Nat × List Byte) (i : Nat) (d : Dev) : Dev :=
  match d.blockImage l.1 l.2 i with
  | (none, d1) => d1
  | (some bs, d1) =>
    let slot := 2 * i + step % 2
    let recd := leBytes 4 step ++ (d1.blockRecord l.2 i 2 0x81#8 (crc32c bs)).drop 4
    let d2 := (d1.unitSend d.stepWho .other (cdMir l.2 + BitVec.ofNat 64 (slot * mirBytes l.2)) bs).2
    (d2.unitSend d.stepWho .other (cdMrec l.2 + BitVec.ofNat 64 (32 * slot)) recd).2

/-- The group cannot recover in service: the member restores what its last checkpoint holds, and the run ends (19 R492). -/
def Dev.restoreCheckpoint (d : Dev) : Dev :=
  let d1 := d.modStep (fun st => { st with unrecovered := true, running := false })
  match d.step.checkpoint with
  | some c => (d1.loadRanges c.ranges c.dest).2
  | none => d1

/-- Lost shards are taken over and mirrors made anew, or, where any block of a lost shard lacks a matching record for the
committed step, the last checkpoint is restored (19 R491, R492). -/
def Dev.takeShards (step : Nat) (lost mirrors : List (Nat × List Byte)) (d : Dev) : Dev :=
  let bs := d.lostBlocks step lost
  if !bs.all (fun r => !r.failed && mirrorGood step (r.parts.flatMap (fun p => p.2.getD []))) then d.restoreCheckpoint
  else runAll mirrors (fun l d => runAll (List.range (cdNb l.2)) (Dev.mirrorBlock step l) d) (runAll bs Dev.adoptBlock d)

/-- A new group record takes effect between steps (09 R241, R246; 19 R491). -/
def Dev.setGroup (g : Group) (d : Dev) : Dev := d.modStep (fun st => { st with group := some g, fresh := true, hist := [], histNow := [], absences := [] })

end Sys2Proof.Machine
end

