-- ==== Sys2Proof/Machine/Services.lean ====
section
/-! DEFINITION. Firmware services (15 R402-R405): attachment, the group and the run, reports, partitions, cluster updates and failover. -/
namespace Sys2Proof.Machine

/-- Change the services' state. -/
def Dev.modGc (f : GcState → GcState) (d : Dev) : Dev := { d with gc := f d.gc }

/-! ## Responses (15 R403) -/

/-- Statuses of a response (15 Table 2). -/
def svOk : Nat := 0
def svDenied : Nat := 1
def svInvalid : Nat := 2
def svBusy : Nat := 3
def svFailed : Nat := 4

/-- The service area (15 Table 8): 512 KiB aligned. -/
def Dev.svcBase (d : Dev) : Nat := (d.word64 (offGc + 8)).toNat % 2 ^ 44 / 0x80000 * 0x80000
/-- The response entry of a context for a request's number. -/
def Dev.svcSlot (d : Dev) (ctx : Nat) (seq : W32) : Nat := d.svcBase + 0x2000 * ctx + 0x1000 + 64 * ((seq - 1).toNat % 64)

/-- A response: bytes 4 to 63, then bytes 0 to 3, then the vector of SVC_ATTACH (15 R403). -/
def Dev.svcAnswer (ctx : Nat) (seq : W32) (status : Nat) (results : List W64) (d : Dev) : Dev :=
  let body := leBytes 2 status ++ leBytes 2 0 ++ sliceB (results.flatMap (fun r => leBytes 8 r.toNat)) 0 56
  let d1 := (d.memAccess d.stepWho (d.svcSlot ctx seq + 4) (.write body)).2.2
  let d2 := (d1.memAccess d.stepWho (d.svcSlot ctx seq) (.write (leBytes 4 seq.toNat))).2.2
  match mapFind d.gc.vectors ctx with
  | some v => d2.sendVector v
  | none => d2

/-- A request is taken: with firmware running, it acts and answers (15 R403). -/
def Dev.service (ctx : Nat) (seq : W32) (f : Dev → Nat × List W64 × Dev) (d : Dev) : Dev :=
  if d.boot.firmware then
    let r := f d
    r.2.2.svcAnswer ctx seq r.1 r.2.1
  else d

/-- Answers without results. -/
def answer (status : Nat) (d : Dev) : Nat × List W64 × Dev := (status, [], d)

/-! ## Requests of the step (15 Table 3) -/

/-- Whether a context may name a vector (14 R393). -/
def Dev.svcVecOk (d : Dev) (ctx : Nat) (v : W32) : Bool :=
  decide (v.toNat < 2048) && (!d.vfOn ctx || (decide ((d.vecWindow ctx).1 ≤ v.toNat) && decide (v.toNat < (d.vecWindow ctx).1 + (d.vecWindow ctx).2)))

/-- SVC_ATTACH (15 R403). -/
def execSvcAttach (ctx : Nat) (seq vec : W32) (s : State) : Result :=
  performMem (ctxOk ctx) s (fun _ => Dev.service ctx seq (fun d =>
    if d.svcVecOk ctx vec then answer svOk (d.modGc (fun g => { g with vectors := mapPut g.vectors ctx vec.toNat }))
    else answer svDenied d))

/-- A group from its record, between attempts (09 R240, R241; 15 Table 3). -/
def Dev.takeGroup (record stepRec : Nat) (schedule : Schedule) (d : Dev) : Nat × List W64 × Dev :=
  if d.step.active then answer svBusy d else
  match d.readGroup record stepRec schedule with
  | (some g, d1) => answer svOk (d1.setGroup g)
  | (none, d1) => answer svInvalid d1

/-- GROUP_SET (15 Table 3). -/
def execGroupSet (ctx : Nat) (seq : W32) (group record : W64) (schedule : Schedule) (s : State) : Result :=
  performMem (ctxOk ctx) s (fun _ => Dev.service ctx seq
    (Dev.takeGroup group.toNat record.toNat schedule))

/-- STEP_RUN (15 Table 3): the run's first step has no scale history (09 R246). -/
def Dev.stepRun (steps : W64) (d : Dev) : Nat × List W64 × Dev :=
  if d.step.group.isNone then answer svInvalid d
  else if d.step.running then answer svBusy d
  else answer svOk (d.modStep (fun st => { st with
    running := true, fresh := true, hist := [], histNow := [], unrecovered := false, abandons := 0, left := if steps = 0 then none else some steps.toNat }))

/-- STEP_RUN as a command. -/
def execStepRun (ctx : Nat) (seq : W32) (steps : W64) (s : State) : Result :=
  performMem (ctxOk ctx) s (fun _ => Dev.service ctx seq (Dev.stepRun steps))

/-- FALLBACK (15 Table 3, 09 R246). -/
def execFallback (ctx : Nat) (seq : W32) (s : State) : Result :=
  performMem (ctxOk ctx) s (fun _ => Dev.service ctx seq (fun d => answer svOk (d.modStep (fun st => { st with fallbackAsk := true }))))

/-- LSCALE_POLICY (15 Table 3, 10 R284). -/
def execLscalePolicy (ctx : Nat) (seq : W32) (interval cap : W64) (s : State) : Result :=
  performMem (ctxOk ctx) s (fun _ => Dev.service ctx seq (fun d =>
    answer svOk (d.modStep (fun st => { st with interval := interval.toNat, cap := cap.toInt }))))

/-- The bitmap of the members that the last commit missed, one bit a contributor (10 R291): those whose marker some bucket of
this member lacked (09 R266; DEDUCED, unsafe, log 21). -/
def StepState.missingMap (st : StepState) (g : Group) : List Byte :=
  leBytes ((g.nc + 7) / 8) (packBits 1 ((List.range g.nc).map (fun i => b2n (decide (0 < mapGet 0 st.absences i)))))

/-- STEP_REPORT (10 R291, 15 Table 3, 19 R490, R492): last outcome, STEP, the address of the MISSING bitmap, FAIL; FAILED after
three abandoned attempts at one step, or where the group could not recover. With no member missing the address is 0; else
the bitmap is written at a place that the spec leaves open, a free value (log 21). -/
def Dev.stepReport (d : Dev) : Nat × List W64 × Dev :=
  let committed := match d.step.group with
    | some g => leAt (d.stepRecord g) 0 4
    | none => 0
  let st := if decide (3 ≤ d.step.abandons) || d.step.unrecovered then svFailed else svOk
  let r (a : W64) : List W64 := [BitVec.ofNat 64 d.step.outcome, BitVec.ofNat 64 committed, a, BitVec.ofNat 64 (b2n d.step.fail)]
  match d.step.group with
  | some g =>
    if d.step.missing = 0 && d.step.absences.isEmpty then (st, r 0, d) else
    let f := d.takeFree
    let a := f.1.toNat % hbmSize / 64 * 64
    (st, r (BitVec.ofNat 64 a), (f.2.memAccess d.stepWho a (.write (d.step.missingMap g))).2.2)
  | none => (st, r 0, d)

/-- STEP_REPORT as a command. -/
def execStepReport (ctx : Nat) (seq : W32) (s : State) : Result :=
  performMem (ctxOk ctx) s (fun _ => Dev.service ctx seq Dev.stepReport)

/-- CHECKPOINT (15 Table 3): a checkpoint of the committed step is written to its destination: the step record, then the
ranges that hold the member's trained state. Which they are, and their order there, the spec leaves open (DESIGN CHOICE,
unsafe, log 21); the sealed flag asks for a destination in a sealed region. -/
def Dev.checkpointTo (step : W64) (dest : Nat) (isSealed : Bool) (ranges : List (Nat × Nat)) (d : Dev) : Nat × List W64 × Dev :=
  match d.step.group with
  | none => answer svInvalid d
  | some g =>
    if d.step.active then answer svBusy d
    else if leAt (d.stepRecord g) 0 4 ≠ step.toNat then answer svInvalid d
    else if isSealed && (match hbmKeys dest 1 with
      | some [k] => (d.sealOf (k / 262144)).isNone
      | _ => true) then answer svDenied d
    else
      let l := (g.stepRec, 64) :: ranges
      let r := d.saveRanges l dest
      if r.1 then answer svOk (r.2.modStep (fun st => { st with checkpoint := some { step := step, dest := dest, ranges := l } }))
      else answer svFailed r.2

/-- CHECKPOINT as a command. -/
def execCheckpoint (ctx : Nat) (seq : W32) (step : W64) (place : SavePlace) (isSealed : Bool) (s : State) : Result :=
  performMem (ctxOk ctx) s (fun _ => Dev.service ctx seq (Dev.checkpointTo step place.addr.toNat isSealed place.ranges))

/-! ## Partitions (15 R404, 16 R414) -/

/-- Clusters 6 and 7 that GC_PARTp names. -/
def Dev.partClusters (d : Dev) (p : Nat) : W32 := d.word (offGc + 0x100 + 4 * p) &&& 3#32

/-- Whether a cluster runs a partition. -/
def Dev.clusterParts (d : Dev) (k : Nat) : Bool := decide (6 ≤ k) && d.gc.parts.any (fun p => fbit (d.partClusters p) (k - 6))

/-- PART_LOAD (15 R404; 16 R414, R416, R419). -/
def Dev.partLoad (p : Nat) (image : List Byte) (d : Dev) : Nat × List W64 × Dev :=
  if 8 ≤ p ∨ d.partClusters p = 0 then answer svInvalid d
  else if d.gc.parts.any (fun o => o != p && (d.partClusters o &&& d.partClusters p) != 0) || (match d.gc.update with
      | some u => decide (6 ≤ u.cluster) && fbit (d.partClusters p) (u.cluster - 6)
      | none => false) then answer svBusy d
  else if !imageWhole 2 image then answer svFailed d
  else
    let d1 := (d.closeAgainst (8 + p)).modSec (fun s => { s with meas := mapDel s.meas (8 + p) })
    answer svOk ((d1.measPut (8 + p) (imDigest image)).modGc (fun g => { g with parts := if g.parts.contains p then g.parts else p :: g.parts }))

/-- PART_LOAD as a command. -/
def execPartLoad (ctx : Nat) (seq : W32) (part : Nat) (image : List Byte) (s : State) : Result :=
  performMem (ctxOk ctx) s (fun _ => Dev.service ctx seq (Dev.partLoad part image))

/-! ## Cluster updates and failover (15 R402, R405; 19 R486) -/

/-- The other cluster of a pair (15 R402). -/
def standby (k : Nat) : Nat := if k % 2 = 0 then k + 1 else k - 1

/-- Whether a cluster is out of service, or its services are about to move. -/
def Dev.clusterOut (d : Dev) (k : Nat) : Bool :=
  d.gc.moved.contains k || d.gc.failed.contains k || (match d.gc.update with
    | some u => u.cluster == k
    | none => false)

/-- Whether an update of a cluster must wait (15 R402, R405). -/
def Dev.updateBusy (d : Dev) (k : Nat) : Bool :=
  d.gc.update.isSome || d.gc.moved.contains k || (if 6 ≤ k then d.clusterParts k else d.clusterOut (standby k))

/-- Load the new image into a cluster (15 R405 step 3; 16 R414, R416). -/
def Dev.updateLoad (u : Update) (d : Dev) : Dev :=
  (d.measExtend 1 u.digest).modSec (fun s => { s with
    stepSince := false, pendFw := if u.commit then some u.svn else s.pendFw })

/-- An update's image is refused (15 R405, 16 R416). -/
def Dev.updateRefuse (d : Dev) : Dev := d.setFlag evSec 1

/-- An update of a cluster begins (15 R405 step 1): none where its image is refused. Clusters 6 and 7 carry no services to
move, so their image is loaded at once. -/
def Dev.updateBegin (l : Life) (ctx : Option Nat) (seq : W32) (k : Nat) (image : List Byte) (d : Dev) : Option Nat × Dev :=
  if imageOk l 1 l.fwSvn image && Config.interfaceFits (imIfver image) then
    let u : Update := { cluster := k, ctx := ctx, seq := seq, digest := imDigest image, svn := imSvn image, commit := imCommit image }
    if 6 ≤ k then (some svOk, d.updateLoad u) else (none, d.modGc (fun g => { g with update := some u }))
  else (some svFailed, d.updateRefuse)

/-- FW_UPDATE (15 R402, R403, R405): for the physical function only, that is, for a context that no virtual function
presents (log 24). It is answered when it has ended. -/
def Dev.fwUpdate (l : Life) (ctx : Nat) (seq : W32) (k : Nat) (image : List Byte) (d : Dev) : Dev :=
  if !d.boot.firmware then d
  else if d.vfOn ctx then d.svcAnswer ctx seq svDenied []
  else if 8 ≤ k then d.svcAnswer ctx seq svInvalid []
  else if d.updateBusy k then d.svcAnswer ctx seq svBusy []
  else match d.updateBegin l (some ctx) seq k image with
    | (some st, d1) => d1.svcAnswer ctx seq st []
    | (none, d1) => d1

/-- FW_UPDATE as a command. -/
def execFwUpdate (ctx : Nat) (seq : W32) (cluster : Nat) (image : List Byte) (s : State) : Result :=
  performMem (ctxOk ctx) s (fun l => Dev.fwUpdate l ctx seq cluster image)

/-- PLDM_FIRMWARE_UPDATE (14 R395, 15 R405): a cluster's update that no context asked for. -/
def execPldmFirmwareUpdate (cluster : Nat) (image : List Byte) (s : State) : Result :=
  perform true s (fun l d =>
    if !d.boot.firmware || decide (8 ≤ cluster) || d.updateBusy cluster then d else (d.updateBegin l none 0 cluster image).2)

/-- CLUSTER_FAILOVER (15 R402, 19 R486): a cluster of a pair stops answering; its services move at the next commit. -/
def execClusterFailover (cluster : Nat) (s : State) : Result :=
  perform true s (fun _ d =>
    if decide (cluster < 6) && d.boot.firmware && !d.clusterOut cluster && !d.clusterOut (standby cluster) then
      d.modGc (fun g => { g with failed := cluster :: g.failed })
    else d)

/-- An update goes on at a commit (15 R405 steps 2 to 4): the services move and the image is loaded; at a later commit they
move back and the request is answered. -/
def Dev.updateCommit (d : Dev) : Dev :=
  match d.gc.update with
  | none => d
  | some u =>
    match u.phase with
    | .accepted => (d.updateLoad u).modGc (fun g => { g with moved := u.cluster :: g.moved, update := some { u with phase := .loaded } })
    | .loaded =>
      let d1 := d.modGc (fun g => { g with moved := g.moved.filter (· != u.cluster), update := none })
      match u.ctx with
      | some c => d1.svcAnswer c u.seq svOk []
      | none => d1

/-- The services of failed clusters move at a commit (15 R402). -/
def Dev.failoverCommit (d : Dev) : Dev :=
  d.modGc (fun g => { g with moved := g.failed.filter (fun k => !g.moved.contains k) ++ g.moved, failed := [] })

/-- What firmware does at a step's commit beside the step itself: services move, SVNs may be burnt, worn tiles are
retired (15 R402, R405; 16 R416; 19 R486). -/
def Dev.commitWork (d : Dev) : Dev :=
  ((d.modSec (fun s => { s with stepSince := true })).failoverCommit.updateCommit).agentCommit

end Sys2Proof.Machine
end

