-- ==== Sys2Proof/Machine/RegView.lean ====
section
/-! DEFINITION. What a register reads as (17 R428-R430, R445 and the field tables of chapters 2 to 19): the fields that hardware sets, beside the software-written words. -/
namespace Sys2Proof.Machine

/-- A number as a register word. -/
def w32 (n : Nat) : W32 := BitVec.ofNat 32 n
/-- The low half of a pair at its first word, the high half at the next. -/
def halfOf (v : W64) (k : Nat) : W32 := if k = 0 then lo32 v else hi32 v
/-- The little-endian word at a byte offset of a byte string. -/
def wordAt (bs : List Byte) (k : Nat) : W32 := w32 (leAt bs k 4)
/-- The element and the distance within it of an offset in an array of n elements of a stride from a base. -/
def inArray (off base stride n : Nat) : Option (Nat × Nat) :=
  if base ≤ off ∧ off < base + stride * n then some ((off - base) / stride, (off - base) % stride) else none

/-! ## ID and CFG (17 Tables 4 to 6) -/

/-- The identity and the capability words of this member (17 R445, Tables 4 and 5). -/
def idWord (o : Nat) : W32 :=
  match o with
  | 0x00 => w32 (0x0F37 + 0x10000)
  | 0x04 => w32 (0x0640 + 0xB0 * 0x10000)
  | 0x08 => w32 (2 * 0x10000)
  | 0x10 => lo32 Config.serial
  | 0x14 => hi32 Config.serial
  | 0x20 => w32 (4 + 72 * 2 ^ 4 + 68 * 2 ^ 12 + 1 * 2 ^ 20 + 4 * 2 ^ 24)
  | 0x24 => w32 (256 + 128 * 2 ^ 24)
  | 0x28 => w32 (24576 + 4096 * 2 ^ 16)
  | 0x2C => w32 (8 + 80 * 2 ^ 4 + 32 * 2 ^ 12)
  | 0x30 => w32 (32 + 8 * 2 ^ 6 + 1 * 2 ^ 10 + 850 * 2 ^ 12)
  | 0x34 => w32 (32 + 8 * 2 ^ 6 + 4 * 2 ^ 10 + 3000 * 2 ^ 16)
  | 0x38 => w32 (64 + 1024 * 2 ^ 7 + 256 * 2 ^ 18)
  | 0x3C => w32 (1750 + 2100 * 2 ^ 16)
  | 0x40 => w32 (1600 + 1600 * 2 ^ 16)
  | 0x44 => w32 (16384 + 256 * 2 ^ 15 + 96 * 2 ^ 24)
  | 0x48 => 0x000FFFFF#32
  | 0x4C => 0x000003FF#32
  | 0x50 => w32 (4 + 64 * 2 ^ 3 + 8 * 2 ^ 11)
  | _ => 0#32

/-- CFG_CRC_STATUS.STATE (17 Table 6). -/
def CrcMode.num : CrcMode → Nat
  | .off => 0 | .comparing => 1 | .holding => 2 | .committing => 3

/-- The CFG block's read-only words. -/
def Dev.cfgView (d : Dev) (o : Nat) : Option W32 :=
  match o with
  | 0x0C => some d.regs.crcCur
  | 0x10 => some (w32 (d.regs.crcMode.num + 4 * b2n d.regs.crcMatch + 2 ^ 16 * d.regs.crcPasses.toNat))
  | 0x14 => some d.regs.crcWords
  | 0x20 => some d.regs.sqStale
  | _ => none

/-! ## FE and CQ (12 Tables 10 and 12) -/

/-- FE_SQq_STATE.STATE of a queue not FREE (12 Table 10). -/
def SqMode.num : SqMode → Nat
  | .enabled => 1 | .paused => 2 | .stopped => 3 | .draining => 4 | .tombstone => 5
/-- The states of a completion queue not FREE. -/
def CqMode.num : CqMode → Nat
  | .active => 1 | .stalled => 2

/-- FE_SQq_STATE, _HEAD, _TAIL and _RUNNING. -/
def SqState.view (s : SqState) (k : Nat) : Option W32 :=
  match k with
  | 0x04 => some (w32 (s.mode.num + 8 * b2n s.sched + 16 * b2n s.window.isSome + 32 * b2n s.loc + 64 * (s.log2 % 32) + 2048 * (s.cq % 256)))
  | 0x08 => some s.head
  | 0x0C => some s.tail
  | 0x14 => some (w32 (s.running % 256))
  | _ => none
/-- CQ_RINGc_HEAD to _BASE_HI. -/
def CqState.view (s : CqState) (k : Nat) : Option W32 :=
  match k with
  | 0x04 => some s.head
  | 0x08 => some s.tail
  | 0x0C => some (w32 (s.mode.num + 4 * b2n (s.full (s.tail + 1)) + 8 * (s.hold.length % 128)))
  | 0x14 => some (w32 (s.log2 % 32 + 32 * b2n s.loc + 64 * b2n s.irqAll + 128 * (s.vec % 2048)))
  | 0x18 => some (lo32 s.base)
  | 0x1C => some (hi32 s.base)
  | _ => none

/-- The front end's read-only words. -/
def Dev.feView (d : Dev) (off : Nat) : Option W32 :=
  if off = 0x100004 then some (w32 (b2n d.feFrozen))
  else if off = 0x100010 then some d.fe.dbErr
  else match inArray off 0x110000 0x20 1024 with
  | some (q, k) => (d.sq q).bind (fun s => s.view k)
  | none => match inArray off 0x180000 0x1000 64 with
    | some (c, 0x08) => some (d.admin c).head
    | some (c, 0x0C) => (d.cq (256 + c)).map (fun s => s.tail)
    | some (c, 0x24) => (d.cq (256 + c)).map (fun s => w32 (s.mode.num + 4 * (s.hold.length % 128)))
    | some _ => none
    | none => match inArray off 0x200000 0x1000 256 with
      | some (c, k) => (d.cq c).bind (fun s => s.view k)
      | none => none

/-! ## TIL (03 Tables 7 to 10) -/

/-- TIL_Hh_STATE.STATE: a tile waiting for its clear shows STOPPED, each half of a lulled one LULL (03 Table 8, 11 R311, 16 R422). -/
def Dev.halfCode (d : Dev) (t h : Nat) : Nat :=
  if d.sec.clearing.contains t then 4
  else if (d.tile t).lulled then 3
  else match (d.half t h).mode with
  | .idle => 0 | .run => 1
  | .wait => 2
  | .stopped => 4 | .frozen => 5

/-- The registers of a half. -/
def Dev.halfView (d : Dev) (t h k : Nat) : Option W32 :=
  let s := d.half t h
  match k with
  | 0x00 => some (w32 (d.halfCode t h + 8 * (s.bank % 2) + 16 * b2n (d.tile t).twin + 2 ^ 8 * (s.aq.length % 32) + 2 ^ 13 * (s.vq.length % 64) + 2 ^ 19 * (s.mq.length % 64)))
  | 0x04 => some (w32 (s.pc % 16384))
  | 0x0C => some s.faultPc
  | 0x10 => some (lo32 s.rescale)
  | 0x14 => some (hi32 s.rescale)
  | 0x18 => some s.sat
  | 0x20 => some (w32 (s.drBase / 64 * 64 % 2 ^ 25))
  | 0x24 => some (w32 (s.drLen / 64 * 64 % 2 ^ 19))
  | 0x28 => some (w32 (s.drStat % 4 + 4 * b2n s.drKernel))
  | 0x30 => some (lo32 s.doorbell)
  | 0x34 => some (hi32 s.doorbell)
  | _ => none

/-- A tile's page. -/
def Dev.tilView (d : Dev) (t k : Nat) : Option W32 :=
  match k with
  | 0x00 => some (w32 (d.physOf t + 128 * (d.quadOf t) + 65536 * t))
  | 0x10 => some (lo32 (d.tile t).active)
  | 0x14 => some (hi32 (d.tile t).active)
  | _ => (inArray k 0x100 0x40 2).bind (fun x => d.halfView t x.1 x.2)

/-! ## MEM and the seal table (07 Tables 8 to 10) -/

/-- A stack's registers. -/
def Dev.memView (d : Dev) (s k : Nat) : Option W32 :=
  let m := d.stack s
  let lost := (m.remap.filter (fun e => e.2.2 != 0)).length
  match k with
  | 0x00 => some (w32 (b2n m.present + 2 * b2n m.trained + 4 * b2n m.scrubbing + 8 * b2n m.pprBusy + 256 * (m.temp % 256)))
  | 0x10 => some (lo32 m.ceCnt)
  | 0x14 => some (hi32 m.ceCnt)
  | 0x18 => some m.ueCnt
  | 0x20 => some (lo32 m.errAddr)
  | 0x24 => some (hi32 m.errAddr)
  | 0x28 => some m.errInfo
  | 0x34 => some (w32 ((match m.status with | .idle => 0 | .busy => 1 | .done => 2 | .refused => 3) + 65536 * (8192 - m.remap.length)))
  | 0x38 => some (w32 ((match m.lostSel with
      | some g => ((mapFind m.remap g).map (fun e => e.2.toNat)).getD 0 + 2 ^ 30
      | none => 0) + 65536 * (lost % 16384)))
  | 0x3C => some (match m.lostSel with
      | some g => w32 (g / 4194304 % 32 + 32 * (g % 4194304))
      | none => 0)
  | _ => none

/-- A seal entry's registers. -/
def SealEntry.view (e : SealEntry) (k : Nat) : Option W32 :=
  match k with
  | 0x00 => some (w32 (e.base % 2 ^ 22))
  | 0x04 => some (if e.mode = .free then 0 else w32 (e.rows % 2 ^ 22))
  | 0x08 => some (w32 (e.owner % 256))
  | 0x0C => some (w32 e.access.toNat)
  | 0x10 => some (w32 ((match e.mode with | .free => 0 | .opened => 1 | .closing => 2) + 65536 * e.gen.toNat))
  | _ => none

/-! ## VAT, CHN and BRZ (08 Tables 13 and 14) -/

def Dev.vatView (d : Dev) (s k : Nat) : Option W32 :=
  match k with
  | 0x10 => some (w32 ((d.vat s).status % 4 + 256 * ((d.vat s).reason % 256)))
  | 0x14 => some (w32 (d.vatActive s % 512))
  | 0x20 => some (d.vat s).late
  | 0x24 => some (d.vat s).refused
  | _ => none
def Dev.churnView (d : Dev) (s k : Nat) : Option W32 :=
  let c := d.churn s
  match k with
  | 0x00 => some (w32 (b2n (decide (c.phase ≠ .idle)) + 2 * b2n (decide (c.phase = .waiting)) + 256 * (c.block % 2 ^ 20)))
  | 0x10 => some (lo32 c.blocks)
  | 0x14 => some (hi32 c.blocks)
  | _ => none
def Dev.breezeView (d : Dev) (s k : Nat) : Option W32 :=
  let b := d.breeze s
  match k with
  | 0x00 => some (w32 (b2n b.busy))
  | 0x0C => some b.sat
  | 0x10 => some (lo32 b.bytes)
  | 0x14 => some (hi32 b.bytes)
  | _ => none

/-! ## SYN (11 Tables 7 and 9) and FT (02 Tables 4, 7 to 9) -/

def Dev.synView (d : Dev) (o : Nat) : Option W32 :=
  match o with
  | 0x08 => some (w32 (d.sync.lead % 65536 + 65536 * 1000))
  | 0x10 => some (w32 (d.sync.held % 512 + 65536 * (d.sync.peak % 512)))
  | 0x14 => some (w32 (d.sync.ledger.length % 8192))
  | 0x18 => some d.sync.retryCnt
  | _ => match inArray o 0x1000 0x10 96 with
    | some (n, 0x0C) => some (mapGet 0 d.sync.hits n)
    | some _ => none
    | none => match inArray o 0x4000 0x20 256 with
      | some (n, 0x1C) => some (w32 (b2n (d.vane n).broken + 2 * ((d.vane n).fwd % 2 ^ 31)))
      | _ => none

def Dev.ftView (d : Dev) (o : Nat) : Option W32 :=
  match o with
  | 0x00 => some (lo32 d.ft.now)
  | 0x04 => some (hi32 d.ft.now)
  | 0x08 => some (lo32 d.sched)
  | 0x0C => some (hi32 d.sched)
  | 0x18 => some (w32 (d.ft.mode.num + 8 * (d.ft.parent.getD 0) + 256 * b2n d.ft.parent.isSome + 512 * (d.ft.hops % 32) + 16384 * b2n d.ft.external))
  | 0x1C => some (w32 (d.masterNode % 2 ^ 20 + 2 ^ 20 * (d.ft.masterPrio % 256)))
  | 0x20 => some d.ft.offset
  | 0x24 => some (lo32 d.ft.incr)
  | 0x28 => some (hi32 d.ft.incr)
  | 0x40 => some (lo32 d.ft.slip)
  | 0x44 => some (hi32 d.ft.slip)
  | 0x4C => some (w32 (d.ft.applied.toNat + 65536 * d.ft.late.toNat))
  | 0x58 => some (lo32 d.ft.ppsCap)
  | 0x5C => some (hi32 d.ft.ppsCap)
  | _ => none

/-! ## LNK (13 Table 15) -/

/-- LNK_Ln_STATE.STATE. -/
def PortMode.num : PortMode → Nat
  | .disabled => 0 | .detect => 1 | .train => 2 | .align => 3 | .exchange => 4 | .active => 5 | .drained => 6 | .retrain => 7
  | .lost => 8 | .fault => 9

def Dev.portView (d : Dev) (p k : Nat) : Option W32 :=
  let s := d.port p
  match k with
  | 0x04 => some (w32 (s.mode.num + 16 * (s.lanes % 16) + 256 * b2n (s.rxSpare.isSome || s.txSpare.isSome) + 512 * b2n s.isSealed +
      1024 * b2n s.sameDomain + 2048 * b2n s.usable + 4096 * (s.reason % 8)))
  | 0x08 => some (w32 (s.partnerNode % 2 ^ 20 + 2 ^ 20 * (s.partnerPort % 32)))
  | 0x0C => some s.rtt
  | 0x10 => some s.delay
  | 0x18 => some s.offB
  | 0x20 => some (w32 (s.failed.toNat + 512 * (s.rxSpare.getD 0 % 16) + 8192 * b2n s.rxSpare.isSome + 16384 * (s.txSpare.getD 0 % 16) + 2 ^ 18 * b2n s.txSpare.isSome))
  | 0x40 => some (lo32 s.fecCorr)
  | 0x44 => some (hi32 s.fecCorr)
  | 0x48 => some s.fecUncorr
  | 0x4C => some s.crcErr
  | 0x50 => some s.replayCnt
  | 0x54 => some s.sealFail
  | 0x58 => some s.noRoute
  | 0x5C => some s.badType
  | _ => if 0x100 ≤ k ∧ k < 0x140 then some (wordAt (d.ownRecord p) (k - 0x100))
    else if 0x140 ≤ k ∧ k < 0x180 then some (wordAt s.partnerRec (k - 0x140)) else none

/-! ## PCI (14 Table 5) -/

/-- A word of an MSI-X table entry (14 R393). -/
def MsixEntry.view (e : MsixEntry) (k : Nat) : W32 :=
  match k with
  | 0x0 => lo32 e.addr
  | 0x4 => hi32 e.addr
  | 0x8 => e.data
  | _ => w32 (b2n e.masked)
/-- A function's MSI-X entry. -/
def Dev.msixEntry (d : Dev) (f i : Nat) : MsixEntry := mapGet {} d.pci.msix (2048 * f + i)
/-- A word of a function's pending bits. -/
def Dev.pbaWord (d : Dev) (f k : Nat) : W32 :=
  w32 (((List.range 32).map (fun i => b2n (d.msixEntry f (8 * k + i)).pending * 2 ^ i)).foldl (· + ·) 0)

def Dev.pciView (d : Dev) (o : Nat) : Option W32 :=
  match o with
  | 0x00 => some (w32 (d.pci.rate % 8 + 8 * (d.pci.width % 32) + 256 * b2n d.pci.flit))
  | 0x20 => some d.pci.urCnt
  | 0x24 => some d.pci.caCnt
  | 0x28 => some d.pci.poison
  | 0x2C => some d.pci.cplTo
  | _ => match inArray o 0x10000 0x10 2048 with
    | some (i, k) => some ((d.msixEntry 0 i).view k)
    | none => if 0x18000 ≤ o ∧ o < 0x18100 then some (d.pbaWord 0 (o - 0x18000)) else none

/-! ## GC, ING, SEC (15 Table 8, 16 Table 8) -/

/-- Whether a cluster is held for its new image (15 R405). -/
def Dev.updating (d : Dev) (k : Nat) : Bool :=
  match d.gc.update with
  | some u => u.cluster == k && decide (u.phase = .loaded)
  | none => false
/-- A cluster's state in GC_STATE (15 Table 8). -/
def Dev.clusterState (d : Dev) (k : Nat) : Nat :=
  if !fbit (d.word offGc) k then 0
  else if d.updating k then 3
  else if d.clusterParts k then 2 else 1
def Dev.gcState (d : Dev) : W32 := w32 (((List.range 8).map (fun k => d.clusterState k * 4 ^ k)).foldl (· + ·) 0)

def Dev.ingView (d : Dev) (n k : Nat) : Option W32 :=
  if k = 0x10 then some (d.ingest n).done
  else match inArray k 0x100 0x20 4 with
  | some (r, 0x10) => some (d.ringHead n r)
  | _ => none

def Dev.secView (l : Life) (d : Dev) (o : Nat) : Option W32 :=
  match o with
  | 0x00 => some (d.secState l)
  | 0x04 => some l.svnWord
  | 0x08 => some (d.word (offSec + 8) ||| w32 (65536 * d.sec.refused.toNat))
  | 0x10 => some (lo32 d.sec.confined)
  | 0x14 => some (hi32 d.sec.confined)
  | _ => (inArray o 0x1000 0x40 16).map (fun x => wordAt (d.meas x.1) x.2)

/-! ## PWR, CLK, RAS (18 Tables 7 and 8, 19 Table 6) -/

/-- The TEMP of a physical tile's sensor, which the board's surroundings set: a free value (log 22). -/
def Dev.tileTemp (d : Dev) (p : Nat) : Nat := (Config.freeWord (d.free + p)).toNat % 256

def Dev.pwrView (d : Dev) (o : Nat) : Option W32 :=
  match inArray o 0x100 0x20 4 with
  | some (q, 0x08) =>
    let s := d.quad q
    some (w32 (s.ceil % 4096 + 2 ^ 12 * (d.lentCount q % 32) + 2 ^ 17 * ((d.pool q).length % 32) + 2 ^ 22 * b2n s.warm + 2 ^ 23 * b2n s.hot +
      2 ^ 24 * b2n s.crit + 2 ^ 25 * b2n s.limiting + 2 ^ 26 * b2n s.rise.isSome))
  | some (q, 0x0C) => some (w32 ((d.quad q).temp % 256))
  | some (q, 0x10) => some (w32 ((d.quad q).amps % 4096))
  | some _ => none
  | none => match inArray o 0x200 0x10 6 with
    | some (r, 0x0) => some ((d.rail r).mv.setWidth 32)
    | some (r, 0x4) => some ((d.rail r).deciA.setWidth 32)
    | some (r, 0x8) => some ((d.rail r).degC.setWidth 32)
    | some (r, 0xC) => some (w32 ((d.rail r).status.toNat + 256 * b2n (d.rail r).fault))
    | some _ => none
    | none => (inArray o 0x1000 4 72).map (fun x => w32 (d.tileTemp x.1 + 65536 * (mapGet 0 d.pwr.droops x.1).toNat))

/-- RAS_PTILEp.STATE. -/
def PhysMode.num : PhysMode → Nat
  | .active => 0 | .spare => 1 | .retired => 2 | .retiring => 3
def Dev.ptileWord (d : Dev) (p : Nat) : W32 :=
  let m := d.physMode p
  w32 (m.num + 4 * (if m = .active then d.logicalOf p else 0) + 65536 * (d.phys p).ce + 2 ^ 24 * (d.phys p).ue)
def Dev.bridgeWord (d : Dev) : W32 :=
  w32 (((List.range 4).map (fun b =>
    let x := d.bridge b
    ((if x.lost then 2 else if 0 < x.spares then 1 else 0) + 4 * x.spares) * 256 ^ b)).foldl (· + ·) 0)

/-- The RAS block; PTILE stands where the two arrays of R493 meet (19 R493, log 23). -/
def Dev.rasView (d : Dev) (o : Nat) : Option W32 :=
  match o with
  | 0x1C => some d.ras.count
  | 0x28 => some (w32 (d.ras.status % 4 + 256 * (d.ras.result % 256) + 65536 * (d.ras.newPhys % 128)))
  | 0x2C => some d.bridgeWord
  | _ => match inArray o 0x200 4 72 with
    | some (p, _) => some (d.ptileWord p)
    | none => (inArray o 0x100 4 68).map (fun x => w32 (d.physOf x.1))

/-! ## Any register (17 R429) -/

/-- The hardware-set word at an offset, if the register has one. -/
def Dev.regView (l : Life) (d : Dev) (off : Nat) : Option W32 :=
  if off < 0x10000 then some (idWord off)
  else if (eventBlock off).isSome then some (w32 ((d.event off).flags.toNat + 65536 * (d.event off).seq.toNat))
  else if off < 0x20000 then d.cfgView (off - 0x10000)
  else if off < 0x300000 then d.feView off
  else match inArray off 0x1000000 0x10000 68 with
  | some (t, k) => d.tilView t k
  | none => match inArray off 0x2010000 0x10000 8 with
  | some (s, k) => d.memView s k
  | none => match inArray off 0x2100000 0x20 64 with
  | some (e, k) => (d.sealEntry e).view k
  | none => match inArray off 0x2400000 0x1000 8 with
  | some (s, k) => d.vatView s k
  | none => match inArray off 0x2501000 0x1000 8 with
  | some (s, k) => d.churnView s k
  | none => match inArray off 0x2600000 0x1000 8 with
  | some (s, k) => d.breezeView s k
  | none => match inArray off 0x2800000 0x6000 1 with
  | some (_, k) => d.synView k
  | none => match inArray off 0x2A00000 0x1000 1 with
  | some (_, k) => d.ftView k
  | none => match inArray off 0x3000000 0x10000 32 with
  | some (p, k) => d.portView p k
  | none =>
    if off = 0x3200028 then some d.lnk.noRouteOrigin
    else if 0x3400000 ≤ off ∧ off < 0x3418100 then d.pciView (off - 0x3400000)
    else if off = 0x3600004 then some d.gcState
    else match inArray off 0x3700000 0x1000 4 with
    | some (n, k) => d.ingView n k
    | none =>
      if 0x3800000 ≤ off ∧ off < 0x3801400 then d.secView l (off - 0x3800000)
      else if 0x3A00000 ≤ off ∧ off < 0x3A10000 then d.pwrView (off - 0x3A00000)
      else if off = 0x3B00000 then some (w32 d.pwr.locks.toNat)
      else if 0x3C00000 ≤ off ∧ off < 0x3C10000 then d.rasView (off - 0x3C00000)
      else none

/-- What a register reads as: the hardware-set word, else the software-written one; a reserved offset reads as zero
(17 R429). -/
def Dev.regRead (l : Life) (d : Dev) (off : Nat) : W32 :=
  match d.regView l off with
  | some w => w
  | none => if (findRow off).isSome then d.word off else 0

/-- Whether an offset is the _LO of a 64-bit pair (17): a pair whose halves are both RW, or a hardware-set one. -/
def roPairs : List (Nat × List (Nat × Nat)) := [
  (0x10, []), (0x200018, [(256, 0x1000)]), (0x1000010, [(68, 0x10000)]), (0x1000110, [(68, 0x10000), (2, 0x40)]),
  (0x1000130, [(68, 0x10000), (2, 0x40)]), (0x2010010, [(8, 0x10000)]), (0x2010020, [(8, 0x10000)]), (0x2501010, [(8, 0x1000)]),
  (0x2600010, [(8, 0x1000)]), (0x2A00000, []), (0x2A00008, []), (0x2A00024, []), (0x2A00040, []), (0x2A00058, []),
  (0x3000040, [(32, 0x10000)]), (0x3800010, []) ]
def isLo (off : Nat) : Bool := isPairLo off || roPairs.any (fun r => decide (r.1 ≤ off) && dimsHit r.2 (off - r.1))

/-- CFG_COMPAT.SHADOW64 and W1C (17 Table 6). -/
def Dev.shadow64 (d : Dev) : Bool := fbit (d.word 0x10000) 0
def Dev.w1c (d : Dev) : Bool := fbit (d.word 0x10000) 1

/-- A read by a requester (17 R432, R436): in shadow mode a read of a _LO copies its _HI, which the requester's next access
uses if it reads that _HI, and drops otherwise. -/
def Dev.regFetch (l : Life) (req : Req) (off : Nat) (d : Dev) : W32 × Dev :=
  let s := d.regs.shadows.find? (fun s => s.req == req && s.pair + 4 == off)
  let d1 := d.dropShadow req
  match s with
  | some s => (s.hi, d1)
  | none =>
    (d.regRead l off,
      if d.shadow64 && isLo off then
        { d1 with regs := { d1.regs with shadows := { req := req, pair := off, hi := d.regRead l (off + 4) } :: d1.regs.shadows } }
      else d1)

end Sys2Proof.Machine
end

