-- ==== Sys2Proof/Machine/Security.lean ====
section
/-! DEFINITION. The commands of security (16), of the interfaces of 14 R394, and of the seal exchange. -/
namespace Sys2Proof.Machine

/-- LOCK_INTERFACE (16 R424): an unlocked TDI of an enabled virtual function is locked, over the SPDM session. -/
def execLockInterface (ctx : Nat) (s : State) : Result :=
  perform (ctxOk ctx) s (fun _ d =>
    if d.pci.session.isSome && d.vfOn ctx && decide (d.tdiOf ctx = .unlocked) then d.setTdi ctx .locked else d)

/-- START_INTERFACE (16 R424). -/
def execStartInterface (ctx : Nat) (s : State) : Result :=
  perform (ctxOk ctx) s (fun _ d =>
    if d.pci.session.isSome && decide (d.tdiOf ctx = .locked) then d.setTdi ctx .run else d)

/-- STOP_INTERFACE (16 R424). -/
def execStopInterface (ctx : Nat) (s : State) : Result :=
  perform (ctxOk ctx) s (fun _ d => if d.pci.session.isSome then d.setTdi ctx .unlocked else d)

/-- TDI_ERROR (14 R394). -/
def execTdiError (ctx : Nat) (s : State) : Result := perform (ctxOk ctx) s (fun _ => Dev.tdiFail ctx)

/-- SPDM_KEY_EXCHANGE (16 R418): a session is established; no report has been obtained in it. -/
def execSpdmKeyExchange (session : Nat) (s : State) : Result :=
  perform true s (fun _ d =>
    if d.boot.firmware then { d with pci := { d.pci with session := some session, reported := false } } else d)

/-- IDE_KM (14 R394, 16 R424): the key of a function's selective stream, over the session. -/
def execIdeKm (func : Nat) (key : List Byte) (s : State) : Result :=
  perform (funcOk func) s (fun l d =>
    if d.boot.firmware && d.pci.session.isSome && !l.debugOpen then
      { d with pci := { d.pci with funcs := mapMod {} d.pci.funcs func (fun f => { f with ideKey := sliceB key 0 32 }) } }
    else d)

/-- GET_MEASUREMENTS (16 R417). -/
def execGetMeasurements (nonce : List Byte) (s : State) : Result :=
  perform (decide (nonce.length = 32)) s (fun l => Dev.measReport l nonce)

/-- OPEN_REGION (16 R418-R420). -/
def execOpenRegion (expect : Expect) (entry base rows owner access : Nat) (secret : List Byte) (s : State) : Result :=
  perform true s (fun l =>
    Dev.releaseReq l expect (Dev.regionOpen expect entry base rows owner access secret))

/-- CLOSE_REGION (16 R418). -/
def execCloseRegion (expect : Expect) (entry : Nat) (s : State) : Result :=
  perform true s (fun l => Dev.releaseReq l expect (Dev.regionCloseReq entry))

/-- BIND_INGEST_KEY (16 R418). -/
def execBindIngestKey (expect : Expect) (slot owner : Nat) (key : List Byte) (s : State) : Result :=
  perform true s (fun l => Dev.releaseReq l expect (Dev.keyBind expect slot owner key))

/-- UNBIND_INGEST_KEY (16 R418). -/
def execUnbindIngestKey (expect : Expect) (slot : Nat) (s : State) : Result :=
  perform true s (fun l => Dev.releaseReq l expect (Dev.keyUnbindReq slot))

/-- CONFINE (16 R418, R421). -/
def execConfine (expect : Expect) (ctx : Nat) (s : State) : Result :=
  perform true s (fun l => Dev.releaseReq l expect (fun d =>
    if ctx < 64 then (.done, [], d.confine ctx) else (.denied, [], d)))

/-- WRAP (16 R418). -/
def execWrap (expect : Expect) (blob : List Byte) (s : State) : Result :=
  perform true s (fun l => Dev.releaseReq l expect (fun d =>
    (.done, Config.wrapBlob d.sec.sealRoot blob, d)))

/-- UNWRAP (16 R418): the key itself goes to no register, memory or answer. -/
def execUnwrap (expect : Expect) (blob : List Byte) (s : State) : Result :=
  perform true s (fun l => Dev.releaseReq l expect (fun d =>
    match Config.unwrapBlob d.sec.sealRoot blob with
    | some _ => (.done, [], d)
    | none => (.denied, [], d)))

/-- MEASUREMENT_EXTEND (16 R414, R419). -/
def execMeasurementExtend (slot : Nat) (digest : List Byte) (s : State) : Result :=
  perform true s (fun _ => Dev.measExtend slot digest)

/-- CONFINED_TILE_CLEAR (16 R422). -/
def execConfinedTileClear (t : Nat) (s : State) : Result := perform (halfOk t 0) s (fun _ => Dev.tileClear t)

/-- REGION_ZEROED (07 R197). -/
def execRegionZeroed (entry : Nat) (s : State) : Result := perform true s (fun _ => Dev.regionZero entry)

/-- DEBUG_OPENING (16 R425, R426). -/
def execDebugOpening (nonce token : List Byte) (scope : W32) (keyIndex : Nat) (s : State) : Result :=
  performLife true s (debugOpen nonce token scope keyIndex)

/-- The fuses burnt for an image with COMMIT_SVN after the first committed step (16 R416). -/
def svnBurn (l : Life) (d : Dev) : Life × Dev :=
  if d.sec.stepSince && d.boot.firmware then
    ({ l with
        loaderSvn := Nat.max l.loaderSvn (d.sec.pendLoader.getD 0)
        fwSvn := Nat.max l.fwSvn (d.sec.pendFw.getD 0) },
      d.modSec (fun s => { s with pendLoader := none, pendFw := none }))
  else (l, d)

/-- SVN_COMMIT (16 R416). -/
def execSvnCommit (s : State) : Result := performLife true s svnBurn

/-- SEAL_MSG (16 R423). -/
def execSealMsg (p : Nat) (pk : Packet) (chainOk : Bool) (s : State) : Result :=
  perform (isPacket p pk 0x24) s (fun _ d => (d.takeRx p pk).takeSeal p pk.data chainOk)

/-- LINK_REKEY (16 R423). -/
def execLinkRekey (p : Nat) (s : State) : Result := perform (portOk p) s (fun _ => Dev.rekey p)

end Sys2Proof.Machine
end

