-- ==== Sys2Proof/Machine/RegWrite.lean ====
section
/-! DEFINITION. A write of any register by a requester (17 R431-R438, R442-R444, R449; 16 R424): each register's own behaviour, block by block. -/
namespace Sys2Proof.Machine

/-! ## Events, the check and the interrupt table -/

/-- A write of an event register (17 R438, R449): a stale one is ignored and counted. -/
def Dev.seqClear (off : Nat) (v : W32) (d : Dev) : Dev :=
  let e := d.event off
  let kept := e.flags &&& ~~~v.setWidth 16
  if d.w1c || (e.pend.isNone && decide ((v >>> 16).setWidth 16 = e.seq)) then d.putEvent off { e with flags := kept }
  else { d with regs := { d.regs with sqStale := d.regs.sqStale + 1 } }

/-- CFG_CRC_STATUS.STATE outside a commit, by EN and HOLD (17 R443, R444; log 26). -/
def crcRest (ctl : W32) : CrcMode := if !fbit ctl 0 then .off else if fbit ctl 2 then .holding else .comparing

/-- A write of CFG_CRC_CTL (17 R443, R444): HOLD set while comparing stops it only after the pass under way; COMMIT waits for
the first pass that starts after it; clearing FREEZE or EN ends a freeze. -/
def Dev.crcCtl (req : Req) (v : W32) (d : Dev) : Dev :=
  let d1 := storeReg req 0x10004 v d
  let c := d1.word 0x10004
  let commit := fbit v 3
  let mode := if commit then .committing else
    match d.regs.crcMode with
    | .committing => .committing
    | .comparing => if fbit c 0 then .comparing else .off
    | .holding => crcRest c
    | .off => crcRest c
  { d1 with regs := { d1.regs with
      crcMode := mode
      crcArmed := d1.regs.crcArmed && !commit
      crcBad := d1.regs.crcBad && fbit c 0
      crcFrozen := d1.regs.crcFrozen && fbit c 0 && fbit c 1 } }

/-- Send a pending message that nothing holds back any more (14 R393). -/
def Dev.msixFlush (f i : Nat) (d : Dev) : Dev :=
  let k := 2048 * f + i
  let e : MsixEntry := mapGet {} d.pci.msix k
  if e.pending then
    ({ d with pci := { d.pci with msix := mapPut d.pci.msix k { e with pending := false } } }).msixSend f i
  else d

/-- Send every pending message of a function that may now go. -/
def Dev.msixFlushAll (f : Nat) (d : Dev) : Dev :=
  runAll ((d.pci.msix.filter (fun e => e.2.pending && e.1 / 2048 == f)).map (fun e => e.1 % 2048)) (fun i d => d.msixFlush f i) d

/-- A write of a word of an MSI-X table entry (14 R393): clearing the mask bit sends a pending message. -/
def Dev.msixWrite (f i k : Nat) (v : W32) (d : Dev) : Dev :=
  let key := 2048 * f + i
  let e : MsixEntry := mapGet {} d.pci.msix key
  let e1 : MsixEntry := match k with
    | 0x0 => { e with addr := of32 v (hi32 e.addr) }
    | 0x4 => { e with addr := of32 (lo32 e.addr) v }
    | 0x8 => { e with data := v }
    | 0xC => { e with masked := fbit v 0 }
    | _ => e
  ({ d with pci := { d.pci with msix := mapPut d.pci.msix key e1 } }).msixFlush f i

/-! ## Items that a locked interface holds (16 R424) -/

/-- The context whose interface locks a register: a window, a vector window, an allotment of engines, or a queue's owner. -/
def Dev.itemCtx (d : Dev) (off : Nat) : Option Nat :=
  match inArray off 0x3401000 0x10 64 with
  | some (c, _) => some c
  | none => match ctxTilesOff off with
    | some (c, _) => some c
    | none => match sqOwnerOff off with
      | some q => d.sqOwner q
      | none => match cqOwnerOff off with
        | some _ => if fbit (d.word off) 6 then some (fld (d.word off) 5 0) else none
        | none => none

/-- A write made, unless it would change an item that a locked or running interface holds: that is ignored and moves the
interface to ERROR. -/
def Dev.guardTdi (off : Nat) (f : Dev → Dev) (d : Dev) : Dev :=
  match d.itemCtx off with
  | none => f d
  | some c =>
    let d1 := f d
    if (decide (d.tdiOf c = .locked) || decide (d.tdiOf c = .run)) &&
        decide (d1.word off ≠ d.word off ∨ d1.word (off - 4) ≠ d.word (off - 4)) then d.tdiFail c
    else d1

/-! ## The blocks -/

/-- FE and CQ (12 Tables 9 to 12). -/
def Dev.feWrite (req : Req) (off : Nat) (v : W32) (d : Dev) : Dev :=
  if (ctxTilesOff off).isSome || (sqOwnerOff off).isSome || (cqOwnerOff off).isSome then d.guardTdi off (Dev.allotWrite req off v)
  else if off = offFe then
    let d1 := storeReg req off v d
    if fbit v 0 then d1.modPwr (fun p => { p with feSeen := true }) else d1
  else match inArray off 0x110000 0x20 1024 with
    | some (q, 0x10) =>
      match fld v 1 0 with
      | 1 => d.sqPause q
      | 2 => d.sqStop q
      | 3 => d.sqResume q
      | _ => d
    | some _ => d
    | none => match inArray off 0x180000 0x1000 64 with
      | some (c, 0x00) => d.admBell c v
      | some (c, 0x04) => d.cqBell (256 + c) v
      | some (c, 0x20) => d.admCfgWrite req c v
      | some (c, 0x28) => if fbit v 0 then d.cqResume (256 + c) else d
      | some (c, 0x2C) => d.svcBell c v
      | some _ => storeReg req off v d
      | none => match inArray off 0x200000 0x1000 256 with
        | some (c, 0x00) => d.cqBell c v
        | some (c, 0x10) => if fbit v 0 then d.cqResume c else d
        | _ => storeReg req off v d

/-- TIL (03 Tables 7 to 10). -/
def Dev.tilWrite (req : Req) (t k : Nat) (v : W32) (d : Dev) : Dev :=
  if k = 4 then d.tilCtl req t v
  else match inArray k 0x100 0x40 2 with
    | some (h, 0x1C) => d.tilRelease t h v
    | some (h, 0x2C) => d.tilDoorbell t h v
    | _ => storeReg req (offTil t + k) v d

/-- MEM (07 Tables 8 and 9): FIRST is taken where both bits of LOST_CMD are written. -/
def Dev.memWrite (req : Req) (s k : Nat) (v : W32) (d : Dev) : Dev :=
  match k with
  | 0x30 =>
    match fld v 28 27 with
    | 0 => d.retireCmd s v
    | 1 => d.releaseCmd s v
    | 2 => d.spprCmd s v
    | _ => d
  | 0x40 => if fbit v 0 then d.lostFirst s else if fbit v 1 then d.lostNext s else d
  | _ => storeReg req (offMem s + k) v d

/-- A write of VAT_Hs_CMD (08 R218). -/
def Dev.vatCmd (req : Req) (s : Nat) (v : W32) (d : Dev) : Dev :=
  let b := fld v 11 0
  match fld v 13 12 with
  | 0 => d.bucketCmd req s (Dev.bucketOpen s b)
  | 1 => d.bucketCmd req s (fun d => (d.bucketClose s b false).vatEnd s 2 0)
  | 2 => d.bucketCmd req s (Dev.bucketRelease s b)
  | _ => d.bucketCmd req s (fun d => d.vatEnd s 3 6)

/-- The vane entry that an offset is in, and the word of it. -/
def vaneAt (off : Nat) : Option (Nat × Nat) := inArray off 0x2804000 0x20 256

/-- A write of an enabled vane entry (11 Table 9): its fields are kept, but EN itself may be cleared (log 26). -/
def Dev.vaneKept (k : Nat) (off : Nat) (v : W32) (d : Dev) : Dev :=
  if k = 0 && !fbit v 0 then d.setWord off (d.word off &&& ~~~1#32) else d

/-- SYN (11 Tables 7 and 9). -/
def Dev.synWrite (req : Req) (off : Nat) (v : W32) (d : Dev) : Dev :=
  if off = 0x2800024 then
    match fld v 9 8 with
    | 0 => d.vaneResetCmd (fld v 7 0)
    | 1 => d.vaneBreakCmd (fld v 7 0)
    | _ => d
  else match inArray off 0x2801000 0x10 96 with
    | some (n, 0) => d.watchWrite req n v
    | _ => storeReg req off v d

/-- FT (02 Tables 8 and 9). -/
def Dev.ftWrite (req : Req) (off : Nat) (v : W32) (d : Dev) : Dev :=
  if off = 0x2A00048 then d.slipRequest v
  else if off = 0x2A00010 then
    let d1 := storeReg req off v d
    if d1.ftEn then d1.ftCtl else d1.ftOff
  else storeReg req off v d

/-- LNK (13 Table 15): ports that wait in EXCHANGE for a node ID send their records once it is written (13 R365). -/
def Dev.lnkWrite (req : Req) (off : Nat) (v : W32) (d : Dev) : Dev :=
  if off = 0x320004C then d.ctrlSend v
  else if off = 0x3200000 then
    let d1 := storeReg req off v d
    if d.node = 0xFFFFF then runAll (List.range Config.ports) Dev.sendRecord d1 else d1
  else match inArray off 0x3000000 0x10000 32 with
    | some (p, 0x00) => d.lnkCtl req p v
    | some (p, 0x24) => if fbit v 4 then d.startSwap p (fld v 3 0) else d
    | _ => storeReg req off v d

/-- A write of a single register, by its block. -/
def Dev.oneWrite (req : Req) (off : Nat) (v : W32) (d : Dev) : Dev :=
  if off = 0x10004 then d.crcCtl req v
  else if 0x100000 ≤ off ∧ off < 0x300000 then d.feWrite req off v
  else match inArray off 0x1000000 0x10000 68 with
  | some (t, k) => d.tilWrite req t k v
  | none => match inArray off 0x2010000 0x10000 8 with
  | some (s, k) => d.memWrite req s k v
  | none => match inArray off 0x2400000 0x1000 8 with
  | some (s, 0x0C) => d.vatCmd req s v
  | some _ => storeReg req off v d
  | none =>
    if 0x2800000 ≤ off ∧ off < 0x2806000 then d.synWrite req off v
    else if 0x2A00000 ≤ off ∧ off < 0x2A01000 then d.ftWrite req off v
    else if 0x3000000 ≤ off ∧ off < 0x3208000 then d.lnkWrite req off v
    else match inArray off 0x3410000 0x10 2048 with
      | some (i, k) => d.msixWrite 0 i k v
      | none =>
        if off = 0x3C00024 then d.tileRetire v
        else d.guardTdi off (storeReg req off v)

/-- A write of any register but for what a new lock adds. -/
def Dev.plainWrite (req : Req) (off : Nat) (v : W32) (d0 : Dev) : Dev :=
  let d := d0.dropShadow req
  if off % 4 ≠ 0 then d
  else if (eventBlock off).isSome then d.seqClear off v
  else
    let held := match vaneAt off with
      | some (n, _) => fbit (d.word (offVane n)) 0
      | none => false
    if held then d.vaneKept ((vaneAt off).map Prod.snd |>.getD 0) off v
    else if isPairLo off then stageLo req off v d
    else if isPairHi off then
      let d1 := d.guardTdi off (applyHi req off v)
      if off = 0x2A00054 then d1.modFt (fun f => { f with epochArmed := true }) else d1
    else d.oneWrite req off v

/-- The registers whose locked image slot 4 measures (16 Table 2): FT_DOMAIN, LNK_NODE, PCI_CTL, GC_PARTp. -/
def lockRegs : List Nat := [0x2A00014, 0x3200000, 0x3400004] ++ (List.range 8).map (fun p => 0x3600100 + 4 * p)
/-- Their words, little-endian, in that order (log 26). -/
def Dev.lockImage (d : Dev) : List Byte := lockRegs.flatMap (fun o => leBytes 4 (d.word o).toNat)

/-- A write of a register by a requester (17 R431-R438): as firmware runs, a lock of one of the measured registers extends
slot 4 (16 R414). -/
def Dev.regWrite (req : Req) (off : Nat) (v : W32) (d : Dev) : Dev :=
  let d1 := d.plainWrite req off v
  if lockRegs.contains off && d.boot.firmware && !fbit (d.word off) 31 && fbit (d1.word off) 31 then d1.measExtend 4 (shake 64 d1.lockImage) else d1

end Sys2Proof.Machine
end

