-- ==== Sys2Proof/Machine/RegCmd.lean ====
section
/-! DEFINITION. The commands of the register interface (17), and the allotment write of 12. -/
namespace Sys2Proof.Machine

/-- Whether a requester reaches a register: a virtual function its own admin page and the completion pages of its context
alone, while it is enabled (14 R383, R384). -/
def Dev.reaches (d : Dev) (req : Req) (off : Nat) : Bool :=
  match req with
  | .func 0 => true
  | .func (c + 1) => d.vfOn c && ((match inArray off 0x180000 0x1000 64 with
      | some (k, _) => k == c
      | none => false) || (match inArray off 0x200000 0x1000 256 with
      | some (k, _) => d.cqMine c k
      | none => false))
  | .core _ _ => true
  | .half _ _ => true

/-- A register write that a requester makes. -/
def Dev.writeBy (req : Req) (off : Nat) (v : W32) (d : Dev) : Dev := if d.reaches req off then d.regWrite req off v else d

/-- REGISTER_WRITE (17 R432, R433). -/
def execRegisterWrite (req : Req) (off : Nat) (val : W32) (s : State) : Result :=
  performMem (reqOk req && offOk off) s (fun _ => Dev.writeBy req off val)

/-- SHADOW_READ_LO (17 R431, R436): a read of a register, whose value is put out. -/
def execShadowReadLo (req : Req) (off : Nat) (s : State) : Result :=
  perform (reqOk req && offOk off) s (fun l d =>
    if d.reaches req off then
      let r := d.regFetch l req off
      r.2.emit (.readData req (leBytes 4 r.1.toNat))
    else d)

/-- STAGED_WRITE_LO (17 R437). -/
def execStagedWriteLo (req : Req) (off : Nat) (val : W32) (s : State) : Result :=
  performMem (reqOk req && offOk off) s (fun _ d => if isPairLo off then d.writeBy req off val else d)

/-- STAGED_WRITE_HI (17 R437). -/
def execStagedWriteHi (req : Req) (off : Nat) (val : W32) (s : State) : Result :=
  performMem (reqOk req && offOk off) s (fun _ d => if isPairHi off then d.writeBy req off val else d)

/-- SEQUENCE_CLEAR (17 R438, R449). -/
def execSequenceClear (req : Req) (off : Nat) (val : W32) (s : State) : Result :=
  perform (reqOk req && offOk off) s (fun _ d => if (eventBlock off).isSome then d.writeBy req off val else d)

/-- A pending advance of SEQ comes 64 ns after the last one (17 R440): SEQ advances once for all that was merged. -/
def Dev.seqPending (off : Nat) (d : Dev) : Dev :=
  match (d.event off).pend, (d.event off).last with
  | some m, some t => if t + Config.seqGap ≤ d.clk then d.seqAdvance off m (t + Config.seqGap) else d
  | _, _ => d

/-- SEQ_ADVANCE_PENDING (17 R440). -/
def execSeqAdvancePending (off : Nat) (s : State) : Result :=
  perform (offOk off) s (fun _ => Dev.seqPending off)

/-- The result of a pass over the covered words (17 R442). -/
def Dev.crcResult (d : Dev) : W32 :=
  crc32c (coveredWords.flatMap (fun w => leBytes 4 (d.word w.1 &&& BitVec.ofNat 32 w.2).toNat))

/-- A compared pass (17 R443). -/
def Dev.crcCompare (r : W32) (d : Dev) : Dev :=
  let ctl := d.word 0x10004
  if r = d.word 0x10008 then
    ({ d with regs := { d.regs with crcMatch := true, crcBad := false, crcFrozen := false } }).setFlagIf d.regs.crcBad evCfg 2
  else
    let freeze := fbit ctl 1
    (({ d with regs := { d.regs with crcMatch := false, crcBad := true, crcFrozen := d.regs.crcFrozen || freeze } }).setFlag evCfg 0).setFlagIf
      (freeze && !d.regs.crcFrozen) evFe 7

/-- A pass that started after COMMIT is captured as the reference (17 R444). -/
def Dev.crcCapture (r : W32) (d : Dev) : Dev :=
  let ctl := d.word 0x10004 &&& ~~~4#32
  let d1 := (d.setWord 0x10008 r).setWord 0x10004 ctl
  ({ d1 with regs := { d1.regs with crcMode := crcRest ctl, crcArmed := false, crcBad := false, crcFrozen := false } }).setFlag evCfg 1

/-- A pass ends and the next begins (17 R443, R444). -/
def Dev.crcPass (d : Dev) : Dev :=
  let r := d.crcResult
  let d1 := { d with regs := { d.regs with
      crcCur := r, crcPasses := d.regs.crcPasses + 1, crcWords := BitVec.ofNat 32 coveredWords.length } }
  match d.regs.crcMode with
  | .off => d1
  | .holding => d1
  | .comparing =>
    let d2 := d1.crcCompare r
    { d2 with regs := { d2.regs with crcMode := crcRest (d2.word 0x10004) } }
  | .committing => if d.regs.crcArmed then d1.crcCapture r else { d1 with regs := { d1.regs with crcArmed := true } }

/-- CRC_PASS (17 R443). -/
def execCrcPass (s : State) : Result := perform true s (fun _ => Dev.crcPass)

/-- CRC_HOLD (17 R444). -/
def execCrcHold (req : Req) (val : W32) (s : State) : Result :=
  perform (reqFull req && val.getLsbD 2) s (fun _ => Dev.writeBy req 0x10004 val)

/-- CRC_COMMIT (17 R444). -/
def execCrcCommit (req : Req) (val : W32) (s : State) : Result :=
  perform (reqFull req && val.getLsbD 3) s (fun _ => Dev.writeBy req 0x10004 val)

/-- CRC_REF_WRITE (17 R444). -/
def execCrcRefWrite (req : Req) (val : W32) (s : State) : Result :=
  perform (reqFull req) s (fun _ => Dev.writeBy req 0x10008 val)

/-- ALLOTMENT_WRITE (12 R319; 16 R424). -/
def execAllotmentWrite (req : Req) (off : Nat) (val : W32) (s : State) : Result :=
  perform (reqOk req && offOk off) s (fun _ d =>
    if (sqOwnerOff off).isSome || (cqOwnerOff off).isSome || (ctxTilesOff off).isSome then d.writeBy req off val else d)

end Sys2Proof.Machine
end

