-- ==== Sys2Proof/Machine/Pcie.lean ====
section
/-! DEFINITION. The commands of the PCI Express endpoint (14): the link, BAR accesses, resets of functions, translations, interrupts, errors, and configuration requests. -/
namespace Sys2Proof.Machine

/-- Change endpoint state. -/
def Dev.modPci (f : PciState → PciState) (d : Dev) : Dev := { d with pci := f d.pci }
/-- Report an error class in AER (14 Table 3): 0 correctable, 1 UR, 2 CA, 3 poisoned, 4 timeout, 5 malformed. -/
def Dev.aerSet (i : Nat) (d : Dev) : Dev := d.modPci (fun p => { p with aer := p.aer ||| BitVec.ofNat 6 (2 ^ i) })

/-! ## The link (14 R382, R391, R396) -/

/-- The highest rate that PCI_CTL allows (14 Table 5): 0 acts as 1. -/
def Dev.maxRate (d : Dev) : Nat := max 1 (fld (d.word (offPci + 4)) 2 0)

/-- CLK_STATUS.PCIELOCK: the PLL of a link that has trained is locked (18 Table 8; log 22). -/
def Dev.pcieLock (d : Dev) : Dev := { d with pwr := { d.pwr with locks := d.pwr.locks ||| 0x40000#20 } }

/-- The link trains (14 R382, Table 1): FLIT mode always above 32 GT/s. -/
def Dev.pcieUp (rate width : Nat) (flit : Bool) (d : Dev) : Dev :=
  if d.boot.perstLow then d
  else (d.modPci (fun p => { p with
    dlUp := true, rate := min rate d.maxRate, width := width, full := width, flit := flit || decide (5 < min rate d.maxRate) })).pcieLock

/-- The host's L0p request (14 R382): in FLIT mode the link that is up runs at a width up to the one it trained to. -/
def Dev.l0p (width : Nat) (d : Dev) : Dev :=
  if d.pci.dlUp && d.pci.flit && decide (width ≤ d.pci.full) then d.modPci (fun p => { p with width := width }) else d

/-- PCIE_LINK_TRAIN (14 R382, 20 R505): training, or a change of width by L0p. -/
def execPcieLinkTrain (rate width : Nat) (mode : FlitMode) (s : State) : Result :=
  perform (decide (1 ≤ rate) && decide (rate ≤ 7) && pcieWidth width) s (fun _ => if mode.l0p then Dev.l0p width else Dev.pcieUp rate width mode.flit)

/-- The data link goes down (14 R391): no DMA leaves; nothing is stopped. -/
def Dev.pcieDown (d : Dev) : Dev :=
  if d.pci.dlUp then (d.modPci (fun p => { p with dlUp := false, rate := 0, width := 0, full := 0, flit := false })).setFlag evPci 0 else d

/-- DL_DOWN (14 R391). -/
def execDlDown (s : State) : Result := perform true s (fun _ => Dev.pcieDown)

/-- MALFORMED_TLP (14 Table 3): fatal; the link goes down to retrain. -/
def execMalformedTlp (s : State) : Result := perform true s (fun _ d => (d.aerSet 5).pcieDown)

/-! ## BAR accesses (14 R383-R388) -/

/-- An Unsupported Request (14 R385, R388): a read completes with it, a write is dropped. -/
def Dev.hostUr (f : Nat) (isRead : Bool) (d : Dev) : Dev :=
  let d1 := ((d.modPci (fun p => { p with urCnt := p.urCnt + 1 })).aerSet 1).setFlag evPci 3
  if isRead then d1.emit (.unsupported f) else d1
/-- A Completer Abort (14 R388). -/
def Dev.hostCa (f : Nat) (isRead : Bool) (d : Dev) : Dev :=
  let d1 := ((d.modPci (fun p => { p with caCnt := p.caCnt + 1 })).aerSet 2).setFlag evPci 4
  if isRead then d1.emit (.completerAbort f) else d1

/-- What an offset of a virtual function's BAR0 names (14 Table 2): a register, a word of its MSI-X table, of its pending
bits, or nothing. -/
inductive VfReg where
  | reg (off : Nat) | msix (i k : Nat) | pba | absent
deriving DecidableEq, Repr

/-- The map of VF BAR0 of context c (14 Table 2, R384). -/
def Dev.vfReg (d : Dev) (c off : Nat) : VfReg :=
  if off < 0x1000 then .reg (0x180000 + 0x1000 * c + off)
  else match inArray off 0x8000 0x10 32 with
    | some (i, k) => .msix i k
    | none =>
      if off = 0x9000 then .pba
      else match inArray off 0x100000 0x1000 256 with
        | some (k, o) => if d.cqMine c k then .reg (0x200000 + 0x1000 * k + o) else .absent
        | none => .absent

/-- A DW read through BAR0. -/
def Dev.barRead (l : Life) (f off : Nat) (d : Dev) : W32 × Dev :=
  if f = 0 then d.regFetch l (.func 0) off
  else match d.vfReg (f - 1) off with
    | .reg o => d.regFetch l (.func f) o
    | .msix i k => ((d.msixEntry f i).view k, d.dropShadow (.func f))
    | .pba => (d.pbaWord f 0, d.dropShadow (.func f))
    | .absent => (0, d.dropShadow (.func f))

/-- A DW write through BAR0. -/
def Dev.barWrite (f off : Nat) (v : W32) (d : Dev) : Dev :=
  if f = 0 then d.regWrite (.func 0) off v
  else match d.vfReg (f - 1) off with
    | .reg o => d.regWrite (.func f) o v
    | .msix i k => (d.dropShadow (.func f)).msixWrite f i k v
    | .pba => d.dropShadow (.func f)
    | .absent => d.dropShadow (.func f)

/-- A host access to BAR0 of a function (14 R384, R385). -/
def Dev.bar0 (l : Life) (f off len : Nat) (wr : Option (List Byte)) (d : Dev) : Dev :=
  if !d.barOpen f then d
  else if len ≠ 4 ∨ off % 4 ≠ 0 then d.hostUr f wr.isNone
  else match wr with
    | some bs => d.barWrite f off (BitVec.ofNat 32 (leNat bs))
    | none =>
      let r := d.barRead l f off
      r.2.emit (.hostData f (leBytes 4 r.1.toNat))

/-- Whether an operation is a read, for the host. -/
def opReads : MemOp → Bool
  | .read _ => true | .write _ => false | .atomic _ _ _ => true
/-- Whether an operation is one that the host can ask for: the part has no AtomicOp completer (14 R381). -/
def opPlain : MemOp → Bool
  | .read _ => true | .write _ => true | .atomic _ _ _ => false

/-- A host access to local memory (14 R386-R388). -/
def Dev.hostMem (f : Nat) (who : Who) (a : Nat) (allowed : Bool) (op : MemOp) (d : Dev) : Dev :=
  if !allowed || !opPlain op then d.hostUr f (opReads op)
  else
    let r := d.memAccess who a op
    if r.1 = stOk then (if opReads op then r.2.2.emit (.hostData f r.2.1) else r.2.2)
    else if r.1 = stMemError then r.2.2.hostCa f (opReads op)
    else r.2.2.hostUr f (opReads op)

/-! ## Posted writes (11 R301; log 27) -/

/-- Whether a write covers a word of sync memory, whose writes are ordered whatever their attribute. -/
def HostOp.toWatch : HostOp → Bool
  | .mem _ a bs => decide (syncBase < a + bs.length) && decide (a < syncBase + syncSize)
  | .reg _ _ => false

/-- A posted write lands. -/
def Dev.hostLand (l : Life) (w : HostWrite) (d : Dev) : Dev :=
  match w.op with
  | .mem who a bs => d.hostMem w.func who a (decide (w.func = 0) || (hbmKeys a bs.length).isSome) (.write bs)
  | .reg off bs => d.bar0 l w.func off bs.length (some bs)

/-- A posted write arrives: an ordered one is held behind the earlier writes of its function, and is refused for retry
where the buffer is full; another lands, at once or, where it is still in flight, with WRITE_LANDED. -/
def Dev.hostPost (l : Life) (w : HostWrite) (relaxed inFlight : Bool) (d : Dev) : Dev :=
  let mine (x : HostWrite) : Bool := x.func == w.func
  if (!relaxed || w.op.toWatch) && (d.sync.hostOut.any mine || d.sync.hostHold.any mine) then
    if 256 ≤ d.sync.held then
      (d.setFlag evSyn 0).emit (.access { kind := .host, node := d.node, endpoint := 197, owner := 0xFF } stRetry [])
    else d.modSync (fun s => { s with hostHold := s.hostHold ++ [w], peak := max s.peak (s.held + 1) })
  else if inFlight then d.modSync (fun s => { s with hostOut := s.hostOut ++ [w] })
  else d.hostLand l w

/-- Held writes of functions with no write in flight land, oldest first. -/
def Dev.hostPump (l : Life) (d : Dev) : Dev :=
  let free (w : HostWrite) : Bool := d.sync.hostOut.all (fun x => x.func != w.func)
  runAll (d.sync.hostHold.filter free) (Dev.hostLand l) (d.modSync (fun s => { s with hostHold := s.hostHold.filter (fun w => !free w) }))

/-- The `n` oldest posted writes in flight land, and what they held. -/
def Dev.hostLanded (l : Life) (n : Nat) (d : Dev) : Dev :=
  (runAll (d.sync.hostOut.take n) (Dev.hostLand l) (d.modSync (fun s => { s with hostOut := s.hostOut.drop n }))).hostPump l

/-- WRITE_LANDED (11 R298, R301): endpoint 197 of this part is the host. -/
def execWriteLanded (node endpoint count : Nat) (s : State) : Result :=
  performMem true s (fun l d => if node = d.node ∧ endpoint = 197 then d.hostLanded l count else d.landAll node endpoint count)

/-- BAR0_ACCESS (14 R384, R385). -/
def execBar0Access (func off len : Nat) (wr : Option PostedWrite) (s : State) : Result :=
  performMem (funcOk func && decide (off < 0x4000000) && wr.all (fun w => decide (w.data.length = len))) s (fun l d =>
    match wr with
    | some w => d.hostPost l { func := func, op := .reg off w.data } w.relaxed w.inFlight
    | none => d.bar0 l func off len none)

/-- An access to BAR4 of a function: a write is posted. -/
def Dev.bar4 (l : Life) (f : Nat) (who : Who) (a : Nat) (op : MemOp) (relaxed inFlight : Bool) (d : Dev) : Dev :=
  match op with
  | .write bs => d.hostPost l { func := f, op := .mem who a bs } relaxed inFlight
  | .read _ => d.hostMem f who a (decide (f = 0) || (hbmKeys a (opLen op)).isSome) op
  | .atomic _ _ _ => d.hostUr f true

/-- The local address of a PF BAR4 offset (14 R386). -/
def Dev.bar4Addr (d : Dev) (off : Nat) : Nat :=
  (d.word64 (offPci + 8)).toNat / 2 ^ d.pci.bar4Log2 * 2 ^ d.pci.bar4Log2 + off

/-- BAR4_ACCESS (14 R386, R388): the physical function is no TDI, so its accesses never count as coming from one. -/
def execBar4Access (off : Nat) (op : MemOp) (how : HostAttr) (s : State) : Result :=
  performMem true s (fun l d =>
    if d.barOpen 0 && decide (off < 2 ^ d.pci.bar4Log2) then
      d.bar4 l 0 { kind := .host, node := d.node, endpoint := 197, owner := 0xFF } (d.bar4Addr off) op how.relaxed how.inFlight
    else d)

/-- The local address of a VF BAR4 offset (14 R387). -/
def Dev.vfAddr (d : Dev) (c off : Nat) : Nat := (d.word64 (offPci + 0x1000 + 0x10 * c)).toNat + off

/-- VF_BAR4_ACCESS (14 R387, R388): only HBM through either view; `how` says whether the access came in the stream bound
to the function. -/
def execVfBar4Access (ctx off : Nat) (op : MemOp) (how : HostAttr) (s : State) : Result :=
  performMem (ctxOk ctx) s (fun l d =>
    if d.barOpen (ctx + 1) && decide (off < 2 ^ d.pci.vfBar4Log2) then
      let runs := how.ideRun && decide (d.tdiOf ctx = .run) && !(d.func (ctx + 1)).ideKey.isEmpty
      d.bar4 l (ctx + 1) { kind := .host, node := d.node, endpoint := 197, owner := ctx, ideRun := runs } (d.vfAddr ctx off) op
        how.relaxed how.inFlight
    else d)

/-! ## Resets (14 R392) -/

/-- A submission queue is stopped and freed without entries (14 R392): a destroy under way is absorbed. -/
def Dev.sqReset (q : Nat) (d : Dev) : Dev :=
  let d1 := d.modSq q (fun s => { s with stopCmd := [], destroyCmd := none })
  match d1.sq q with
  | none => d1
  | some s =>
    match s.mode with
    | .tombstone => d1.sqFree q
    | .draining => d1
    | .enabled | .paused | .stopped => d1.stopQueue q .draining

/-- A completion queue becomes FREE with what it holds discarded. -/
def Dev.cqReset (c : Nat) (d : Dev) : Dev :=
  match d.cq c with
  | none => d
  | some q => runAll q.late (fun e d => d.entryPlaced e.1 e.2) (d.modFe (fun f => { f with cqs := mapDel f.cqs c }))

/-- The reset of a context (14 R392): its queues, its admin queue pair and its interface. -/
def Dev.ctxReset (c : Nat) (d : Dev) : Dev :=
  let cs := ((d.fe.cqs.map Prod.fst).filter (fun k => decide (k < 256) && d.cqCtx k == c)) ++ [256 + c]
  let d1 := runAll cs Dev.cqReset d
  let d2 := runAll ((d1.fe.sqs.filter (fun s => s.2.ctx == c)).map Prod.fst) Dev.sqReset d1
  ((d2.modAdmin c (fun _ => {})).setWord (offAdm c + 0x20) (d2.admCfg c &&& 0x7FFFFFFF#32)).setTdi c .unlocked

/-- The configuration state of a function returns to its reset values; the keys of its stream stay. -/
def Dev.funcReset (f : Nat) (d : Dev) : Dev :=
  d.modPci (fun p => { p with
    funcs := mapPut p.funcs f { ideKey := (d.func f).ideKey, memSpace := decide (0 < f) && (d.func f).memSpace }
    msix := p.msix.filter (fun e => decide (e.1 / 2048 ≠ f))
    atc := p.atc.filter (fun e => decide (e.1 ≠ f)) })

/-- VF_FLR (14 R392). -/
def execVfFlr (ctx : Nat) (s : State) : Result :=
  perform (ctxOk ctx) s (fun _ d =>
    if d.vfOn ctx then ((d.ctxReset ctx).funcReset (ctx + 1)).setFlag evPci 2 else d)

/-- Every context and configuration space are reset, and the virtual functions disabled (14 R392). -/
def Dev.pfReset (d : Dev) : Dev :=
  (runAll (List.range Config.contexts) Dev.ctxReset d).modPci (fun p => { p with
    funcs := p.funcs.map (fun f => (f.1, { ideKey := f.2.ideKey })), msix := [], atc := [], vfEnable := false, numVfs := 0
    bar4Log2 := 30, vfBar4Log2 := 30, aer := 0 })

/-- HOT_RESET (14 R392). -/
def execHotReset (s : State) : Result := perform true s (fun _ d => d.pfReset.setFlag evPci 1)

/-! ## Translations, interrupts and errors (14 R390, R393, R396) -/

/-- ATS_INVALIDATE (14 R390): writes through the translation have been sent, so the completion leaves. -/
def execAtsInvalidate (func page : Nat) (s : State) : Result :=
  perform (funcOk func) s (fun _ d =>
    (d.modPci (fun p => { p with atc := p.atc.filter (fun e => !(e.1 == func && e.2.1 == page)) })).emit (.atsDone func))

/-- MSIX_UNMASK (14 R393). -/
def execMsixUnmask (func entry : Nat) (s : State) : Result :=
  perform (funcOk func && decide (entry < (if func = 0 then 2048 else 32))) s (fun _ d => if d.barOpen func then d.msixWrite func entry 0xC 0 else d)

/-- A read of host memory that fails (14 R396, 12 R345, R337; 15 R400). -/
def Dev.hostReadFails (what : HostRead) (d : Dev) : Dev :=
  match what with
  | .write => d
  | .descriptor q =>
    match d.sq q with
    | some s =>
      if d.mayFetch s && !s.loc then (d.putSq q { s with fetched := s.fetched + 1, buf := s.buf ++ [([], 0x403)] }).feSettle else d
    | none => d
  | .adminCommand _ => d
  | .cqRing c =>
    match d.cq c with
    | some q => if q.loc || decide (q.mode = .stalled) then d else d.cqStall c q.nextSlot
    | none => d
  | .coreRead g => d.emit (.access { kind := .engine, node := d.node, endpoint := 136 + g, owner := 0xFF } stRefused [])

/-- POISONED_TLP (14 R396, Table 3). -/
def execPoisonedTlp (what : HostRead) (s : State) : Result :=
  performMem true s (fun _ d =>
    (((d.modPci (fun p => { p with poison := p.poison + 1 })).aerSet 3).setFlag evPci 5).hostReadFails what)

/-- COMPLETION_TIMEOUT (14 R396, Table 3). -/
def execCompletionTimeout (what : HostRead) (s : State) : Result :=
  performMem true s (fun _ d =>
    (((d.modPci (fun p => { p with cplTo := p.cplTo + 1 })).aerSet 4).setFlag evPci 6).hostReadFails what)

/-! ## Configuration requests (20 R505; 14 R386, R391, R393) -/

/-- Change a function's configuration. -/
def Dev.modFunc (f : Nat) (g : FuncCfg → FuncCfg) (d : Dev) : Dev := d.modPci (fun p => { p with funcs := mapMod {} p.funcs f g })

/-- A change of the VF BAR4 size, which a locked or running interface holds (16 R424). -/
def Dev.vfBarSize (n : Nat) (d : Dev) : Dev :=
  let held := (List.range Config.contexts).filter (fun c => decide (d.tdiOf c = .locked) || decide (d.tdiOf c = .run))
  if n = d.pci.vfBar4Log2 then d
  else if held.isEmpty then d.modPci (fun p => { p with vfBar4Log2 := n })
  else runAll held Dev.tdiFail d

/-- The capabilities of the endpoint (14 Table 1), in the order of their codes here: power management, PCI Express, MSI-X, AER,
ARI, ATS, SR-IOV, Resizable BAR, VF Resizable BAR, DOE, IDE. A virtual function has those that are its own (log 27). -/
def pciCaps (f : Nat) : List Nat := if f = 0 then List.range 11 else [0, 1, 2, 3, 4, 5]

/-- What a read of configuration space answers. -/
def Dev.cfgValues (f : Nat) (item : CfgItem) (d : Dev) : List Nat :=
  let c := d.func f
  match item with
  | .capabilities => pciCaps f
  | .command => [b2n (d.func (min f 1)).memSpace, b2n c.busMaster]
  | .deviceControl => [128 * 2 ^ c.maxPayload, 128 * 2 ^ c.maxRead, c.cplMs]
  | .power => [if c.d3 then 3 else 0]
  | .link => [d.pci.rate, d.pci.width, b2n d.pci.flit]
  | .msixControl => [if f = 0 then 2048 else 32, b2n c.msixOn, b2n c.msixMask]
  | .atsControl => [b2n c.ats]
  | .sriovControl => if f = 0 then [b2n d.pci.vfEnable, d.pci.numVfs, 64, 1, 1] else []
  | .resizable => if f = 0 then [d.pci.bar4Log2, d.pci.vfBar4Log2] else []
  | .aerStatus => if f = 0 then [d.pci.aer.toNat] else []

/-- What a configuration request sets; a size or time out of range is not taken (log 27). -/
def Dev.cfgSet (what : CfgReq) (d : Dev) : Dev :=
  match what with
  | .read f item => d.emit (.cfgData f (d.cfgValues f item))
  | .maxPayload f n => if n ≤ 2 then d.modFunc f (fun c => { c with maxPayload := n }) else d
  | .maxReadRequest f n => if n ≤ 5 then d.modFunc f (fun c => { c with maxRead := n }) else d
  | .completionTimeout f ms => if 16 ≤ ms ∧ ms ≤ 55 then d.modFunc f (fun c => { c with cplMs := ms }) else d
  | .powerState f hot => (d.modFunc f (fun c => { c with d3 := hot })).msixFlushAll f
  | .busMaster f on => (d.modFunc f (fun c => { c with busMaster := on })).msixFlushAll f
  | .memorySpace f on => d.modFunc (min f 1) (fun c => { c with memSpace := on })
  | .vfEnable on n => d.modPci (fun p => { p with vfEnable := on, numVfs := min n Config.contexts })
  | .bar4Size n => if 30 ≤ n ∧ n ≤ 40 then d.modPci (fun p => { p with bar4Log2 := n }) else d
  | .vfBar4Size n => if 30 ≤ n ∧ n ≤ 36 then d.vfBarSize n else d
  | .functionMask f on => (d.modFunc f (fun c => { c with msixMask := on })).msixFlushAll f
  | .msixEnable f on => (d.modFunc f (fun c => { c with msixOn := on })).msixFlushAll f
  | .atsEnable f on =>
    (d.modFunc f (fun c => { c with ats := on })).modPci (fun p => { p with atc := if on then p.atc else p.atc.filter (fun e => decide (e.1 ≠ f)) })

/-- CONFIGURATION_REQUEST (20 R505): Request Retry Status until the defaults are set. -/
def execConfigurationRequest (what : CfgReq) (s : State) : Result :=
  perform what.wf s (fun _ d =>
    if !d.pci.dlUp then d
    else if d.pci.cfgReady then (d.cfgSet what).emit (.cfgAnswer false)
    else d.emit (.cfgAnswer true))

end Sys2Proof.Machine
end

