-- ==== Sys2Proof/Machine/Boot.lean ====
section
/-! DEFINITION. Power-up and start-up (20), and the temperature of a stack (21 R516). -/
namespace Sys2Proof.Machine

/-! ## Rails and resets (20 R494-R498) -/

/-- The volatile state with everything reset; what stays is the model's own: outputs, the counters of free values and of
time. -/
def Dev.wiped (boot : BootState) (d : Dev) : Dev := { boot := boot, out := d.out, free := d.free, clk := d.clk }

/-- POWER_UP (20 R494, R495, Table 2): the rails come up with the resets held low; the fuses alone are kept. -/
def execPowerUp (s : State) : Result :=
  performPins true s (fun l d =>
    if d.boot.powered then (l, d)
    else ({ l with debugOpen := false }, d.wiped { powered := true, resetHigh := false, perstLow := true }))

/-- POWER_LOSS (20 R496): all state is lost. -/
def execPowerLoss (s : State) : Result :=
  performPins true s (fun l d =>
    ({ l with debugOpen := false }, d.wiped { powered := false, resetHigh := false, perstLow := true }))

/-- SYS_RST_N low (20 R497, R498; 18 R469): everything but the fuses and DEBUG_OPEN; THERMTRIP_N stays asserted. -/
def Dev.sysReset (d : Dev) : Dev :=
  if d.boot.powered then
    { d.wiped { powered := true, resetHigh := false, perstLow := d.boot.perstLow } with pwr := { thermTrip := d.pwr.thermTrip } }
  else d

/-- SYS_RESET (20 R497). -/
def execSysReset (s : State) : Result := performPins true s (fun l d => (l, d.sysReset))

/-- The stage byte (20 Table 5). -/
def Dev.setStage (n : Nat) (d : Dev) : Dev := { d with boot := { d.boot with stage := BitVec.ofNat 8 n } }

/-! ## The boot ROM (20 R499, R501) -/

/-- The loader runs (20 R499 steps 3 to 5; 16 R412): slot 0, the CDI, and the digest of the alias public key. -/
def Dev.romStart (copy : Nat) (im : List Byte) (d : Dev) : Dev :=
  let d1 := d.measPut 0 (imDigest im)
  let cdi := kdf Config.uds "gv-cdi" (d1.meas 0 ++ d1.meas 3) 64
  let d2 := d1.modSec (fun s => { s with
    cdi := cdi
    idHash := aliasHash (kdf cdi "gv-alias" [] 57)
    pendLoader := if imCommit im then some (imSvn im) else none })
  ({ d2 with boot := { d2.boot with loaderCopy := copy, verifyDebt := decide (copy = 1) } }).setStage 2

/-- The boot ROM (20 R499, R501, Table 5): it stops where the fuses cannot be read, where the flash does not answer, or
where neither copy of the loader passes. -/
def Dev.rom (l : Life) (fusesOk flashOk : Bool) (a b : List Byte) (d : Dev) : Dev :=
  if !fusesOk then d.setStage 0x83 else
  let d1 := ((d.modSec (fun s => { s with udsLocked := true })).measPut 3 (shake 64 l.summary))
  if !flashOk then d1.setStage 0x84
  else if imageOk l 0 l.loaderSvn a then d1.romStart 0 a
  else if imageOk l 0 l.loaderSvn b then d1.romStart 1 b
  else d1.setStage 0x80

/-- The PLLs that have locked when SYS_RST_N rises, the reference being stable: the tiles', the system's, fabric time's, the
clusters', and the SerDes references (18 Table 8, R470; 20 R495; log 22). -/
def Dev.locksUp (d : Dev) : Dev := { d with pwr := { d.pwr with locks := 0xBFFFF#20 } }

/-- SYS_RESET_RELEASE (20 R495, R499): SYS_RST_N rises, or has just risen, and the boot ROM runs to its end. -/
def execSysResetRelease (fusesOk flashOk : Bool) (loaderA loaderB : List Byte) (s : State) : Result :=
  performPins true s (fun l d =>
    (l, if d.boot.powered && decide (d.boot.stage = 0) && !d.pwr.thermTrip then
      ((({ d with boot := { d.boot with resetHigh := true } }).locksUp).setStage 1).rom l fusesOk flashOk loaderA loaderB
    else d))

/-! ## The loader (20 R501-R503) -/

/-- The copy of a firmware image that is taken, and whether the first was skipped (20 R501). -/
def pickCopy (l : Life) (c : List Byte × List Byte) : Option (List Byte × Bool) :=
  if imageOk l 1 l.fwSvn c.1 then some (c.1, false)
  else if imageOk l 1 l.fwSvn c.2 then some (c.2, true) else none

/-- The images of clusters 0 to 5. -/
def pickAll (l : Life) : List (List Byte × List Byte) → Option (List (List Byte × Bool))
  | [] => some []
  | c :: r =>
    match pickCopy l c, pickAll l r with
    | some x, some xs => some (x :: xs)
    | _, _ => none

/-- The firmware that the loader starts (20 R503; 16 Table 2). -/
def Dev.firmwareLoaded (ims : List (List Byte × Bool)) (config : List Byte) (d : Dev) : Dev :=
  let d1 := (runAll ims (fun i d => d.measPut 1 (imDigest i.1)) d).measPut 2 (shake 64 config)
  let svns := (ims.filter (fun i => imCommit i.1)).map (fun i => imSvn i.1)
  let d2 := d1.modSec (fun s => { s with pendFw := if svns.isEmpty then none else some (maxN svns) })
  ({ d2 with boot := { d2.boot with
      config := config, verifyDebt := d2.boot.verifyDebt || ims.any (fun i => i.2) } }).setWord offGc 0x3F

/-- The loader (20 R502, R503): training, hard repair and zeroing of every stack, then the firmware images. -/
def Dev.loader (l : Life) (stacksOk repairsOk : Bool) (fw : List (List Byte × List Byte)) (config : List Byte) (d : Dev) : Dev :=
  if !stacksOk || !repairsOk then d.setStage 0x82 else
  let up (m : StackMem) : StackMem := { m with present := true, trained := true }
  let d1 := (runAll (List.range Config.stackCount) (fun s d => d.modStack s up) d).modMem (fun m => { m with hbm := [], bad := [] })
  match pickAll l fw with
  | some ims => (d1.firmwareLoaded ims config).setStage 3
  | none => d1.setStage 0x81

/-- LOADER_START (20 R502, R503). -/
def execLoaderStart (stacksOk repairsOk : Bool) (fw : List (List Byte × List Byte)) (config : List Byte) (s : State) : Result :=
  perform (decide (fw.length = 6)) s (fun l d =>
    if d.boot.stage = 2 then d.loader l stacksOk repairsOk fw config else d)

/-! ## Firmware's start (20 R503, R504) -/

/-- A tile retirement repeated with COPY = 0 (19 R482, 20 R503): no half has a task yet, so its steps follow at once. -/
def Dev.repairTile (r : Nat × Nat) (d : Dev) : Dev :=
  ((d.tileRetire (BitVec.ofNat 32 (r.1 % 128 + 128 * (r.2 % 128)))).retireCopy.retireSwitch).retireEnd
/-- A granule's retirement with CMD = 0 (07 R207). -/
def Dev.repairGranule (g : Nat × Nat × Nat) (d : Dev) : Dev :=
  (d.retireCmd g.1 (BitVec.ofNat 32 (g.2.1 % 32 + 32 * (g.2.2 % 4194304)))).retireComplete g.1

/-- The requester that start-up firmware is: core G0 in M mode. -/
def fwReq : Req := .core 0 true

/-- The fields of the configuration block (20 Table 3), whose layout the spec does not give: words, little-endian, of LNK_NODE,
FT_DOMAIN, PCI_CTL and CFG_COMPAT, of GC_PART0 to 7, the mask of enabled ports, and the 32 link asymmetries (log 27). -/
def cfgWord (config : List Byte) (i : Nat) : W32 := w32 (leAt config (4 * i) 4)

/-- Write a register with its LOCK (20 R503). -/
def Dev.fwLock (off : Nat) (v : W32) (d : Dev) : Dev := d.regWrite fwReq off (v ||| 0x80000000#32)

/-- The registers that firmware writes and locks (20 R503), the link asymmetries (02 R32), and the ports it enables (R504). -/
def Dev.fwRegisters (c : List Byte) (d : Dev) : Dev :=
  let d1 := ((((d.fwLock offLnk (cfgWord c 0)).fwLock (offFt + 0x14) (cfgWord c 1)).fwLock (offPci + 4) (cfgWord c 2)).fwLock offCfg (cfgWord c 3))
  let d2 := runAll ((List.range 8).filter (fun p => decide (cfgWord c (4 + p) ≠ 0))) (fun p d => d.fwLock (offGc + 0x100 + 4 * p) (cfgWord c (4 + p))) d1
  let d3 := runAll (List.range Config.ports) (fun p d => d.regWrite fwReq (offPort p + 0x14) (cfgWord c (13 + p))) d2
  runAll ((List.range Config.ports).filter (fun p => fbit (cfgWord c 12) p)) (fun p d => d.regWrite fwReq (offPort p) (d.word (offPort p) ||| 1#32)) d3

/-- The configuration check is committed and its EN set (20 R503; 17 R444). -/
def Dev.fwCheck (d : Dev) : Dev := (d.crcCapture d.crcResult).crcCtl fwReq 1

/-- Firmware starts (20 R501, R503, R504): the alias key again, the repair record, the locked registers, the ports, the
check. -/
def Dev.firmware (repairs : List (Nat × Nat)) (granules : List (Nat × Nat × Nat)) (d : Dev) : Dev :=
  let d0 := ({ d with boot := { d.boot with firmware := true } }).setStage 5
  let d1 := d0.modSec (fun s => { s with aliasKey := kdf s.cdi "gv-alias" [] 57, sealRoot := kdf s.cdi "gv-seal" [] 32 })
  let d2 := d1.setFlagIf d1.boot.verifyDebt evSec 1
  let d3 := runAll granules Dev.repairGranule (runAll repairs Dev.repairTile d2)
  ((d3.fwRegisters d3.boot.config).fwCheck).setStage 6

/-- FIRMWARE_START (20 R503, R504). -/
def execFirmwareStart (repairs : List (Nat × Nat)) (granules : List (Nat × Nat × Nat)) (s : State) : Result :=
  perform (granules.all (fun g => stackOk g.1)) s (fun _ d => if d.boot.stage = 3 then d.firmware repairs granules else d)

/-! ## PERST_N, configuration, progress (20 R497, R505, R507) -/

/-- PERST_N changes (20 R497): low on a running part, it resets the link, configuration space and every context. -/
def Dev.perst (low : Bool) (d : Dev) : Dev :=
  let d1 := { d with boot := { d.boot with perstLow := low } }
  if low && d.alive then
    d1.pfReset.modPci (fun p => { p with dlUp := false, rate := 0, width := 0, flit := false, cfgReady := false, session := none, reported := false
                                         funcs := [] })
  else d1

/-- PERST (20 R497). -/
def execPerst (low : Bool) (s : State) : Result := performPins true s (fun l d => (l, d.perst low))

/-- Firmware has set the BAR and SR-IOV defaults (20 R505). -/
def Dev.configReady (d : Dev) : Dev :=
  if d.boot.firmware && !d.boot.perstLow then
    let d1 := d.modPci (fun p => { p with cfgReady := true })
    if d1.boot.stage = 6 then
      d1.setStage (if decide (d1.ft.mode = .locked) || decide (d1.ft.mode = .master) then 8 else 7)
    else d1
  else d

/-- PCIE_CONFIG_READY (20 R505). -/
def execPcieConfigReady (s : State) : Result := perform true s (fun _ => Dev.configReady)

/-- SMBUS_STAGE_READ (20 R507). -/
def execSmbusStageRead (s : State) : Result := perform true s (fun _ d => d.emit (.smbus d.boot.stage))

/-! ## The temperature of a stack (21 R516, 07 Table 8) -/

/-- STACK_TEMPERATURE (21 R516): TEMP_HIGH is set on rising above 95 °C. -/
def execStackTemperature (stack temp : Nat) (s : State) : Result :=
  perform (stackOk stack) s (fun _ d =>
    let old := (d.stack stack).temp
    (d.modStack stack (fun m => { m with temp := temp })).setFlagIf (decide (old ≤ 95) && decide (95 < temp)) (evMem stack) 8)

end Sys2Proof.Machine
end

