-- ==== Sys2Proof/Machine/Gc.lean ====
section
/-! DEFINITION. The accesses of the general cores (15 R400, R401, R404). -/
namespace Sys2Proof.Machine

/-- What a core's physical address names (15 Table 1). -/
inductive CoreAddr where
  | here (loc : Nat) | remote (node loc : Nat) | host (a : Nat) | bad
deriving DecidableEq, Repr

/-- GC_RWINn (15 Table 6): its node, where it is valid. -/
def Dev.remoteWindow (d : Dev) (n : Nat) : Option Nat :=
  let w := d.word (offGc + 0x200 + 4 * n)
  if fbit w 31 then some (fld w 19 0) else none

/-- The decode of a 56-bit physical address (15 R400). -/
def Dev.coreAddr (d : Dev) (pa : Nat) : CoreAddr :=
  match bitsN pa 55 54 with
  | 0 => if bitsN pa 53 44 = 0 then .here (bitsN pa 43 0) else .bad
  | 1 =>
    if bitsN pa 53 50 ≠ 0 then .bad
    else match d.remoteWindow (bitsN pa 49 44) with
      | some n => if n = d.node then .here (bitsN pa 43 0) else .remote n (bitsN pa 43 0)
      | none => .bad
  | 2 => .host (bitsN pa 53 0)
  | _ => .bad

/-- The partition that a core's cluster runs, if any (15 R404). -/
def Dev.corePart (d : Dev) (g : Nat) : Option Nat :=
  if 24 ≤ g then d.gc.parts.find? (fun p => fbit (d.partClusters p) (g / 4 - 6)) else none

/-- The agent that a core is: it acts for its partition, or for firmware (07 R196). -/
def Dev.coreWho (d : Dev) (g : Nat) : Who :=
  { kind := .engine, node := d.node, endpoint := 136 + g, owner := match d.corePart g with
      | some p => 0x40 + p
      | none => 0xFF }

/-- Whether a core runs (15 Table 8). -/
def Dev.coreRuns (d : Dev) (g : Nat) : Bool := fbit (d.word offGc) (g / 4)

/-- The end of a core's access: its status (not 0: an access-fault exception) and its data. -/
def Dev.coreEnd (g status : Nat) (data : List Byte) (d : Dev) : Dev := d.emit (.access (d.coreWho g) status data)

/-- A core's access to a register (07 R185, 17 R430; 15 R404). -/
def Dev.coreReg (l : Life) (g : Nat) (mOrHs : Bool) (off : Nat) (op : MemOp) (d : Dev) : Dev :=
  if (d.corePart g).isSome || off % 4 != 0 || opLen op != 4 then d.coreEnd g stRefused []
  else match op with
    | .read _ =>
      let r := d.regFetch l (.core g mOrHs) off
      r.2.coreEnd g stOk (leBytes 4 r.1.toNat)
    | .write bs => (d.regWrite (.core g mOrHs) off (BitVec.ofNat 32 (leNat bs))).coreEnd g stOk []
    | .atomic _ _ _ => d.coreEnd g stRefused []

/-- A core's access to local memory. -/
def Dev.coreHere (l : Life) (g : Nat) (mOrHs : Bool) (loc : Nat) (op : MemOp) (d : Dev) : Dev :=
  if regBase ≤ loc ∧ loc < regBase + regSize then d.coreReg l g mOrHs (loc - regBase) op
  else
    let r := d.memAccess (d.coreWho g) loc op
    r.2.2.coreEnd g (wireStatus r.1) r.2.1

/-- Whether a request of an endpoint that touches one of the aligned words at `loc` of a node is outstanding (11 R306). -/
def Dev.wordBusy (d : Dev) (ep node loc n : Nat) : Bool :=
  d.lnk.requests.any (fun r => r.ep == ep && r.pk.dst == node && isRequest r.pk.type && decide (loc / 8 * 8 < r.pk.addr + max 8 r.pk.len) &&
    decide (r.pk.addr / 8 * 8 < loc + n))

/-- A core's access to another part: its answer ends it (13 R355). An access to a word with an earlier operation of the
core outstanding does not leave: it comes again (11 R295, R306; log 27). -/
def Dev.coreRemote (g node loc : Nat) (op : MemOp) (d : Dev) : Dev :=
  let ep := 136 + g
  if d.wordBusy ep node loc (opLen op) then d else
  (d.request ep (.core g) (match op with
    | .read n => d.pkRead ep node loc n
    | .write bs => d.pkWrite ep node loc bs
    | .atomic o x c => d.pkAtomic ep node loc o x c)).2

/-- A core's access through the host aperture (15 R400, 14 R389, R391): a request of the physical function, never a
partition's; what host memory returns is a free value. -/
def Dev.coreHost (g a : Nat) (op : MemOp) (d : Dev) : Dev :=
  if (d.corePart g).isSome || !d.hostUp 0 then d.coreEnd g stRefused []
  else match op with
    | .read n =>
      let r := d.takeFree
      r.2.coreEnd g stOk (leBytes n r.1.toNat)
    | .write bs => (d.dmaOut 0 a bs).coreEnd g stOk []
    | .atomic _ _ _ => d.coreEnd g stRefused []

/-- An access of a core that runs. -/
def Dev.coreAccess (l : Life) (g : Nat) (mOrHs : Bool) (pa : W64) (op : MemOp) (d : Dev) : Dev :=
  if !d.coreRuns g then d
  else match d.coreAddr pa.toNat with
    | .here loc => d.coreHere l g mOrHs loc op
    | .remote node loc => d.coreRemote g node loc op
    | .host a => d.coreHost g a op
    | .bad => d.coreEnd g stRefused []

/-- GC_ACCESS (15 R400). -/
def execGcAccess (core : Nat) (mOrHs : Bool) (pa : W64) (op : MemOp) (s : State) : Result :=
  performMem (decide (core < Config.cores) && decide (pa.toNat < 2 ^ 56)) s (fun l => Dev.coreAccess l core mOrHs pa op)

/-- Whether a core's release may leave (15 R401, 05 R141): no earlier write of it to another node is unanswered. -/
def Dev.coreReleases (d : Dev) (g node : Nat) : Bool :=
  d.lnk.requests.all (fun r => !(r.ep == 136 + g && r.pk.dst != node && countOf r.pk.type r.pk.addr r.pk.len != 0))

/-- AMO_RELEASE (15 R401): an `amoadd.d` with the rl bit to a global or sync-memory address is a release signal; while its
order is not met it does not leave (log 27). -/
def execAmoRelease (core : Nat) (pa : W64) (val : W64) (s : State) : Result :=
  performMem (decide (core < Config.cores) && decide (pa.toNat < 2 ^ 56)) s (fun l d =>
    match d.coreAddr pa.toNat with
    | .here _ => if d.coreReleases core d.node then d.coreAccess l core false pa (.atomic .sig val 0) else d
    | .remote node _ => if d.coreReleases core node then d.coreAccess l core false pa (.atomic .sig val 0) else d
    | .host _ => d.coreAccess l core false pa (.atomic .sig val 0)
    | .bad => d.coreAccess l core false pa (.atomic .sig val 0))

end Sys2Proof.Machine
end

