-- ==== Sys2Proof/Machine/Global.lean ====
section
/-! DEFINITION. The global operations of a tile half (05 R138-R141): `ldg`, `stg`, `atom` and `atom.sig`. -/
namespace Sys2Proof.Machine

/-- The node and local address of a scalar register's value, with or without LOC (05 R138). -/
def Dev.globAddr (d : Dev) (isLoc : Bool) (a : W64) : Nat × Nat := if isLoc then (d.node, gLoc a) else (gNode a, gLoc a)

/-- The precise faults of a global operation of n bytes (05 R138, R140; 03 R70; 07 R192): alignment, the other half's part
of its own tile's window, and the half's own reserved draught window. -/
def Dev.globFault (t h n : Nat) (want : Want) (isLoc : Bool) (w : W64) (d : Dev) (s : HalfState) : Option (Nat × W64) :=
  let a := s.reg (fB w)
  let g := d.globAddr isLoc a
  let isOwn := decide (g.1 = d.node) && decide (tileBase + tileSpan * t ≤ g.2) && decide (g.2 + n ≤ tileBase + tileSpan * (t + 1))
  if a.toNat % n ≠ 0 then some (fltMemRange, a)
  else if isOwn && (d.tile t).crosses h (g.2 - (tileBase + tileSpan * t)) n want then some (fltMemRange, a)
  else if decide (g.1 = d.node) && decide (tileBase ≤ g.2) && decide (g.2 < tileBase + Config.tiles * tileSpan) &&
      d.draughtHit (d.halfWho t h) ((g.2 - tileBase) / tileSpan) ((g.2 - tileBase) % tileSpan) n then some (fltDraught, a)
  else none

/-- Whether an operation is in the form that registers accept: LOC with W32 (05 R138). -/
def GlobOp.isReg (g : GlobOp) (isLoc : Bool) : Bool :=
  isLoc && decide (regBase ≤ g.loc) && decide (g.loc < regBase + regSize) && (match g.kind with
  | .load w32 => w32
  | .store w32 => w32
  | .atom _ => false)

/-- A register access of a half (17 R430, R431); a confined context's engine writes no register (16 R421 rule 2). -/
def Dev.globReg (l : Life) (t h : Nat) (g : GlobOp) (d : Dev) : Dev :=
  let off := g.loc - regBase
  match g.kind with
  | .load _ =>
    let r := d.regFetch l (.half t h) off
    r.2.globAnswer t h g.idx stOk (r.1.setWidth 64)
  | .store _ =>
    if d.confinedCtx (d.half t h).owner then d.globAnswer t h g.idx stRefused 0
    else (d.regWrite (.half t h) off (lo32 g.x)).globAnswer t h g.idx stOk 0
  | .atom _ => d.globAnswer t h g.idx stRefused 0

/-- An operation leaves the scalar unit: it is outstanding until it completes (05 R139). -/
def Dev.globIssue (l : Life) (t h : Nat) (w : W64) (kind : GlobKind) (isLoc : Bool) (d : Dev) : Dev :=
  let s := d.half t h
  let a := d.globAddr isLoc (s.reg (fB w))
  let g : GlobOp := {
    idx := s.nextIdx, kind := kind, dst := fA w, node := a.1, loc := a.2, x := s.reg (fC w), c := s.reg (fD w)
    seq := s.nextSeq, pc := s.pc, bank := s.bank, word := w, sig := sigOf w, byLoc := isLoc }
  let out (s : HalfState) : HalfState := { s with globs := s.globs ++ [g], nextIdx := s.nextIdx + 1 }
  let d1 := d.modHalf t h (fun s => (out s).nextPc)
  if g.isReg isLoc then d1.globReg l t h g else d1.globTry t h g

/-- What a global operation asks. -/
def GlobKind.want : GlobKind → Want
  | .load _ => .read
  | .store _ => .write
  | .atom _ => .atomic

/-- Whether 16 operations are outstanding (05 R139); the release signals of movement descriptors are not counted. -/
def HalfState.globsFull (s : HalfState) : Bool := decide (16 ≤ (s.globs.filter (fun g => !g.ofMove)).length)

/-- Issue of a global operation: the seventeenth is held (05 R138, R139). -/
def Dev.global (l : Life) (t h : Nat) (w : W64) (regs : List Nat) (kind : GlobKind) (n : Nat) (isLoc : Bool) (d : Dev) : Dev :=
  if (d.half t h).globsFull && (d.half t h).guard w && (d.fetchFault t h w).isNone then d
  else d.issueScalar t h w regs (fun _ => false) (Dev.globFault t h n kind.want isLoc w) (Dev.globIssue l t h w kind isLoc)

/-- The bits of FN that `ldg` and `stg` use: LOC and W32. -/
def fLoc (w : W64) : Bool := w.getLsbD 0
def fW32 (w : W64) : Bool := w.getLsbD 1
/-- The operation of `atom` (05 R140). -/
def atomOp (w : W64) : AtomOp :=
  match bw w 2 0 with
  | 0 => .add | 1 => .swap | 2 => .cas | 3 => .maxu | 4 => .maxs | _ => .sig

/-- LDG (05 R138). -/
def execLdg (t h : Nat) (w : W64) (s : State) : Result :=
  perform (isOp t h w 0x21) s (fun l => Dev.global l t h w [fA w, fB w] (.load (fW32 w)) (if fW32 w then 4 else 8) (fLoc w))
/-- STG (05 R138). -/
def execStg (t h : Nat) (w : W64) (s : State) : Result :=
  perform (isOp t h w 0x22) s (fun l => Dev.global l t h w [fB w, fC w] (.store (fW32 w)) (if fW32 w then 4 else 8) (fLoc w))
/-- ATOM (05 R140). -/
def execAtom (t h : Nat) (w : W64) (s : State) : Result :=
  perform (isOp t h w 0x23 && wordBits w 2 0 != 5) s (fun l => Dev.global l t h w [fA w, fB w, fC w, fD w] (.atom (atomOp w)) 8 (w.getLsbD 3))
/-- ATOM.SIG (05 R141). -/
def execAtomSig (t h : Nat) (w : W64) (s : State) : Result :=
  perform (isOp t h w 0x23 && wordBits w 2 0 == 5) s (fun l => Dev.global l t h w [fA w, fB w, fC w, fD w] (.atom .sig) 8 (w.getLsbD 3))

end Sys2Proof.Machine
end

