-- ==== Sys2Proof/Machine/Links.lean ====
section
/-! DEFINITION. The commands of the Limrad links (13) but control packets and seals. -/
namespace Sys2Proof.Machine

/-- PORT_ENABLE (13 R366): LNK_Ln_CTL.EN is set. -/
def execPortEnable (p : Nat) (s : State) : Result :=
  perform (portOk p) s (fun _ d => (d.setBit (offPort p) 0 true).portOn p)
/-- PORT_DISABLE (13 R366): EN is cleared. -/
def execPortDisable (p : Nat) (s : State) : Result :=
  perform (portOk p) s (fun _ d => (d.setBit (offPort p) 0 false).portOff p)
/-- SIGNAL_DETECT (13 R366). -/
def execSignalDetect (p : Nat) (s : State) : Result :=
  perform (portOk p) s (fun _ d => if (d.port p).mode = .detect then d.modPort p (fun s => { s with mode := .train }) else d)
/-- TRAIN_COMPLETE (13 R366). -/
def execTrainComplete (p : Nat) (s : State) : Result :=
  perform (portOk p) s (fun _ d => if (d.port p).mode = .train then d.modPort p (fun s => { s with mode := .align }) else d)
/-- ALIGN_COMPLETE (13 R349, R366, R367). -/
def execAlignComplete (p : Nat) (found : Training) (s : State) : Result :=
  perform (portOk p) s (fun _ d => if (d.port p).mode = .align then d.portAlign p found.healthy found.rx found.tx else d)
/-- CAPABILITY_RECORD (13 R365, R367). -/
def execCapabilityRecord (p : Nat) (rec : List Byte) (s : State) : Result :=
  perform (portOk p) s (fun _ d => d.takeRecord p rec)
/-- PORT_ACTIVE (13 R367, R371, R352). -/
def execPortActive (p : Nat) (s : State) : Result :=
  perform (portOk p) s (fun _ d => if d.exchanged p then (d.modPort p PortState.zeroSeq).portActive p else d)
/-- FLIT_RECEIVED (13 R352). -/
def execFlitReceived (p : Nat) (flit : RxFlit) (fecOk tagOk : Bool) (s : State) : Result :=
  perform (portOk p) s (fun _ d => d.takeFlit p flit.bytes flit.seq fecOk tagOk flit.fixed)
/-- LINK_CONTROL_FLIT (13 R353). -/
def execLinkControlFlit (p : Nat) (body : List Byte) (s : State) : Result :=
  perform (portOk p) s (fun _ d => d.takeLink p body)
/-- LINK_CONTROL_SEND (13 R353). -/
def execLinkControlSend (p : Nat) (s : State) : Result :=
  perform (portOk p) s (fun _ d => if (d.port p).carries then (d.sendLink p 0 0 0).drainTxq p else d)
/-- REPLAY_TIMEOUT (13 R352). -/
def execReplayTimeout (p : Nat) (s : State) : Result :=
  perform (portOk p) s (fun _ d => if (d.port p).beats then d.replayAll p else d)
/-- SWAP_REQ (13 R372). -/
def execSwapReq (p lane : Nat) (s : State) : Result :=
  perform (portOk p && decide (lane < 9)) s (fun _ d => d.takeSwapReq p lane)
/-- SWAP_ACK (13 R372). -/
def execSwapAck (p : Nat) (swapSeq : W32) (s : State) : Result :=
  perform (portOk p) s (fun _ d => d.takeSwapAck p swapSeq)
/-- SWAP_DONE (13 R372). -/
def execSwapDone (p : Nat) (s : State) : Result :=
  perform (portOk p) s (fun _ d => d.takeSwapDone p)
/-- RETRAIN_REQ (13 R369). -/
def execRetrainReq (p : Nat) (s : State) : Result :=
  perform (portOk p) s (fun _ d => d.takeRetrainReq p)
/-- RETRAIN_ACK (13 R369). -/
def execRetrainAck (p : Nat) (s : State) : Result :=
  perform (portOk p) s (fun _ d => d.takeRetrainAck p)
/-- RETRAIN_COMPLETE (13 R373). -/
def execRetrainComplete (p : Nat) (found : Training) (s : State) : Result :=
  perform (portOk p) s (fun _ d => d.retrainEnd p found.healthy found.rx found.tx found.narrow)
/-- RETRAIN_MAX_EXPIRY (13 R369): the heartbeat count resumes. -/
def execRetrainMaxExpiry (p : Nat) (s : State) : Result :=
  perform (portOk p) s (fun _ d => d.modPort p (fun s => { s with agreed := false }))
/-- LANE_ERROR_CHECK (13 R372): lanes above the threshold are marked, and each starts a swap. -/
def execLaneErrorCheck (p : Nat) (counts : List Nat) (s : State) : Result :=
  perform (portOk p && decide (counts.length = 9)) s (fun _ d =>
    let th := max 1 (fld (d.word (offPort p + 0x28)) 15 0)
    let bad := (List.range 9).filter (fun i => decide (th < listGet 0 counts i))
    let mark (m : BitVec 9) (i : Nat) : BitVec 9 := m ||| BitVec.ofNat 9 (2 ^ i)
    runAll bad (fun i d => d.startSwap p i) (d.modPort p (fun s => { s with failed := bad.foldl mark s.failed })))
/-- LANE_LOCK_LOSS (13 R372). -/
def execLaneLockLoss (p lane : Nat) (s : State) : Result :=
  perform (portOk p && decide (lane < 9)) s (fun _ d =>
    (d.modPort p (fun s => { s with failed := s.failed ||| BitVec.ofNat 9 (2 ^ lane) })).startSwap p lane)
/-- LANE_SWAP_CMD (13 R372). -/
def execLaneSwapCmd (req : Req) (p : Nat) (val : W32) (s : State) : Result :=
  perform (reqFull req && portOk p) s (fun _ d => if fbit val 4 then (d.dropShadow req).startSwap p (fld val 3 0) else d.dropShadow req)
/-- SIGNAL_LOSS (13 R369). -/
def execSignalLoss (p : Nat) (s : State) : Result :=
  perform (portOk p) s (fun _ d => d.startRetrain p false)
/-- PARTNER_LOST (13 R369, R370): eight boundaries without a good BEAT. -/
def execPartnerLost (p : Nat) (s : State) : Result :=
  perform (portOk p) s (fun _ d => if (d.port p).beats && decide (8 ≤ (d.port p).missed) then d.portLost p else d)
/-- PORT_REJOIN (13 R371). -/
def execPortRejoin (req : Req) (p : Nat) (s : State) : Result :=
  perform (reqFull req && portOk p) s (fun _ d => (d.dropShadow req).portRejoin p)
/-- RETRAIN_REQUEST (13 R369). -/
def execRetrainRequest (req : Req) (p : Nat) (s : State) : Result :=
  perform (reqFull req && portOk p) s (fun _ d => if (d.port p).beats then (d.dropShadow req).askRetrain p false else d.dropShadow req)
/-- PORT_DRAIN (13 R375): LNK_Ln_CTL.DRAIN is set. -/
def execPortDrain (p : Nat) (s : State) : Result :=
  perform (portOk p) s (fun _ d => (d.setBit (offPort p) 4 true).portDrainOn p)
/-- PORT_UNDRAIN (13 R375). -/
def execPortUndrain (p : Nat) (s : State) : Result :=
  perform (portOk p) s (fun _ d => (d.setBit (offPort p) 4 false).portDrainOff p)
/-- PORT_DRAINED (13 R375). -/
def execPortDrained (p : Nat) (s : State) : Result :=
  perform (portOk p) s (fun _ d => d.portDrainEnd p)
/-- PACKET_FORWARD (13 R360, R377). -/
def execPacketForward (p : Nat) (pk : Packet) (s : State) : Result :=
  perform (portOk p) s (fun _ d => d.forward p pk)
/-- WRITE (13 R355). -/
def execWrite (p : Nat) (pk : Packet) (s : State) : Result :=
  performMem (isPacket p pk 0x01) s (fun _ d => d.onPacket p pk (Dev.serveWrite p pk))
/-- READ (13 R355). -/
def execRead (p : Nat) (pk : Packet) (s : State) : Result :=
  performMem (isPacket p pk 0x02) s (fun _ d => d.onPacket p pk (Dev.serveRead p pk))
/-- ATOMIC (13 R355). -/
def execAtomic (p : Nat) (pk : Packet) (s : State) : Result :=
  performMem (isPacket p pk 0x03) s (fun _ d => d.onPacket p pk (Dev.serveAtomic p pk))
/-- SIGNAL (11 R298). -/
def execSignal (p : Nat) (pk : Packet) (s : State) : Result :=
  performMem (isPacket p pk 0x04) s (fun _ d => d.onPacket p pk (Dev.serveSignal p pk))
/-- OPEN (11 R297). -/
def execOpenReq (p : Nat) (pk : Packet) (s : State) : Result :=
  performMem (isPacket p pk 0x05) s (fun _ d => d.onPacket p pk (fun d =>
    let r := d.ledgerOpen pk.src pk.endpoint
    r.2.respond pk r.1 (leBytes 4 0)))
/-- CLOSE (11 R297). -/
def execClose (p : Nat) (pk : Packet) (s : State) : Result :=
  performMem (isPacket p pk 0x06) s (fun _ d => d.onPacket p pk (fun d => (d.ledgerClose pk.src pk.endpoint).respond pk stOk (leBytes 4 0)))
/-- READ_RESP (13 R355). -/
def execReadResp (p : Nat) (pk : Packet) (s : State) : Result :=
  performMem (isPacket p pk 0x10) s (fun _ d => d.onPacket p pk (Dev.takeAnswer pk))
/-- ACK (13 R355). -/
def execAck (p : Nat) (pk : Packet) (s : State) : Result :=
  performMem (isPacket p pk 0x11) s (fun _ d => d.onPacket p pk (Dev.takeAnswer pk))
/-- ATOMIC_RESP (13 R355). -/
def execAtomicResp (p : Nat) (pk : Packet) (s : State) : Result :=
  performMem (isPacket p pk 0x12) s (fun _ d => d.onPacket p pk (Dev.takeAnswer pk))
/-- PACKET_RESERVED_TYPE (13 Table 5): discarded without a response and counted. -/
def execPacketReservedType (p : Nat) (pk : Packet) (s : State) : Result :=
  performMem (portOk p && !packetTypes.contains pk.type) s (fun _ d =>
    if (d.port p).beats then (d.takeRx p pk).modPort p (fun s => { s with badType := s.badType + 1 }) else d)
/-- RESPONSE_TIMEOUT (13 R356). -/
def execResponseTimeout (rtag : W16) (s : State) : Result :=
  performMem true s (fun _ d => d.timeoutReq rtag)
/-- Whether a key of a sealed port has reached its last packet, in either direction (13 R376). -/
def PortState.keysSpent (s : PortState) : Bool := s.isSealed && (s.txKeys ++ s.rxKeys).any (fun k => decide (sealLimit ≤ k.count))

/-- SEAL_PACKET_LIMIT (13 R376): a sealed port at 2^60 packets under one key enters FAULT. -/
def execSealPacketLimit (p : Nat) (s : State) : Result :=
  perform (portOk p) s (fun _ d => if (d.port p).keysSpent then d.portFault p 0 else d)

end Sys2Proof.Machine
end

