-- ==== Sys2Proof/Machine/StepCmd.lean ====
section
/-! DEFINITION. The commands of the step: attempts, reduction orchestration, votes and verdicts (09, 10, 19 R490, R491). -/
namespace Sys2Proof.Machine

/-- STEP_ATTEMPT_START (10 R287, 09 R246, R247). -/
def execStepAttemptStart (s : State) : Result := performMem true s (fun _ => Dev.attemptStart false)
/-- STEP_REPLAY (19 R490): the next attempt after an abandoned one, on the same batch. -/
def execStepReplay (s : State) : Result := performMem true s (fun _ => Dev.attemptStart true)
/-- DRAIN_VANE (09 R242, R248). -/
def execDrainVane (s : State) : Result := performMem true s (fun _ => Dev.drainPassed)
/-- RE_REDUCTION (09 R255, R256, R259, R264). -/
def execReReduction (s : State) : Result := performMem true s (fun _ => Dev.reReduce)
/-- NORM_PARTIAL (09 R258, R260). -/
def execNormPartial (s : State) : Result := performMem true s (fun _ => Dev.normPartial)
/-- NORM_WORD_PUBLISH (09 R261, R262). -/
def execNormWordPublish (s : State) : Result := performMem true s (fun _ => Dev.normPublish)
/-- NORM_WORD_FORWARD (09 R261, R262). -/
def execNormWordForward (s : State) : Result := performMem true s (fun _ => Dev.normForward)
/-- TRUST_PAIR_PUBLISH (09 R264). -/
def execTrustPairPublish (plan : Nat) (s : State) : Result := performMem true s (fun _ => Dev.trustPublish plan)
/-- LAMB_MARKER (08 R231). -/
def execLambMarker (plan : Nat) (s : State) : Result := performMem true s (fun _ => Dev.lambMark plan)
/-- OWNER_LOCK_LOST (09 R260). -/
def execOwnerLockLost (s : State) : Result := performMem true s (fun _ => Dev.ownerLost)

/-- A bucket without DL reaches its owner's timeout (09 R266): it is closed FORCED. -/
def Dev.bucketTimeout (s b : Nat) (d : Dev) : Dev :=
  match d.bucket s b with
  | some k => if k.dl = false ∧ (k.mode = .opened ∨ k.mode = .zeroing) then d.bucketClose s b true else d
  | none => d

/-- CROSS_DOMAIN_TIMEOUT (09 R266). -/
def execCrossDomainTimeout (stack bucket : Nat) (s : State) : Result :=
  performMem (bucketOk stack bucket) s (fun _ => Dev.bucketTimeout stack bucket)

/-- VOTE (10 R288). -/
def execVote (s : State) : Result := performMem true s (fun _ => Dev.castVote)
/-- VERDICT_PUBLISH (10 R289): every member has voted. -/
def execVerdictPublish (s : State) : Result := performMem true s (fun _ => Dev.verdictPublish true)
/-- VERDICT_DEADLINE (10 R289): the root publishes without the members that have not voted. -/
def execVerdictDeadline (s : State) : Result := performMem true s (fun _ => Dev.verdictPublish false)

/-- The verdict applied, and at a commit what firmware does there. -/
def Dev.verdictWork (d : Dev) : Dev :=
  let d1 := d.verdictApply
  if d.step.active && !d1.step.active && decide (d1.step.outcome = 1) then d1.commitWork else d1

/-- VERDICT_APPLY (10 R284, R290, R291). -/
def execVerdictApply (s : State) : Result := performMem true s (fun _ => Dev.verdictWork)

/-- A topology change (19 R491, R492; 09 R241): a new group record takes effect between attempts, with the step record and the
schedule of the group before; lost shards are taken over, and mirrors made anew, as churn descriptors of theirs say. -/
def Dev.topology (c : Topology) (d : Dev) : Dev :=
  match d.step.group with
  | none => d
  | some old =>
    if d.step.active || !d.boot.firmware then d else
    match d.readGroup c.record.toNat old.stepRec old.schedule with
    | (some g, d1) => (d1.setGroup g).takeShards (leAt (d1.stepRecord old) 0 4) c.lost c.mirrors
    | (none, d1) => d1

/-- TOPOLOGY_CHANGE (19 R491, R492). -/
def execTopologyChange (change : Topology) (s : State) : Result := performMem true s (fun _ => Dev.topology change)

end Sys2Proof.Machine
end

