-- ==== Sys2Proof/Machine/TaskRun.lean ====
section
/-! DEFINITION. Tasks on tile halves (03 R69-R74, 05 R119, R144-R147, 12 R329, R330): preload, start, end, freeze and stop. -/
namespace Sys2Proof.Machine

/-- Where the kernel of a task goes: the bank that does not execute, in the half's part for a twin task (03 Table 3). -/
def Dev.kernelOff (d : Dev) (t h : Nat) (twin : Bool) : Nat :=
  winBank (1 - (d.half t (if (d.tile t).twin then h else 0)).bank) + (if twin then 0x10000 * h else 0)

/-- Whether a kernel for normal mode would land in a bank part that the tile's other half executes, or that holds the other
half's draught (03 R69). -/
def Dev.bankTaken (d : Dev) (t : Nat) (twin : Bool) (n : Nat) : Bool :=
  let u := d.tile t
  !twin && u.twin && decide (0x10000 < n) &&
  (if u.h1.bank = u.h0.bank then (d.engine (2 * t + 1)).draught.isSome else decide (u.h1.mode ≠ .idle))

/-- A kernel that lands in the part of a bank that holds the kernel of a draught for normal mode leaves that one to be copied
at its start (12 R329). -/
def Dev.overKernel (t h : Nat) (d : Dev) : Dev :=
  match (d.engine (2 * t)).draught with
  | some k =>
    if decide (h = 1) && (d.tile t).twin && !tdTwin k.desc && decide ((d.tile t).h1.bank = (d.tile t).h0.bank) && decide (0x10000 < 8 * tdKlen k.desc) then
      d.modHalf t 0 (fun s => { s with drKernel := false })
    else d
  | none => d

/-- Copy bytes of this part's memory into a tile's store for a context; false where an uncorrectable error or a refusal
meets the copy (12 R329, R330). -/
def Dev.copyIn (ctx a n t off : Nat) (d : Dev) : Bool × Dev :=
  if n = 0 then (true, d) else
  let r := d.memAccess (d.feWho ctx) a (.read n)
  if r.1 = stOk then r.2.2.tileWrite t off r.2.1 else (false, r.2.2)

/-- The context of a task's queue. -/
def Dev.taskCtx (d : Dev) (t : Task) : Nat := ((d.sq t.queue).map (fun s => s.ctx)).getD 0xFF

/-- Copy the kernel of a task. -/
def Dev.loadKernel (t h : Nat) (k : Task) (d : Dev) : Bool × Dev :=
  (d.overKernel t h).copyIn (d.taskCtx k) (tdKaddr k.desc) (8 * tdKlen k.desc) t (d.kernelOff t h (tdTwin k.desc))
/-- Copy the operands of a task. -/
def Dev.loadOperands (t h : Nat) (k : Task) (d : Dev) : Bool × Dev :=
  d.copyIn (d.taskCtx k) (tdPsrc k.desc) (tdDlen k.desc) t ((if tdTwin k.desc then 0xC00000 * h else 0) + tdDbase k.desc)

/-- A copy error of a draught is logged, and the task loads everything again at its start (12 R330). -/
def Dev.draughtError (t h : Nat) (k : Task) (d : Dev) : Dev :=
  ((d.note 4 5 t 0 (BitVec.ofNat 64 k.queue) []).modEngine (2 * t + h) (fun e => { e with redo := true, loaded := false })).modHalf t h
    (fun s => { s with drStat := 0, drKernel := false })

/-- The preload of a draught ends (12 R329): its kernel stands in the idle bank and its operands in the window, or, where
the mode must change first or the half is FROZEN and takes no write of tile memory (03 R73), the operands wait for the
start. -/
def Dev.preload (t h : Nat) (d : Dev) : Dev :=
  let k := 2 * t + h
  match (d.engine k).draught with
  | none => d
  | some task =>
    if (d.engine k).loaded || (d.engine k).redo || task.stop.isSome then d else
    let done (d : Dev) : Dev := d.modEngine k (fun e => { e with loaded := true })
    if d.bankTaken t (tdTwin task.desc) (8 * tdKlen task.desc) then (done d).modHalf t h (fun s => { s with drStat := 3 }) else
    let r := d.loadKernel t h task
    if !r.1 then r.2.draughtError t h task
    else if tdTwin task.desc != (d.tile t).twin || decide ((d.half t h).mode = .frozen) then (done r.2).modHalf t h (fun s => { s with drStat := 3, drKernel := true })
    else
      let o := r.2.loadOperands t h task
      if o.1 then (done o.2).modHalf t h (fun s => { s with drStat := 2, drKernel := true }) else o.2.draughtError t h task

/-- DRAUGHT_PRELOAD_DONE (12 R329, R330): of a unit, the draught is its descriptor alone. -/
def execDraughtPreloadDone (e : Engine) (s : State) : Result :=
  perform (engineOk e) s (fun _ d =>
    match e with
    | .tile t h => d.orWait id (Dev.preload t h)
    | .churn _ | .breeze _ => d.modEngine (engKey e) (fun g => { g with loaded := g.draught.isSome }))

/-- Whether the draught of a half may start once it is loaded: the half idle in the task's mode, its engine free of any
task or kept entry, the tile not being retired or cleared (12 R324, R330, R336; 16 R422). -/
def Dev.mayStart (d : Dev) (t h : Nat) (k : Task) : Bool :=
  let e := d.engine (2 * t + h)
  e.running.isNone && !d.keepsEntry (2 * t + h) && decide ((d.half t h).mode = .idle) && k.stop.isNone && (e.loaded || e.redo) &&
  tdTwin k.desc == (d.tile t).twin && !d.sec.clearing.contains t &&
  (match d.ras.job with
  | some j => j.tile != t
  | none => true)

/-- Exchange the banks for a draught whose kernel is complete (03 R69). -/
def Dev.swapBanks (t h : Nat) (d : Dev) : Dev :=
  (d.modHalf t h (fun s => { s with bank := 1 - s.bank, drKernel := false })).modEngine (2 * t + h) (fun e => { e with swapped := true })

/-- BANK_EXCHANGE (03 R69). -/
def execBankExchange (t h : Nat) (s : State) : Result :=
  performMem (halfOk t h) s (fun _ d =>
    match (d.engine (2 * t + h)).draught with
    | none => d
    | some k => if d.mayStart t h k && (d.half t h).drKernel && !(d.engine (2 * t + h)).swapped then d.swapBanks t h else d)

/-- What a task finds in its half as it starts (05 R119). DRAUGHT_BASE and DRAUGHT_LEN keep what the
preload's begin wrote, since nothing else writes them (03 R70; log 19). -/
def startHalf (ctx : Nat) (k : Task) (s : HalfState) : HalfState :=
  { s.clearTask with
    mode := .run
    pc := tdEntry k.desc
    sregs := (List.range 8).foldl (fun m i => mapSet 0 m (1 + i) (BitVec.ofNat 64 (leAt k.desc (64 + 8 * i) 8))) []
    preds := 1
    vregs := []
    tag := tdTag k.desc
    owner := ctx
    queue := some k.queue
    drStat := 0
    drKernel := false }

/-- The copies that a task still needs at its start: the kernel where it is not complete, the operands where they were
deferred; a task that loads again loads both (12 R329, R330). -/
def Dev.startCopies (t h : Nat) (k : Task) (d : Dev) : Bool × Dev :=
  let e := d.engine (2 * t + h)
  let s := d.half t h
  let needK := !e.swapped && !s.drKernel
  let a := if needK then d.loadKernel t h k else (true, d)
  if !a.1 then a else
  if e.redo || s.drStat == 3 then a.2.loadOperands t h k else (true, a.2)

/-- The draught of a half starts (05 R119, 12 R324): or ends with MEM_ERROR where its copies fail again (R330). -/
def Dev.startTask (t h : Nat) (d : Dev) : Dev :=
  match (d.engine (2 * t + h)).draught with
  | none => d
  | some k =>
    if !d.mayStart t h k then d else
    let r := d.startCopies t h k
    if !r.1 then ((r.2.note 4 5 t 0 (BitVec.ofNat 64 k.queue) []).draughtEnd (2 * t + h) 0x103).feSettle
    else
      let d1 := if (r.2.engine (2 * t + h)).swapped then r.2 else r.2.swapBanks t h
      let ctx := d1.taskCtx k
      let next := ((d1.engine (2 * t + (1 - h))).draught.map (fun o => tdWindow o.desc)).toList
      (d1.modHalf t h (fun s => { startHalf ctx k s with resv := next })).modEngine (2 * t + h) (fun e => { e with
        running := some { k with start := d1.ft.now }, draught := none, loaded := false, redo := false, swapped := false })

/-- TASK_START (05 R119). -/
def execTaskStart (t h : Nat) (s : State) : Result :=
  perform (halfOk t h) s (fun _ d => d.orWait id (Dev.startTask t h))

/-- The status of the stop that has reached the running task of a half before its end (12 R339). -/
def Dev.stopOf (d : Dev) (t h : Nat) : Option Nat := (d.engine (2 * t + h)).running.bind (fun k => k.stop)

/-- TASK_FINISH (05 R144, 12 R331, R333). -/
def execTaskFinish (t h : Nat) (s : State) : Result :=
  performMem (halfOk t h) s (fun _ d =>
    if !d.taskOver t h || (d.stopOf t h).isSome then d else
    let code := (((d.half t h).ended).getD 0).toNat
    ((d.halfIdle t h).taskEnd (2 * t + h) code (decide (code ≠ 0)) false false).feSettle)

/-- The fault record of a half (05 Table 9). -/
def Dev.faultRecord (d : Dev) (t h : Nat) (f : FaultInfo) : List Byte :=
  leBytes 1 f.cls ++ leBytes 1 f.source ++
  leBytes 1 (h + 2 * b2n (d.tile t).twin + 4 * b2n f.more + 8 * b2n f.precise) ++ leBytes 1 f.channel ++
  leBytes 2 (f.pc % 16384 + 16384 * f.bank) ++ leBytes 2 t ++ leBytes 8 f.word.toNat ++ leBytes 8 f.detail.toNat ++ leBytes 8 f.time.toNat

/-- HALF_FROZEN (03 R73, 05 R145-R147, 12 R345): the array instruction in progress ends after `rows` rows, the descriptors
after `moves` portions of 4 KiB, the record is built and logged, and the task ends with its fault status. -/
def execHalfFrozen (t h : Nat) (cut : CutAt) (s : State) : Result :=
  performMem (halfOk t h) s (fun _ d0 =>
    if (d0.half t h).fault.isNone || decide ((d0.half t h).mode = .frozen) || decide ((d0.half t h).mode = .idle) then d0 else
    let d := (d0.partRun t h cut.rows).partMoves t h cut.moves
    match (d.half t h).fault with
    | none => d
    | some f =>
      let d1 := (d.modTile t (fun u => { u with lulled := false, waking := false })).modHalf t h (fun s =>
        { s with mode := .frozen, wait := none, halting := false })
      ((d1.note 4 1 t 0 (BitVec.ofNat 64 h) (d.faultRecord t h f)).taskEnd (2 * t + h) (0x100 + f.cls) false false true).feSettle.agentFrozen t f.cls)

/-- HALF_STOPPED (03 R74, 12 R339): a half that a halt or a stop has reached ends its work after `rows` rows of the array
instruction in progress and `moves` portions of 4 KiB of the descriptors; the task ends with the status of its stop, or as
halted. -/
def execHalfStopped (t h : Nat) (cut : CutAt) (s : State) : Result :=
  performMem (halfOk t h) s (fun _ d0 =>
    let s0 := d0.half t h
    if !s0.halting || s0.fault.isSome || (d0.taskOver t h && (d0.stopOf t h).isNone) || !(decide (s0.mode = .run) || decide (s0.mode = .wait)) then d0 else
    let d := (d0.partRun t h cut.rows).partMoves t h cut.moves
    if (d.half t h).fault.isSome then d else
    let stop := d.stopOf t h
    let d1 := ((d.modTile t (fun u => { u with lulled := false, waking := false })).modHalf t h (fun s =>
      { s with mode := .stopped, wait := none, halting := false })).setFlag (evTil t h) fltHalted
    (match stop with
      | some st => d1.taskEnd (2 * t + h) st false true false
      | none => d1.taskEnd (2 * t + h) 0x108 false false true).feSettle)

end Sys2Proof.Machine
end

