-- ==== Sys2Proof/Machine/Vector.lean ====
section
/-! DEFINITION. The Alanko vector instructions (06 R168-R182): issue into the vector queue, where an instruction that may start does its whole work. -/
namespace Sys2Proof.Machine

/-- The scalar registers that a converting store reads: its bases, its scales, and the seeds of SR (06 R173, R174). -/
def storeRegs (w : W64) : List Nat := [fA w, fC w, fD w] ++ (if bw w 5 4 = 2 then [30, 31] else [])

/-- Issue of a vector instruction that names scalar registers (05 R120, 06 R168). -/
def Dev.issueVec (t h : Nat) (w : W64) (regs : List Nat) (d : Dev) : Dev :=
  d.issueStart t h w .vector regs (vecFault t) (fun _ s => s)

/-- VOP (06 R170). -/
def execVop (t h : Nat) (w : W64) (s : State) : Result :=
  perform (isOp t h w 0x60) s (fun _ d => d.issueVec t h w ([if bw w 4 4 = 1 then fC w else 0]))

/-- VFN (06 R171). -/
def execVfn (t h : Nat) (w : W64) (s : State) : Result :=
  perform (isOp t h w 0x61) s (fun _ d => d.issueVec t h w ([]))

/-- VCMP (06 R172). -/
def execVcmp (t h : Nat) (w : W64) (s : State) : Result :=
  perform (isOp t h w 0x62) s (fun _ d => d.issueVec t h w ([fA w, if bw w 4 4 = 1 then fC w else 0]))

/-- VSEL (06 R172). -/
def execVsel (t h : Nat) (w : W64) (s : State) : Result :=
  perform (isOp t h w 0x63) s (fun _ d => d.issueVec t h w ([fD w]))

/-- VMOV (06 R172). -/
def execVmov (t h : Nat) (w : W64) (s : State) : Result :=
  perform (isOp t h w 0x64) s (fun _ d => d.issueVec t h w (if fFN w = 2 then [fA w, fC w] else [fB w, fC w]))

/-- VLD (06 R173). -/
def execVld (t h : Nat) (w : W64) (s : State) : Result :=
  perform (isOp t h w 0x65) s (fun _ d => d.issueVec t h w ([fB w]))

/-- VST (06 R173, R174). -/
def execVst (t h : Nat) (w : W64) (s : State) : Result :=
  perform (isOp t h w 0x66) s (fun _ d => d.issueVec t h w (storeRegs w))

/-- EP_RD (06 R175). -/
def execEpRd (t h : Nat) (w : W64) (s : State) : Result :=
  perform (isOp t h w 0x67) s (fun _ d => d.issueVec t h w ([fB w]))

/-- EP_WR (06 R175). -/
def execEpWr (t h : Nat) (w : W64) (s : State) : Result :=
  perform (isOp t h w 0x68) s (fun _ d => d.issueVec t h w ([fA w]))

/-- EP_CVT (06 R176). -/
def execEpCvt (t h : Nat) (w : W64) (s : State) : Result :=
  perform (isOp t h w 0x69) s (fun _ d => d.issueVec t h w (fB w :: storeRegs w))

/-- EP_L2 (06 R177). -/
def execEpL2 (t h : Nat) (w : W64) (s : State) : Result :=
  perform (isOp t h w 0x6A) s (fun _ d => d.issueVec t h w ([fB w, fD w]))

/-- VTAG (06 R175). -/
def execVtag (t h : Nat) (w : W64) (s : State) : Result :=
  perform (isOp t h w 0x6B) s (fun _ d => d.issueVec t h w ([fA w, fB w]))

/-- VRED (06 R178). -/
def execVred (t h : Nat) (w : W64) (s : State) : Result :=
  perform (isOp t h w 0x6C) s (fun _ d => d.issueVec t h w ([]))

/-- VMV (06 R179). -/
def execVmv (t h : Nat) (w : W64) (s : State) : Result :=
  perform (isOp t h w 0x6D) s (fun _ d => d.issueVec t h w ([]))

/-- VTOPK (06 R180). -/
def execVtopk (t h : Nat) (w : W64) (s : State) : Result :=
  perform (isOp t h w 0x6E) s (fun _ d => d.issueVec t h w ([fA w, fB w, fD w]))

end Sys2Proof.Machine
end

