-- ==== Sys2Proof/Machine/Dispatch.lean ====
section
/-! DEFINITION. The dispatch: one arm per command. -/
namespace Sys2Proof.Machine

/-- The effect of a command on everything but the queue. -/
def exec (i : Instr) (s : State) : Host.Outcome State Fault Refusal :=
  match i with
  | .beatBoundary => Sys2Proof.Machine.execBeatBoundary s
  | .noticeExpiry requester number => Sys2Proof.Machine.execNoticeExpiry requester number s
  | .beatReceived port body => Sys2Proof.Machine.execBeatReceived port body s
  | .masterElected => Sys2Proof.Machine.execMasterElected s
  | .lockAcquired => Sys2Proof.Machine.execLockAcquired s
  | .parentLost => Sys2Proof.Machine.execParentLost s
  | .probeExchange port => Sys2Proof.Machine.execProbeExchange port s
  | .probe port reply t1 t2 t3 => Sys2Proof.Machine.execProbe port reply t1 t2 t3 s
  | .ftPpsEdge => Sys2Proof.Machine.execFtPpsEdge s
  | .ppsMissing => Sys2Proof.Machine.execPpsMissing s
  | .ftEpochArm req hi => Sys2Proof.Machine.execFtEpochArm req hi s
  | .ftDisable req val => Sys2Proof.Machine.execFtDisable req val s
  | .slipRequest req val => Sys2Proof.Machine.execSlipRequest req val s
  | .slip port notice => Sys2Proof.Machine.execSlip port notice s
  | .nop t h w => Sys2Proof.Machine.execNop t h w s
  | .alu t h w => Sys2Proof.Machine.execAlu t h w s
  | .addi t h w => Sys2Proof.Machine.execAddi t h w s
  | .andi t h w => Sys2Proof.Machine.execAndi t h w s
  | .ori t h w => Sys2Proof.Machine.execOri t h w s
  | .xori t h w => Sys2Proof.Machine.execXori t h w s
  | .shi t h w => Sys2Proof.Machine.execShi t h w s
  | .liLo t h w => Sys2Proof.Machine.execLiLo t h w s
  | .liHi t h w => Sys2Proof.Machine.execLiHi t h w s
  | .ld t h w => Sys2Proof.Machine.execLd t h w s
  | .st t h w => Sys2Proof.Machine.execSt t h w s
  | .cmp t h w => Sys2Proof.Machine.execCmp t h w s
  | .cmpi t h w => Sys2Proof.Machine.execCmpi t h w s
  | .pop t h w => Sys2Proof.Machine.execPop t h w s
  | .br t h w => Sys2Proof.Machine.execBr t h w s
  | .bdec t h w => Sys2Proof.Machine.execBdec t h w s
  | .brr t h w => Sys2Proof.Machine.execBrr t h w s
  | .rdsr t h w => Sys2Proof.Machine.execRdsr t h w s
  | .tokSig t h w => Sys2Proof.Machine.execTokSig t h w s
  | .tokWait t h w => Sys2Proof.Machine.execTokWait t h w s
  | .tokWaitRelease t h => Sys2Proof.Machine.execTokWaitRelease t h s
  | .fenceRel t h w => Sys2Proof.Machine.execFenceRel t h w s
  | .fenceAcq t h w => Sys2Proof.Machine.execFenceAcq t h w s
  | .fenceAll t h w => Sys2Proof.Machine.execFenceAll t h w s
  | .fenceRelease t h => Sys2Proof.Machine.execFenceRelease t h s
  | .waitFt t h w => Sys2Proof.Machine.execWaitFt t h w s
  | .waitFtRelease t h => Sys2Proof.Machine.execWaitFtRelease t h s
  | .waitW t h w => Sys2Proof.Machine.execWaitW t h w s
  | .waitWDeadline t h => Sys2Proof.Machine.execWaitWDeadline t h s
  | .endTask t h w => Sys2Proof.Machine.execEndTask t h w s
  | .taskFinish t h => Sys2Proof.Machine.execTaskFinish t h s
  | .mv t h w => Sys2Proof.Machine.execMv t h w s
  | .ldg t h w => Sys2Proof.Machine.execLdg t h w s
  | .stg t h w => Sys2Proof.Machine.execStg t h w s
  | .atom t h w => Sys2Proof.Machine.execAtom t h w s
  | .atomSig t h w => Sys2Proof.Machine.execAtomSig t h w s
  | .reservedOpcode t h w => Sys2Proof.Machine.execReservedOpcode t h w s
  | .mma t h w => Sys2Proof.Machine.execMma t h w s
  | .mmaX2 t h w => Sys2Proof.Machine.execMmaX2 t h w s
  | .mmaX3 t h w => Sys2Proof.Machine.execMmaX3 t h w s
  | .mmaS t h w => Sys2Proof.Machine.execMmaS t h w s
  | .mmaM t h w => Sys2Proof.Machine.execMmaM t h w s
  | .dist t h w => Sys2Proof.Machine.execDist t h w s
  | .wl t h w => Sys2Proof.Machine.execWl t h w s
  | .wld t h w => Sys2Proof.Machine.execWld t h w s
  | .vop t h w => Sys2Proof.Machine.execVop t h w s
  | .vfn t h w => Sys2Proof.Machine.execVfn t h w s
  | .vcmp t h w => Sys2Proof.Machine.execVcmp t h w s
  | .vsel t h w => Sys2Proof.Machine.execVsel t h w s
  | .vmov t h w => Sys2Proof.Machine.execVmov t h w s
  | .vld t h w => Sys2Proof.Machine.execVld t h w s
  | .vst t h w => Sys2Proof.Machine.execVst t h w s
  | .epRd t h w => Sys2Proof.Machine.execEpRd t h w s
  | .epWr t h w => Sys2Proof.Machine.execEpWr t h w s
  | .epCvt t h w => Sys2Proof.Machine.execEpCvt t h w s
  | .epL2 t h w => Sys2Proof.Machine.execEpL2 t h w s
  | .vtag t h w => Sys2Proof.Machine.execVtag t h w s
  | .vred t h w => Sys2Proof.Machine.execVred t h w s
  | .vmv t h w => Sys2Proof.Machine.execVmv t h w s
  | .vtopk t h w => Sys2Proof.Machine.execVtopk t h w s
  | .queuedInstructionStart t h q => Sys2Proof.Machine.execQueuedInstructionStart t h q s
  | .instructionComplete t h u => Sys2Proof.Machine.execInstructionComplete t h u s
  | .tokenSignal t h tok => Sys2Proof.Machine.execTokenSignal t h tok s
  | .moveDescriptor t ch => Sys2Proof.Machine.execMoveDescriptor t ch s
  | .moveDescriptorComplete t ch => Sys2Proof.Machine.execMoveDescriptorComplete t ch s
  | .halfFrozen t h cut => Sys2Proof.Machine.execHalfFrozen t h cut s
  | .tilHalt req t val => Sys2Proof.Machine.execTilHalt req t val s
  | .halfStopped t h cut => Sys2Proof.Machine.execHalfStopped t h cut s
  | .tilRelease req t h val => Sys2Proof.Machine.execTilRelease req t h val s
  | .tilDoorbell req t h val => Sys2Proof.Machine.execTilDoorbell req t h val s
  | .tileWindowAccess who t off op => Sys2Proof.Machine.execTileWindowAccess who t off op s
  | .taskStart t h => Sys2Proof.Machine.execTaskStart t h s
  | .bankExchange t h => Sys2Proof.Machine.execBankExchange t h s
  | .modeChange t twin => Sys2Proof.Machine.execModeChange t twin s
  | .memoryAccess who addr op ecc => Sys2Proof.Machine.execMemoryAccess who addr op ecc s
  | .syncWordCommit who word op => Sys2Proof.Machine.execSyncWordCommit who word op s
  | .patrolScrub stack part => Sys2Proof.Machine.execPatrolScrub stack part s
  | .retire req stack val => Sys2Proof.Machine.execRetire req stack val s
  | .release req stack val => Sys2Proof.Machine.execRelease req stack val s
  | .sppr req stack val => Sys2Proof.Machine.execSppr req stack val s
  | .retirementComplete stack => Sys2Proof.Machine.execRetirementComplete stack s
  | .pprComplete stack ok => Sys2Proof.Machine.execPprComplete stack ok s
  | .lostFirst req stack => Sys2Proof.Machine.execLostFirst req stack s
  | .lostNext req stack => Sys2Proof.Machine.execLostNext req stack s
  | .bucketOpen req stack bucket => Sys2Proof.Machine.execBucketOpen req stack bucket s
  | .bucketClose req stack bucket => Sys2Proof.Machine.execBucketClose req stack bucket s
  | .bucketRelease req stack bucket => Sys2Proof.Machine.execBucketRelease req stack bucket s
  | .bucketCmdReserved req stack bucket => Sys2Proof.Machine.execBucketCmdReserved req stack bucket s
  | .zeroingDone stack bucket => Sys2Proof.Machine.execZeroingDone stack bucket s
  | .contributionData who stack off data => Sys2Proof.Machine.execContributionData who stack off data s
  | .endMarker who stack off val => Sys2Proof.Machine.execEndMarker who stack off val s
  | .bucketDeadline stack bucket => Sys2Proof.Machine.execBucketDeadline stack bucket s
  | .bucketFinal stack bucket => Sys2Proof.Machine.execBucketFinal stack bucket s
  | .churnDescriptorStart stack => Sys2Proof.Machine.execChurnDescriptorStart stack s
  | .churnNormReady stack => Sys2Proof.Machine.execChurnNormReady stack s
  | .churnNoNorm stack => Sys2Proof.Machine.execChurnNoNorm stack s
  | .churnBlock stack => Sys2Proof.Machine.execChurnBlock stack s
  | .mirrorAck stack => Sys2Proof.Machine.execMirrorAck stack s
  | .mirrorFail stack => Sys2Proof.Machine.execMirrorFail stack s
  | .lambPairAck stack => Sys2Proof.Machine.execLambPairAck stack s
  | .churnDescriptorEnd stack => Sys2Proof.Machine.execChurnDescriptorEnd stack s
  | .breezeDescriptor stack => Sys2Proof.Machine.execBreezeDescriptor stack s
  | .breezeEnd cut => Sys2Proof.Machine.execBreezeEnd cut s
  | .stepAttemptStart => Sys2Proof.Machine.execStepAttemptStart s
  | .drainVane => Sys2Proof.Machine.execDrainVane s
  | .reReduction => Sys2Proof.Machine.execReReduction s
  | .normPartial => Sys2Proof.Machine.execNormPartial s
  | .normWordPublish => Sys2Proof.Machine.execNormWordPublish s
  | .normWordForward => Sys2Proof.Machine.execNormWordForward s
  | .trustPairPublish plan => Sys2Proof.Machine.execTrustPairPublish plan s
  | .lambMarker plan => Sys2Proof.Machine.execLambMarker plan s
  | .ownerLockLost => Sys2Proof.Machine.execOwnerLockLost s
  | .crossDomainTimeout stack bucket => Sys2Proof.Machine.execCrossDomainTimeout stack bucket s
  | .vote => Sys2Proof.Machine.execVote s
  | .verdictPublish => Sys2Proof.Machine.execVerdictPublish s
  | .verdictDeadline => Sys2Proof.Machine.execVerdictDeadline s
  | .verdictApply => Sys2Proof.Machine.execVerdictApply s
  | .topologyChange change => Sys2Proof.Machine.execTopologyChange change s
  | .stepReplay => Sys2Proof.Machine.execStepReplay s
  | .ledgerOpen node endpoint => Sys2Proof.Machine.execLedgerOpen node endpoint s
  | .ledgerClose node endpoint => Sys2Proof.Machine.execLedgerClose node endpoint s
  | .writeLanded node endpoint count => Sys2Proof.Machine.execWriteLanded node endpoint count s
  | .releaseSignal who addr val count rtag => Sys2Proof.Machine.execReleaseSignal who addr val count rtag s
  | .signalRetry index => Sys2Proof.Machine.execSignalRetry index s
  | .holdTimeout index => Sys2Proof.Machine.execHoldTimeout index s
  | .watchArm req n val => Sys2Proof.Machine.execWatchArm req n val s
  | .vaneBreak req n => Sys2Proof.Machine.execVaneBreak req n s
  | .vaneReset req n => Sys2Proof.Machine.execVaneReset req n s
  | .lullEnter t => Sys2Proof.Machine.execLullEnter t s
  | .lullWake t => Sys2Proof.Machine.execLullWake t s
  | .lullLeadAdapt => Sys2Proof.Machine.execLullLeadAdapt s
  | .sqDoorbell func q val => Sys2Proof.Machine.execSqDoorbell func q val s
  | .descriptorFetch q data => Sys2Proof.Machine.execDescriptorFetch q data s
  | .dispatch e => Sys2Proof.Machine.execDispatch e s
  | .draughtPreloadDone e => Sys2Proof.Machine.execDraughtPreloadDone e s
  | .draughtDiscard e => Sys2Proof.Machine.execDraughtDiscard e s
  | .taskTimeout e => Sys2Proof.Machine.execTaskTimeout e s
  | .windowClose q => Sys2Proof.Machine.execWindowClose q s
  | .completionSeqWrite cq => Sys2Proof.Machine.execCompletionSeqWrite cq s
  | .cqDoorbell req cq val => Sys2Proof.Machine.execCqDoorbell req cq val s
  | .cqResume req cq val => Sys2Proof.Machine.execCqResume req cq val s
  | .stopAck q e => Sys2Proof.Machine.execStopAck q e s
  | .allotmentWrite req off val => Sys2Proof.Machine.execAllotmentWrite req off val s
  | .adminDoorbell req ctx val => Sys2Proof.Machine.execAdminDoorbell req ctx val s
  | .adminCqDoorbell req ctx val => Sys2Proof.Machine.execAdminCqDoorbell req ctx val s
  | .adminResume req ctx val => Sys2Proof.Machine.execAdminResume req ctx val s
  | .createCq ctx cmd => Sys2Proof.Machine.execCreateCq ctx cmd s
  | .destroyCq ctx cmd => Sys2Proof.Machine.execDestroyCq ctx cmd s
  | .createSq ctx cmd => Sys2Proof.Machine.execCreateSq ctx cmd s
  | .destroySq ctx cmd => Sys2Proof.Machine.execDestroySq ctx cmd s
  | .pauseSq ctx cmd => Sys2Proof.Machine.execPauseSq ctx cmd s
  | .stopSq ctx cmd => Sys2Proof.Machine.execStopSq ctx cmd s
  | .resumeSq ctx cmd => Sys2Proof.Machine.execResumeSq ctx cmd s
  | .setWindow ctx cmd => Sys2Proof.Machine.execSetWindow ctx cmd s
  | .clearWindow ctx cmd => Sys2Proof.Machine.execClearWindow ctx cmd s
  | .resumeCq ctx cmd => Sys2Proof.Machine.execResumeCq ctx cmd s
  | .invalidOpcode ctx cmd => Sys2Proof.Machine.execInvalidOpcode ctx cmd s
  | .feSqPause req q => Sys2Proof.Machine.execFeSqPause req q s
  | .feSqStop req q => Sys2Proof.Machine.execFeSqStop req q s
  | .feSqResume req q => Sys2Proof.Machine.execFeSqResume req q s
  | .svcDoorbell req ctx val => Sys2Proof.Machine.execSvcDoorbell req ctx val s
  | .portEnable p => Sys2Proof.Machine.execPortEnable p s
  | .portDisable p => Sys2Proof.Machine.execPortDisable p s
  | .signalDetect p => Sys2Proof.Machine.execSignalDetect p s
  | .trainComplete p => Sys2Proof.Machine.execTrainComplete p s
  | .alignComplete p found => Sys2Proof.Machine.execAlignComplete p found s
  | .capabilityRecord p rec => Sys2Proof.Machine.execCapabilityRecord p rec s
  | .portActive p => Sys2Proof.Machine.execPortActive p s
  | .flitReceived p flit fecOk tagOk => Sys2Proof.Machine.execFlitReceived p flit fecOk tagOk s
  | .linkControlFlit p body => Sys2Proof.Machine.execLinkControlFlit p body s
  | .linkControlSend p => Sys2Proof.Machine.execLinkControlSend p s
  | .replayTimeout p => Sys2Proof.Machine.execReplayTimeout p s
  | .swapReq p lane => Sys2Proof.Machine.execSwapReq p lane s
  | .swapAck p swapSeq => Sys2Proof.Machine.execSwapAck p swapSeq s
  | .swapDone p => Sys2Proof.Machine.execSwapDone p s
  | .retrainReq p => Sys2Proof.Machine.execRetrainReq p s
  | .retrainAck p => Sys2Proof.Machine.execRetrainAck p s
  | .retrainComplete p found => Sys2Proof.Machine.execRetrainComplete p found s
  | .retrainMaxExpiry p => Sys2Proof.Machine.execRetrainMaxExpiry p s
  | .laneErrorCheck p counts => Sys2Proof.Machine.execLaneErrorCheck p counts s
  | .laneSwapCmd req p val => Sys2Proof.Machine.execLaneSwapCmd req p val s
  | .partnerLost p => Sys2Proof.Machine.execPartnerLost p s
  | .portRejoin req p => Sys2Proof.Machine.execPortRejoin req p s
  | .retrainRequest req p => Sys2Proof.Machine.execRetrainRequest req p s
  | .portDrain p => Sys2Proof.Machine.execPortDrain p s
  | .portUndrain p => Sys2Proof.Machine.execPortUndrain p s
  | .portDrained p => Sys2Proof.Machine.execPortDrained p s
  | .packetForward p pk => Sys2Proof.Machine.execPacketForward p pk s
  | .write p pk => Sys2Proof.Machine.execWrite p pk s
  | .read p pk => Sys2Proof.Machine.execRead p pk s
  | .atomic p pk => Sys2Proof.Machine.execAtomic p pk s
  | .signal p pk => Sys2Proof.Machine.execSignal p pk s
  | .openReq p pk => Sys2Proof.Machine.execOpenReq p pk s
  | .close p pk => Sys2Proof.Machine.execClose p pk s
  | .readResp p pk => Sys2Proof.Machine.execReadResp p pk s
  | .ack p pk => Sys2Proof.Machine.execAck p pk s
  | .atomicResp p pk => Sys2Proof.Machine.execAtomicResp p pk s
  | .control p pk => Sys2Proof.Machine.execControl p pk s
  | .sealMsg p pk chainOk => Sys2Proof.Machine.execSealMsg p pk chainOk s
  | .packetReservedType p pk => Sys2Proof.Machine.execPacketReservedType p pk s
  | .responseTimeout rtag => Sys2Proof.Machine.execResponseTimeout rtag s
  | .controlPacketSend req val => Sys2Proof.Machine.execControlPacketSend req val s
  | .ctrlStopSq q => Sys2Proof.Machine.execCtrlStopSq q s
  | .ctrlPauseSq q => Sys2Proof.Machine.execCtrlPauseSq q s
  | .drainPort p => Sys2Proof.Machine.execDrainPort p s
  | .undrainPort p => Sys2Proof.Machine.execUndrainPort p s
  | .quiesceTile t => Sys2Proof.Machine.execQuiesceTile t s
  | .breakVane n => Sys2Proof.Machine.execBreakVane n s
  | .controlOther p pk => Sys2Proof.Machine.execControlOther p pk s
  | .linkRekey p => Sys2Proof.Machine.execLinkRekey p s
  | .pcieLinkTrain rate width mode => Sys2Proof.Machine.execPcieLinkTrain rate width mode s
  | .bar0Access func off len wr => Sys2Proof.Machine.execBar0Access func off len wr s
  | .bar4Access off op how => Sys2Proof.Machine.execBar4Access off op how s
  | .vfBar4Access ctx off op how => Sys2Proof.Machine.execVfBar4Access ctx off op how s
  | .vfFlr ctx => Sys2Proof.Machine.execVfFlr ctx s
  | .hotReset => Sys2Proof.Machine.execHotReset s
  | .atsInvalidate func page => Sys2Proof.Machine.execAtsInvalidate func page s
  | .dlDown => Sys2Proof.Machine.execDlDown s
  | .msixUnmask func entry => Sys2Proof.Machine.execMsixUnmask func entry s
  | .poisonedTlp what => Sys2Proof.Machine.execPoisonedTlp what s
  | .completionTimeout what => Sys2Proof.Machine.execCompletionTimeout what s
  | .lockInterface ctx => Sys2Proof.Machine.execLockInterface ctx s
  | .startInterface ctx => Sys2Proof.Machine.execStartInterface ctx s
  | .stopInterface ctx => Sys2Proof.Machine.execStopInterface ctx s
  | .tdiError ctx => Sys2Proof.Machine.execTdiError ctx s
  | .getMeasurements nonce => Sys2Proof.Machine.execGetMeasurements nonce s
  | .openRegion expect entry base rows owner access secret => Sys2Proof.Machine.execOpenRegion expect entry base rows owner access secret s
  | .closeRegion expect entry => Sys2Proof.Machine.execCloseRegion expect entry s
  | .bindIngestKey expect slot owner key => Sys2Proof.Machine.execBindIngestKey expect slot owner key s
  | .unbindIngestKey expect slot => Sys2Proof.Machine.execUnbindIngestKey expect slot s
  | .confine expect ctx => Sys2Proof.Machine.execConfine expect ctx s
  | .wrap expect blob => Sys2Proof.Machine.execWrap expect blob s
  | .unwrap expect blob => Sys2Proof.Machine.execUnwrap expect blob s
  | .measurementExtend slot digest => Sys2Proof.Machine.execMeasurementExtend slot digest s
  | .confinedTileClear t => Sys2Proof.Machine.execConfinedTileClear t s
  | .debugOpening nonce token scope keyIndex => Sys2Proof.Machine.execDebugOpening nonce token scope keyIndex s
  | .svnCommit => Sys2Proof.Machine.execSvnCommit s
  | .svcAttach ctx seq vec => Sys2Proof.Machine.execSvcAttach ctx seq vec s
  | .groupSet ctx seq group record schedule => Sys2Proof.Machine.execGroupSet ctx seq group record schedule s
  | .stepRun ctx seq steps => Sys2Proof.Machine.execStepRun ctx seq steps s
  | .fallback ctx seq => Sys2Proof.Machine.execFallback ctx seq s
  | .lscalePolicy ctx seq interval cap => Sys2Proof.Machine.execLscalePolicy ctx seq interval cap s
  | .stepReport ctx seq => Sys2Proof.Machine.execStepReport ctx seq s
  | .checkpoint ctx seq step place sealed => Sys2Proof.Machine.execCheckpoint ctx seq step place sealed s
  | .partLoad ctx seq part image => Sys2Proof.Machine.execPartLoad ctx seq part image s
  | .fwUpdate ctx seq cluster image => Sys2Proof.Machine.execFwUpdate ctx seq cluster image s
  | .clusterFailover cluster => Sys2Proof.Machine.execClusterFailover cluster s
  | .gcAccess core mOrHs pa op => Sys2Proof.Machine.execGcAccess core mOrHs pa op s
  | .amoRelease core pa val => Sys2Proof.Machine.execAmoRelease core pa val s
  | .ingRingTail req n r val => Sys2Proof.Machine.execIngRingTail req n r val s
  | .ingestDescriptor n r loads => Sys2Proof.Machine.execIngestDescriptor n r loads s
  | .ingestEnd n => Sys2Proof.Machine.execIngestEnd n s
  | .ingRingDisable req n r val => Sys2Proof.Machine.execIngRingDisable req n r val s
  | .registerWrite req off val => Sys2Proof.Machine.execRegisterWrite req off val s
  | .shadowReadLo req off => Sys2Proof.Machine.execShadowReadLo req off s
  | .stagedWriteLo req off val => Sys2Proof.Machine.execStagedWriteLo req off val s
  | .stagedWriteHi req off val => Sys2Proof.Machine.execStagedWriteHi req off val s
  | .sequenceClear req off val => Sys2Proof.Machine.execSequenceClear req off val s
  | .seqAdvancePending off => Sys2Proof.Machine.execSeqAdvancePending off s
  | .crcPass => Sys2Proof.Machine.execCrcPass s
  | .crcHold req val => Sys2Proof.Machine.execCrcHold req val s
  | .crcCommit req val => Sys2Proof.Machine.execCrcCommit req val s
  | .crcRefWrite req val => Sys2Proof.Machine.execCrcRefWrite req val s
  | .ceilingEvaluate q => Sys2Proof.Machine.execCeilingEvaluate q s
  | .ceilingRise q => Sys2Proof.Machine.execCeilingRise q s
  | .riseTimeout q => Sys2Proof.Machine.execRiseTimeout q s
  | .voltageLower q => Sys2Proof.Machine.execVoltageLower q s
  | .avsPoll rail reply => Sys2Proof.Machine.execAvsPoll rail reply s
  | .gustTrigger q => Sys2Proof.Machine.execGustTrigger q s
  | .gustRelease q => Sys2Proof.Machine.execGustRelease q s
  | .droop phys cycles => Sys2Proof.Machine.execDroop phys cycles s
  | .currentEstimate q amps => Sys2Proof.Machine.execCurrentEstimate q amps s
  | .thermalResponse q temp => Sys2Proof.Machine.execThermalResponse q temp s
  | .thermtrip => Sys2Proof.Machine.execThermtrip s
  | .pllUnlock q => Sys2Proof.Machine.execPllUnlock q s
  | .pllRelock q => Sys2Proof.Machine.execPllRelock q s
  | .refLost => Sys2Proof.Machine.execRefLost s
  | .sdrefLost q => Sys2Proof.Machine.execSdrefLost q s
  | .faultLogCommit => Sys2Proof.Machine.execFaultLogCommit s
  | .tileRetire req val => Sys2Proof.Machine.execTileRetire req val s
  | .tileQuiesced => Sys2Proof.Machine.execTileQuiesced s
  | .tileCopyComplete => Sys2Proof.Machine.execTileCopyComplete s
  | .oldTileCleared => Sys2Proof.Machine.execOldTileCleared s
  | .bridgeLaneSwap b => Sys2Proof.Machine.execBridgeLaneSwap b s
  | .bridgeLost b => Sys2Proof.Machine.execBridgeLost b s
  | .powerUp => Sys2Proof.Machine.execPowerUp s
  | .powerLoss => Sys2Proof.Machine.execPowerLoss s
  | .sysReset => Sys2Proof.Machine.execSysReset s
  | .sysResetRelease fusesOk flashOk loaderA loaderB => Sys2Proof.Machine.execSysResetRelease fusesOk flashOk loaderA loaderB s
  | .loaderStart stacksOk repairsOk fw config => Sys2Proof.Machine.execLoaderStart stacksOk repairsOk fw config s
  | .firmwareStart repairs granules => Sys2Proof.Machine.execFirmwareStart repairs granules s
  | .perst low => Sys2Proof.Machine.execPerst low s
  | .pcieConfigReady => Sys2Proof.Machine.execPcieConfigReady s
  | .smbusStageRead => Sys2Proof.Machine.execSmbusStageRead s
  | .laneLockLoss p lane => Sys2Proof.Machine.execLaneLockLoss p lane s
  | .signalLoss p => Sys2Proof.Machine.execSignalLoss p s
  | .configurationRequest what => Sys2Proof.Machine.execConfigurationRequest what s
  | .spdmKeyExchange session => Sys2Proof.Machine.execSpdmKeyExchange session s
  | .ideKm func key => Sys2Proof.Machine.execIdeKm func key s
  | .pldmFirmwareUpdate cluster image => Sys2Proof.Machine.execPldmFirmwareUpdate cluster image s
  | .sealPacketLimit p => Sys2Proof.Machine.execSealPacketLimit p s
  | .stackTemperature stack temp => Sys2Proof.Machine.execStackTemperature stack temp s
  | .windowOpen q => Sys2Proof.Machine.execWindowOpen q s
  | .wakeComplete t latencyNs => Sys2Proof.Machine.execWakeComplete t latencyNs s
  | .regionZeroed entry => Sys2Proof.Machine.execRegionZeroed entry s
  | .atsTranslation cq writable => Sys2Proof.Machine.execAtsTranslation cq writable s
  | .malformedTlp => Sys2Proof.Machine.execMalformedTlp s

end Sys2Proof.Machine
end

