-- ==== Sys2Proof/Machine/Step.lean ====
section
/-! DEFINITION. One step of the block: the command at the front of the queue, or an idle tick of the fabric-time clock. -/
namespace Sys2Proof.Machine

/-- An empty queue: a part that runs passes one tick of its fabric-time clock (02 R22, log 2); another one does nothing. -/
def idle (s : State) : State :=
  if s.dev.alive then { s with dev := s.dev.ftTick } else s

/-- The step: the command waiting longest, run on the state with the rest of the queue. -/
def step (s : State) : Host.Outcome State Fault Refusal :=
  match s.pending with
  | [] => .next (idle s)
  | c :: rest => exec c { s with pending := rest }

/-- `s` with the command a word spells put at the front of its queue; `s` itself where the word spells none. -/
def State.withFetchWord (s : State) (nbits w : Nat) : State :=
  match decodeTableWord nbits w with
  | none => s
  | some c => { s with pending := c :: s.pending }

end Sys2Proof.Machine
end

