-- ==== Sys2Proof/Safety.lean ====
section
/-! DEFINITION. What counts as a safe step, in the terms the claims use. -/
namespace Sys2Proof.Machine

/-- The commands of the supply and reset pins: the only ones that act on a part that does not run (20 R494-R499). -/
def isPin : Instr → Bool
  | .powerUp => true
  | .powerLoss => true
  | .sysReset => true
  | .sysResetRelease _ _ _ _ => true
  | .perst _ => true
  | _ => false

/-- What was burnt into the fuses stays burnt (16 R413, R416, R425; 20 Table 2): the lifecycle, the security version
numbers, the revoked keys and the count of debug openings never go back. -/
def FusesKept (l m : Life) : Prop :=
  m.lifecycle = l.lifecycle ∧ l.loaderSvn ≤ m.loaderSvn ∧ l.fwSvn ≤ m.fwSvn ∧
  (∀ i, l.revoked.getLsbD i = true → m.revoked.getLsbD i = true) ∧ l.debugCount ≤ m.debugCount

/-- A well-formed command comes to a part that runs. -/
def Ready (c : Instr) (s : State) : Prop := c.wf = true ∧ s.dev.alive = true

/-- A well-formed command of a unit that reaches memory comes to a part that runs, while no repair of a pseudo-channel can hold an
access of it (07 R210). -/
def Reaches (c : Instr) (s : State) : Prop := Ready c s ∧ s.dev.repairing = false

/-- `s` with one half of one tile changed, and nothing else. -/
def State.withHalf (s : State) (t h : Nat) (f : HalfState → HalfState) : State := { s with dev := s.dev.modHalf t h f }

/-- The word a half fetches holds no correctable error, which the fetch would find first (07 R204). -/
def FetchesClean (s : State) (t h : Nat) : Prop := (s.dev.tile t).weakIn (s.dev.fetchOff t h) 8 = []

/-- A half may issue an instruction that names these scalar registers, and its guard lets it act: the half issues, the word
is legal, no register it names has a write to come, its token wait is met (05 R115, R116, R120, R129). -/
def Enters (s : State) (t h : Nat) (w : W64) (regs : List Nat) : Prop :=
  s.dev.mayIssue t h = true ∧ FetchesClean s t h ∧ s.dev.fetchFault t h w = none ∧ regs.any (s.dev.half t h).busyReg = false ∧
  (s.dev.half t h).waitMet w = true ∧ (s.dev.half t h).guard w = true

/-- The same of an instruction of the scalar unit: the token that it signals as it issues has room for one more (05 R132). -/
def Issues (s : State) (t h : Nat) (w : W64) (regs : List Nat) : Prop :=
  Enters s t h w regs ∧ (fSV w = true → signalsAtIssue w = true → ((s.dev.half t h).takeWait w).tokFull (fST w) = false)

/-- What every instruction of the scalar unit that completes as it issues leaves of a half: its wait is lowered, `f` is
done, its token is signalled, and issue moves on (05 R115, R129, R130). -/
def HalfState.retire (w : W64) (f : HalfState → HalfState) (x : HalfState) : HalfState := (f (x.takeWait w)).done w

/-- What issue leaves of a half whose array or vector queue was empty when an instruction issued into it and started: its
token wait taken, the entry at the head marked as started, the PC past it, and `upd`'s record of the issue (05 R120, R130). -/
def HalfState.started (q : QueueId) (w : W64) (upd : QEntry → HalfState → HalfState) (x : HalfState) : HalfState :=
  ((((upd (x.entry w) x).takeWait w)).putQueue q [{ x.entry w with started := true }]).nextPc

/-- A step that ends neither in a fault nor in a refusal. -/
def Steps (s : State) : Prop := ∃ t, step s = .next t

end Sys2Proof.Machine
end

