-- ==== Sys2Proof/Certificates/Slice0/Obligations.lean ====
section
/-! DEFINITION. The statements about this model, for the provers. Each is about every state that meets its hypotheses. -/
open Sys2Proof Sys2Proof.Machine

/-! ## The machine as a whole -/

/-- A step runs the command at the front of the queue on the state with the queue's rest. -/
def Obligations.StepRunsFrontCommand : Prop :=
  ∀ (s : State) (c : Instr) (rest : List Instr), s.pending = c :: rest → step s = exec c { s with pending := rest }

/-- An empty queue: a part whose counter is enabled passes one cycle of its fabric-time clock, adding FT_INCR (02 R22); a
part that does not run, stays. The tick is the model's choice (log 2). -/
def Obligations.IdleStepIsOneFabricClock : Prop :=
  ∀ s : State, s.pending = [] →
    (s.dev.alive = true → s.dev.ftEn = true → ∃ t, step s = .next t ∧ t.pending = [] ∧ t.life = s.life ∧
      t.dev.ft.now = BitVec.ofNat 64 ((s.dev.ft.now.toNat * 2 ^ 32 + s.dev.ft.frac.toNat + s.dev.ft.incr.toNat) / 2 ^ 32) ∧
      t.dev.ft.frac = BitVec.ofNat 32 (s.dev.ft.now.toNat * 2 ^ 32 + s.dev.ft.frac.toNat + s.dev.ft.incr.toNat)) ∧
    (s.dev.alive = true → s.dev.ftEn = false → ∃ t, step s = .next t ∧ t.dev.ft = s.dev.ft ∧ t.dev.regs = s.dev.regs) ∧
    (s.dev.alive = false → step s = .next s)

/-- No command ends in a fault or a refusal, whatever the state (log 6). -/
def EveryCommandAnswersNextState : Prop := ∀ (c : Instr) (s : State), ∃ t, exec c s = .next t

/-- A command changes the queue of waiting commands in no way. -/
def CommandsLeaveTheQueue : Prop :=
  ∀ (c : Instr) (s t : State), exec c s = .next t → t.pending = s.pending

/-- Every command, whatever the state, ends in a next state, neither a fault nor a refusal (log 6), and leaves the queue of waiting commands as
it is. -/
def Obligations.EveryCommandAnswers : Prop := EveryCommandAnswersNextState ∧ CommandsLeaveTheQueue

/-- A part that is not powered, is held in reset, or has stopped its clocks answers no command but its supply and reset
pins' (01 R21, 18 R469). -/
def DeadPartAnswersPinsOnly : Prop :=
  ∀ (c : Instr) (s : State), s.dev.alive = false → isPin c = false → exec c s = .next s

/-- A command that is not well-formed changes nothing: the model's choice (log 6). -/
def IllFormedCommandChangesNothing : Prop :=
  ∀ (c : Instr) (s : State), c.wf = false → exec c s = .next s

/-- A dead part answers its pins alone, and a command that is not well-formed changes nothing (log 6). -/
def Obligations.CommandsWithoutEffect : Prop := DeadPartAnswersPinsOnly ∧ IllFormedCommandChangesNothing

/-- No step turns back what is burnt into the fuses: the lifecycle stays, the security version numbers and the count of
debug openings never fall, no revoked key returns (16 R413, R416, R425; 20 Table 2). -/
def Obligations.FusesNeverTurnBack : Prop := ∀ s t : State, step s = .next t → FusesKept s.life t.life

/-- DEBUG_OPEN rises at a DEBUG_OPENING alone, and falls at power alone: no reset closes it (16 R425, R426; 20 Table 2). -/
def Obligations.DebugOpenChangesOnlyByOpeningAndPower : Prop :=
  ∀ s t : State, step s = .next t →
    (s.life.debugOpen = false → t.life.debugOpen = true →
      ∃ nonce token scope key rest, s.pending = .debugOpening nonce token scope key :: rest) ∧
    (s.life.debugOpen = true → t.life.debugOpen = false → ∃ rest, s.pending = .powerUp :: rest ∨ s.pending = .powerLoss :: rest)

/-- The invariant of the debug count: at most 64 openings are ever counted, and a part that stands open has counted one
(16 R425). -/
def DebugCounted (s : State) : Prop := s.life.debugCount ≤ 64 ∧ (s.life.debugOpen = true → 1 ≤ s.life.debugCount)

/-- Every step keeps the invariant of the debug count. -/
def Obligations.DebugCountIsInvariant : Prop := ∀ s t : State, DebugCounted s → step s = .next t → DebugCounted t

/-- The state right after reset meets the invariant of the debug count, and its byte stores are canonical. -/
def Obligations.ResetMeetsTheInvariants : Prop := DebugCounted State.reset ∧ Memory.wf State.reset.dev = true ∧ State.reset.pending = []

/-! ## Fabric time (02) -/

/-- BEAT_BOUNDARY brings FT_NOW to the next multiple of 2^20; NOTICE_EXPIRY forgets the notice 64 beats past its beat, counted modulo
2^44, and keeps every other (02 R24, R39, R44; log 2 on the counter's exact value). -/
def BeatBoundaryAndNoticeExpiry : Prop :=
  (∀ s : State, Ready .beatBoundary s → s.dev.ftEn = true → ∃ t, exec .beatBoundary s = .next t ∧
    t.dev.ft.now = BitVec.ofNat 64 ((s.dev.beatNo + 1) * 2 ^ 20) ∧ t.dev.ft.frac = 0 ∧ t.dev.ft.incr = s.dev.ft.incr ∧
    t.dev.ft.mode = s.dev.ft.mode) ∧
  (∀ (s : State) (r : Nat) (n : W16), Ready (.noticeExpiry r n) s → ∃ t, exec (.noticeExpiry r n) s = .next t ∧
    (∀ x ∈ t.dev.ft.notices, x ∈ s.dev.ft.notices ∧
      ¬(x.notice.requester = r ∧ x.notice.number = n ∧ 64 ≤ beatDiff s.dev.beatNo x.notice.applyBeat.toNat)) ∧
    (∀ x ∈ s.dev.ft.notices, x ∈ t.dev.ft.notices ∨
      (x.notice.requester = r ∧ x.notice.number = n ∧ 64 ≤ beatDiff s.dev.beatNo x.notice.applyBeat.toNat)))

/-- The changes of the fabric-time state: a chip that ranked itself best becomes MASTER without a step, 16 stamps in lock
make LOCKED, 8 boundaries without the master's announce drop the parent (02 R27, R29, R30, R34). -/
def Obligations.FabricTimeStateChanges : Prop :=
  (∀ s : State, Ready .masterElected s → (s.dev.ft.mode = .free ∨ s.dev.ft.mode = .holdover) →
    s.dev.maxHops + 2 ≤ s.dev.ft.selfBest → s.dev.hearsBetter = false → s.dev.ftEn = true →
    ∃ t, exec .masterElected s = .next t ∧ t.dev.ft.mode = .master ∧ t.dev.ft.now = s.dev.ft.now ∧
      t.dev.ft.parent = none ∧ t.dev.ft.hops = 0 ∧ t.dev.ft.master = some s.dev.node ∧
      (s.dev.ftSrc = false → t.dev.ft.incr = BitVec.ofNat 64 (640 * 2 ^ 32))) ∧
  (∀ s : State, Ready .lockAcquired s → s.dev.ft.mode = .acquire → 16 ≤ s.dev.ft.inLock →
    ∃ t, exec .lockAcquired s = .next t ∧ t.dev.ft.mode = .locked ∧ t.dev.ft.now = s.dev.ft.now ∧
      (t.dev.event evFt).flags = (s.dev.event evFt).flags ||| 1) ∧
  (∀ (s : State) (p : Nat), Ready .parentLost s → s.dev.ft.parent = some p → 8 ≤ s.dev.ft.missed →
    (∀ e ∈ mapDel s.dev.ft.heard p, s.dev.ft.master ≠ some e.2.node) →
    ∃ t, exec .parentLost s = .next t ∧ t.dev.ft.parent = none ∧ t.dev.ft.now = s.dev.ft.now ∧
      (s.dev.ft.mode = .locked → t.dev.ft.mode = .holdover) ∧ (s.dev.ft.mode = .acquire → t.dev.ft.mode = .free))

/-- The pulse input: an edge is captured while PPS_EN is set; on an armed external master it loads FT_EPOCH into FT_NOW; on one
that expected it at another time the increment slows a counter that was ahead and hurries one that was behind, the next edge being
expected a second after this one was; a missing edge ends the external class (02 R23, R30; log 7 on the amount). -/
def PulsePerSecond : Prop :=
  (∀ s : State, Ready .ftPpsEdge s → s.dev.ppsEn = true → (s.dev.ft.mode = .master ∧ s.dev.ftSrc = true → False) →
    ∃ t, exec .ftPpsEdge s = .next t ∧ t.dev.ft.ppsCap = s.dev.ft.now ∧ t.dev.ft.ppsValid = true ∧ t.dev.ft.now = s.dev.ft.now) ∧
  (∀ s : State, Ready .ftPpsEdge s → s.dev.ft.mode = .master → s.dev.ftSrc = true → s.dev.ft.epochArmed = true →
    ∃ t, exec .ftPpsEdge s = .next t ∧ t.dev.ft.now = s.dev.word64 (offFt + 0x50) ∧ t.dev.ft.epochArmed = false ∧
      t.dev.ft.external = s.dev.ft.refValid ∧ t.dev.ft.ppsCap = s.dev.ft.now) ∧
  (∀ (s : State) (e : W64), Ready .ftPpsEdge s → s.dev.ft.mode = .master → s.dev.ftSrc = true → s.dev.ft.epochArmed = false → s.dev.ft.ppsExpect = some e →
    ∃ t, exec .ftPpsEdge s = .next t ∧ t.dev.ft.now = s.dev.ft.now ∧ t.dev.ft.ppsCap = s.dev.ft.now ∧
      t.dev.ft.ppsExpect = some (e + BitVec.ofNat 64 (1000000000 * 1024)) ∧
      Config.incrNominal - 100 * Config.incrPpm ≤ t.dev.ft.incr.toNat ∧ t.dev.ft.incr.toNat ≤ Config.incrNominal + 100 * Config.incrPpm ∧
      (0 < ftDiff s.dev.ft.now e → Config.incrNominal - 100 * Config.incrPpm ≤ s.dev.ft.incr.toNat → t.dev.ft.incr.toNat ≤ s.dev.ft.incr.toNat) ∧
      (ftDiff s.dev.ft.now e < 0 → s.dev.ft.incr.toNat ≤ Config.incrNominal + 100 * Config.incrPpm → s.dev.ft.incr.toNat ≤ t.dev.ft.incr.toNat)) ∧
  (∀ s : State, Ready .ppsMissing s → s.dev.ppsLate = false → exec .ppsMissing s = .next s) ∧
  (∀ s : State, Ready .ppsMissing s → s.dev.ppsLate = true → s.dev.ft.mode = .master → s.dev.ftSrc = true → s.dev.ft.ppsValid = true →
    ∃ t, exec .ppsMissing s = .next t ∧ t.dev.ft.external = false ∧ t.dev.ft.ppsValid = false ∧ t.dev.ft.mode = .master) ∧
  (∀ (s : State) (req : Req) (hi : W32), Ready (.ftEpochArm req hi) s →
    ∃ t, exec (.ftEpochArm req hi) s = .next t ∧ t.dev.ft.epochArmed = true ∧ t.dev.ft.now = s.dev.ft.now)

/-- Clearing FT_CTL.EN holds FT_NOW, makes the state FREE and clears the member list (02 R26). -/
def FabricTimeDisabled : Prop :=
  ∀ (s : State) (req : Req) (val : W32), Ready (.ftDisable req val) s → fbit val 0 = false →
    ∃ t, exec (.ftDisable req val) s = .next t ∧ t.dev.ftEn = false ∧ t.dev.ft.mode = .free ∧ t.dev.ft.members = [] ∧
      t.dev.ft.parent = none ∧ t.dev.ft.now = s.dev.ft.now

/-- The counter of fabric time: its boundaries, its pulse input, and its disabling. -/
def Obligations.FabricTimeCounter : Prop := BeatBoundaryAndNoticeExpiry ∧ PulsePerSecond ∧ FabricTimeDisabled

/-- A slip request of n slots, on a part that releases schedule targets, holds one more notice, of n slot lengths, applying
LEAD beats on, under the next number; 0 does nothing; a part that does not release refuses it with an event. A notice from
a partner is held once, and a copy of one held does nothing (02 R39). -/
def SlipNotices : Prop :=
  (∀ (s : State) (req : Req) (val : W32), Ready (.slipRequest req val) s → fld val 15 0 ≠ 0 →
    fld val 15 0 * s.dev.slotFtu < 2 ^ 48 → s.dev.releasing = true →
    ∃ t x, exec (.slipRequest req val) s = .next t ∧ t.dev.ft.notices = s.dev.ft.notices ++ [x] ∧
      x.notice.requester = s.dev.node ∧ x.notice.number = s.dev.ft.nextNotice ∧
      x.notice.amount = fld val 15 0 * (s.dev.slotNs * 1024) ∧
      x.notice.applyBeat = BitVec.ofNat 44 (s.dev.beatNo + fld (s.dev.word (offFt + 0x38)) 5 0) ∧
      x.late = false ∧ x.applied = false ∧ t.dev.ft.slip = s.dev.ft.slip) ∧
  (∀ (s : State) (req : Req) (val : W32), Ready (.slipRequest req val) s → fld val 15 0 ≠ 0 → s.dev.releasing = false →
    ∃ t, exec (.slipRequest req val) s = .next t ∧ t.dev.ft = s.dev.ft ∧
      (t.dev.event evFt).flags = (s.dev.event evFt).flags ||| 64) ∧
  (∀ (s : State) (p : Nat) (n : SlipNotice), Ready (.slip p n) s → (s.dev.port p).beats = true →
    (s.dev.port p).sameDomain = true → (∀ x ∈ s.dev.ft.notices, ¬(x.notice.requester = n.requester ∧ x.notice.number = n.number)) →
    ∃ t x, exec (.slip p n) s = .next t ∧ t.dev.ft.notices = s.dev.ft.notices ++ [x] ∧ x.notice = n) ∧
  (∀ (s : State) (p : Nat) (n : SlipNotice), Ready (.slip p n) s → (s.dev.port p).beats = true →
    (s.dev.port p).sameDomain = true → (∃ x ∈ s.dev.ft.notices, x.notice.requester = n.requester ∧ x.notice.number = n.number) →
    exec (.slip p n) s = .next s)

/-- A BEAT keeps its port's heartbeat; a probe sent has 31 hops and goes out or waits on its port; the answer of one counts an exchange and
its round trip, t4 - t1 less t3 - t2, in the mean of training (02 R31; 13 R368, R369). -/
def BeatsAndProbes : Prop :=
  (∀ (s : State) (p : Nat) (b : BeatBody), Ready (.beatReceived p b) s → (s.dev.port p).beats = true →
    ∃ t, exec (.beatReceived p b) s = .next t ∧ (t.dev.port p).missed = 0) ∧
  (∀ (s : State) (p : Nat), Ready (.probeExchange p) s → ((s.dev.port p).beats = true ∨ (s.dev.port p).mode = .exchange) →
    ∃ t, exec (.probeExchange p) s = .next t ∧ t.dev.ft = s.dev.ft ∧ t.dev.tiles = s.dev.tiles ∧ t.dev.mem = s.dev.mem ∧
      (∃ pk : Packet, pk.type = 0x23 ∧ pk.hops = 31 ∧ pk.data = leBytes 8 s.dev.ft.now.toNat ++ leBytes 16 0 ∧
        (pk ∈ (t.dev.port p).txq ∨ ∃ k, .packet p { pk with kphase := k } ∈ t.dev.out))) ∧
  (∀ (s : State) (p : Nat) (t1 t2 t3 : W64), Ready (.probe p true t1 t2 t3) s → ((s.dev.port p).beats = true ∨ (s.dev.port p).mode = .exchange) →
    (s.dev.port p).probes < 63 →
    ∃ t, exec (.probe p true t1 t2 t3) s = .next t ∧ (t.dev.port p).probes = (s.dev.port p).probes + 1 ∧
      (t.dev.port p).rttSum = (s.dev.port p).rttSum + (ftDiff s.dev.ft.now t1 - ftDiff t3 t2))

/-- What the parts of a domain tell each other of time: slip notices, beats and probes. -/
def Obligations.SlipsBeatsAndProbes : Prop := SlipNotices ∧ BeatsAndProbes

/-! ## The scalar unit of a tile half (05) -/

/-- The next state of an instruction of the scalar unit that completes as it issues with the effect `f`. -/
def Completes (c : Instr) (s : State) (t h : Nat) (w : W64) (f : HalfState → HalfState) : Prop :=
  exec c s = .next (s.withHalf t h (HalfState.retire w f))

/-- The integer instructions write to s[A] what their function gives of the operands, and change nothing else of the machine
but the PC and the tokens; the functions are those of 05 Table 4, shift counts taken modulo 64; their reserved fields and functions are
ILLEGAL, a fault taken once the half's earlier operations have completed (05 R122, R123, R145). -/
def Obligations.ScalarArithmetic : Prop :=
  ∀ (s : State) (t h : Nat) (w : W64), let b := (s.dev.half t h).reg (fB w); let c := (s.dev.half t h).reg (fC w)
    (Ready (.nop t h w) s → Issues s t h w [] → Completes (.nop t h w) s t h w id) ∧
    (Ready (.alu t h w) s → Issues s t h w [fA w, fB w, fC w] → ∃ v, Completes (.alu t h w) s t h w (HalfState.setReg (fA w) v) ∧
      (bw w 4 0 = 0 → v = b + c) ∧ (bw w 4 0 = 1 → v = b - c) ∧ (bw w 4 0 = 2 → v = b * c) ∧
      (bw w 4 0 = 3 → v.toNat = b.toNat * c.toNat / 2 ^ 64) ∧ (bw w 4 0 = 4 → v.toInt = b.toInt * c.toInt / 2 ^ 64) ∧
      (bw w 4 0 = 5 → v = b &&& c) ∧ (bw w 4 0 = 6 → v = b ||| c) ∧ (bw w 4 0 = 7 → v = b ^^^ c) ∧
      (bw w 4 0 = 8 → v = b <<< (c.toNat % 64)) ∧ (bw w 4 0 = 9 → v = b >>> (c.toNat % 64)) ∧
      (bw w 4 0 = 10 → v = b.sshiftRight (c.toNat % 64)) ∧ (bw w 4 0 = 11 → v.toNat = min b.toNat c.toNat) ∧
      (bw w 4 0 = 12 → v.toInt = min b.toInt c.toInt) ∧ (bw w 4 0 = 13 → v.toNat = max b.toNat c.toNat) ∧
      (bw w 4 0 = 14 → v.toInt = max b.toInt c.toInt) ∧
      (bw w 4 0 = 15 → v = if (s.dev.half t h).pred (fD w) then b else c)) ∧
    (Ready (.addi t h w) s → Issues s t h w [fA w, fB w] → Completes (.addi t h w) s t h w (HalfState.setReg (fA w) (b + imm31 w))) ∧
    (Ready (.andi t h w) s → Issues s t h w [fA w, fB w] → Completes (.andi t h w) s t h w (HalfState.setReg (fA w) (b &&& imm31 w))) ∧
    (Ready (.ori t h w) s → Issues s t h w [fA w, fB w] → Completes (.ori t h w) s t h w (HalfState.setReg (fA w) (b ||| imm31 w))) ∧
    (Ready (.xori t h w) s → Issues s t h w [fA w, fB w] → Completes (.xori t h w) s t h w (HalfState.setReg (fA w) (b ^^^ imm31 w))) ∧
    (Ready (.shi t h w) s → Issues s t h w [fA w] → ∃ v, Completes (.shi t h w) s t h w (HalfState.setReg (fA w) v) ∧
      (fFN4 w = 0 → v = (s.dev.half t h).reg (fA w) <<< imm32 w) ∧ (fFN4 w = 1 → v = (s.dev.half t h).reg (fA w) >>> imm32 w) ∧
      (fFN4 w = 2 → v = ((s.dev.half t h).reg (fA w)).sshiftRight (imm32 w))) ∧
    (Ready (.liLo t h w) s → Issues s t h w [fA w] →
      Completes (.liLo t h w) s t h w (HalfState.setReg (fA w) ((BitVec.ofNat 32 (imm32 w)).signExtend 64))) ∧
    (Ready (.liHi t h w) s → Issues s t h w [fA w] →
      Completes (.liHi t h w) s t h w (HalfState.setReg (fA w)
        (BitVec.ofNat 64 (((s.dev.half t h).reg (fA w)).toNat % 2 ^ 32 + imm32 w * 2 ^ 32)))) ∧
    (∀ i, (i = .alu t h w ∧ (bw w 15 5 ≠ 0 ∨ 16 ≤ bw w 4 0 ∨ (bw w 4 0 ≠ 15 ∧ fD w ≠ 0) ∨ (bw w 4 0 = 15 ∧ 8 ≤ fD w)) ∨
        i = .shi t h w ∧ (3 ≤ fFN4 w ∨ 64 ≤ imm32 w) ∨ i = .liLo t h w ∧ 2 ≤ fFN4 w) → Ready i s → s.dev.mayIssue t h = true →
      (s.dev.half t h).pc ≤ (s.dev.tile t).pcMax → FetchesClean s t h → (s.dev.tile t).badIn (s.dev.fetchOff t h) 8 = none →
      exec i s = .next { s with dev := s.dev.faultHere t h w id fltIllegal 0 })

/-- s0 reads zero and discards writes, p0 reads one, and a write of any other register is read back, leaving every other
register as it was (05 R118). -/
def ScalarRegisters : Prop :=
  ∀ (x : HalfState) (n k : Nat) (v : W64) (b : Bool), x.reg 0 = 0 ∧ x.setReg 0 v = x ∧ x.pred 0 = true ∧
    (n ≠ 0 → (x.setReg n v).reg n = v) ∧ (k ≠ n → (x.setReg n v).reg k = x.reg k) ∧
    (n ≠ 0 → n < 8 → (x.setPred n b).pred n = b) ∧ (k ≠ n → (x.setPred n b).pred k = x.pred k) ∧
    (x.setReg n v).preds = x.preds ∧ (x.setPred n b).sregs = x.sregs

/-- The compares write a predicate by the conditions of 05 Table 6, `pop` by its function; a write of p0 is ignored; their reserved fields, conditions
and functions are ILLEGAL (05 R126, R127). -/
def Obligations.ComparesAndPredicates : Prop :=
  ∀ (s : State) (t h : Nat) (w : W64), let x := s.dev.half t h; let b := x.reg (fB w)
    let holds (cc : Nat) (c : W64) (v : Bool) : Prop :=
      (cc = 0 → v = decide (b = c)) ∧ (cc = 1 → v = decide (b ≠ c)) ∧ (cc = 2 → v = decide (b.toInt < c.toInt)) ∧
      (cc = 3 → v = decide (b.toInt ≥ c.toInt)) ∧ (cc = 4 → v = decide (b.toNat < c.toNat)) ∧ (cc = 5 → v = decide (b.toNat ≥ c.toNat)) ∧
      (cc = 6 → v = (b - c).msb) ∧ (cc = 7 → v = !(b - c).msb) ∧
      (cc = 8 → v = (b.setWidth 32 - c.setWidth 32).msb) ∧ (cc = 9 → v = !(b.setWidth 32 - c.setWidth 32).msb) ∧
      (cc = 10 → v = decide (b &&& c ≠ 0)) ∧ (cc = 11 → v = decide (b &&& c = 0))
    (Ready (.cmp t h w) s → Issues s t h w [fB w, fC w] → ∃ v, Completes (.cmp t h w) s t h w (HalfState.setPred (fA w) v) ∧
      holds (bw w 3 0) (x.reg (fC w)) v) ∧
    (Ready (.cmpi t h w) s → Issues s t h w [fB w] → ∃ v, Completes (.cmpi t h w) s t h w (HalfState.setPred (fA w) v) ∧
      holds (fCC w) (imm27 w) v) ∧
    (Ready (.pop t h w) s → Issues s t h w [] → ∃ v, Completes (.pop t h w) s t h w (HalfState.setPred (fA w) v) ∧
      (fFN w = 0 → v = (x.pred (fB w) && x.pred (fC w))) ∧ (fFN w = 1 → v = (x.pred (fB w) || x.pred (fC w))) ∧
      (fFN w = 2 → v = (x.pred (fB w) ^^ x.pred (fC w))) ∧ (fFN w = 3 → v = (x.pred (fB w) && !x.pred (fC w))) ∧
      (fFN w = 4 → v = x.pred (fB w))) ∧
    (∀ y v, HalfState.setPred 0 v y = y) ∧
    (∀ c, (c = .cmp t h w ∧ (bw w 15 4 ≠ 0 ∨ fD w ≠ 0 ∨ 12 ≤ bw w 3 0) ∨ c = .cmpi t h w ∧ 12 ≤ fCC w ∨ c = .pop t h w ∧ 5 ≤ fFN w) → Ready c s →
      s.dev.mayIssue t h = true → x.pc ≤ (s.dev.tile t).pcMax → FetchesClean s t h → (s.dev.tile t).badIn (s.dev.fetchOff t h) 8 = none →
      exec c s = .next { s with dev := s.dev.faultHere t h w id fltIllegal 0 })

/-- Branches: `br` goes to its target, `bdec` lowers s[A] and goes there unless it became zero, `brr` goes to s[B], and a
value of s[B] beyond the bank is ILLEGAL and moves nothing; `end` stops issue with its code and moves the PC past itself; `rdsr`
reads the special registers, all but the PC and s[A] unchanged, the cycle count being a free value (05 R125, R128, R144; log 4). -/
def Obligations.BranchesEndAndSpecialRegisters : Prop :=
  ∀ (s : State) (t h : Nat) (w : W64), let x := s.dev.half t h
    let goes (c : Instr) (f : HalfState → HalfState) (target : Nat) : Prop :=
      exec c s = .next (s.withHalf t h (fun y => { HalfState.retire w f y with pc := target }))
    (Ready (.br t h w) s → Issues s t h w [] → goes (.br t h w) id (bw w 13 0)) ∧
    (Ready (.bdec t h w) s → Issues s t h w [fA w] → fA w ≠ 0 ∧
      (x.reg (fA w) ≠ 1 → goes (.bdec t h w) (HalfState.setReg (fA w) (x.reg (fA w) - 1)) (bw w 13 0)) ∧
      (x.reg (fA w) = 1 → Completes (.bdec t h w) s t h w (HalfState.setReg (fA w) 0))) ∧
    (Ready (.brr t h w) s → Issues s t h w [fB w] →
      ((x.reg (fB w)).toNat ≤ (s.dev.tile t).pcMax → goes (.brr t h w) id (x.reg (fB w)).toNat) ∧
      ((s.dev.tile t).pcMax < (x.reg (fB w)).toNat →
        exec (.brr t h w) s = .next { s with dev := s.dev.faultHere t h w id fltIllegal 0 })) ∧
    (Ready (.endTask t h w) s → Issues s t h w [] → ∃ u, exec (.endTask t h w) s = .next u ∧
      u = s.withHalf t h (fun y => { y with pc := y.pc + 1, nextSeq := y.nextSeq + 1, ended := some (BitVec.ofNat 16 (imm32 w)) }) ∧
      u.dev.mayIssue t h = false) ∧
    (Ready (.rdsr t h w) s → Issues s t h w [fA w] →
      (imm32 w = 7 → exec (.rdsr t h w) s = .next { s with dev :=
        { s.dev.modHalf t h (HalfState.retire w (HalfState.setReg (fA w) (Config.freeWord s.dev.free))) with free := s.dev.free + 1 } }) ∧
      (imm32 w ≠ 7 → ∃ v, Completes (.rdsr t h w) s t h w (HalfState.setReg (fA w) v) ∧
        (imm32 w = 0 → v = s.dev.ft.now) ∧ (imm32 w = 1 → v = s.dev.ft.now - s.dev.ft.slip) ∧
        (imm32 w = 2 → v.toNat = t + 256 * h + (if (s.dev.tile t).twin then 512 else 0)) ∧ (imm32 w = 3 → v.toNat = s.dev.node) ∧
        (imm32 w = 4 → v = x.tag) ∧ (imm32 w = 5 → v = x.rescale) ∧ (imm32 w = 6 → v.toNat = x.sat.toNat) ∧
        (imm32 w = 8 → v.toNat = s.dev.ft.mode.num) ∧ (imm32 w = 9 → v = x.doorbell)))

/-- `ld` reads the eight bytes at s[B] + IMM31, lowest first, from the half's own tile memory, and `st` stores s[A] there
and nowhere else of tile memory; a misaligned address, or one outside the half's memory, raises MEM_RANGE and stores
nothing, and a word with an uncorrectable error raises MEM_ERROR and is logged (05 R124; 07 R204, R205). -/
def Obligations.TileLoadsAndStores : Prop :=
  ∀ (s : State) (t h : Nat) (w : W64), let x := s.dev.half t h; let a := (x.reg (fB w) + imm31 w).toNat
    let off := (s.dev.tile t).base h + a
    (Ready (.ld t h w) s → Issues s t h w [fA w, fB w] → s.dev.ldFault t h w x = none → (s.dev.tile t).badIn off 8 = none →
      (s.dev.tile t).weakIn off 8 = [] → Completes (.ld t h w) s t h w (HalfState.setReg (fA w) (BitVec.ofNat 64 (leNat ((s.dev.tile t).bytes off 8))))) ∧
    (Ready (.st t h w) s → Issues s t h w [fA w, fB w] → s.dev.ldFault t h w x = none →
      ∃ u, exec (.st t h w) s = .next u ∧ (u.dev.tile t).bytes off 8 = leBytes 8 (x.reg (fA w)).toNat ∧
        (∀ k, k < off ∨ off + 8 ≤ k → mapGet 0 (u.dev.tile t).tmem k = mapGet 0 (s.dev.tile t).tmem k) ∧
        (∀ j, j ≠ t → u.dev.tile j = s.dev.tile j) ∧ u.dev.half t h = HalfState.retire w id x ∧
        ((∀ k ∈ (s.dev.tile t).bad, k < off + 8 → off < k + 8 → k = off) → u.dev.mem = s.dev.mem ∧ u.dev.regs = s.dev.regs)) ∧
    (∀ c ∈ [Instr.ld t h w, .st t h w], Ready c s → Issues s t h w [fA w, fB w] →
      (a % 8 ≠ 0 ∨ (s.dev.tile t).limit < a + 8) →
      exec c s = .next { s with dev := s.dev.faultHere t h w id fltMemRange (x.reg (fB w) + imm31 w) }) ∧
    (∀ b, Ready (.ld t h w) s → Issues s t h w [fA w, fB w] → s.dev.ldFault t h w x = none → (s.dev.tile t).badIn off 8 = some b →
      exec (.ld t h w) s = .next { s with dev := s.dev.faultHere t h w (Dev.noteRead t h (x.reg (fB w) + imm31 w)) fltMemError (x.reg (fB w) + imm31 w) })

/-- Tokens and waits that find what they wait for complete at once: `tok.sig` raises each count of its mask, ILLEGAL
where one, with the signals on their way, would pass 255; `tok.wait` lowers
each, a fence whose condition holds and a wait whose time has come or whose word holds move on; `wait.w` says in p[A] which
it was, the condition tested before the deadline (05 R132-R135, R142). -/
def TokensAndWaitsThatComplete : Prop :=
  ∀ (s : State) (t h : Nat) (w : W64), let x := s.dev.half t h
    let raised (y : HalfState) : HalfState :=
      (maskTokens (BitVec.ofNat 32 (imm32 w))).foldl (fun y k => { y with tokens := mapSet 0 y.tokens k (y.token k + 1) }) y
    (Ready (.tokSig t h w) s → Issues s t h w [] → (∀ k < 32, (imm32 w).testBit k = true → (x.takeWait w).tokFull k = false) →
      Completes (.tokSig t h w) s t h w raised ∧
      (∀ (y : HalfState) (k : Nat), (raised y).token k = y.token k + if k < 32 ∧ (imm32 w).testBit k = true then 1 else 0)) ∧
    (Ready (.tokSig t h w) s → Issues s t h w [] → (∃ k < 32, (imm32 w).testBit k = true ∧ (x.takeWait w).tokFull k = true) →
      exec (.tokSig t h w) s = .next { s with dev := s.dev.faultHere t h w id fltIllegal 0 }) ∧
    (Ready (.tokWait t h w) s → Issues s t h w [] → (∀ k < 32, (imm32 w).testBit k = true → 1 ≤ (x.takeWait w).token k) →
      Completes (.tokWait t h w) s t h w (HalfState.takeTokens (BitVec.ofNat 32 (imm32 w))) ∧
      ∀ k, ((x.takeWait w).takeTokens (BitVec.ofNat 32 (imm32 w))).token k =
        (x.takeWait w).token k - if k < 32 ∧ (imm32 w).testBit k = true then 1 else 0) ∧
    (Ready (.fenceRel t h w) s → Issues s t h w [] → s.dev.writesAcked t h = true → Completes (.fenceRel t h w) s t h w id) ∧
    (Ready (.fenceAcq t h w) s → Issues s t h w [] → (∀ g ∈ x.globs, g.returns = false) → Completes (.fenceAcq t h w) s t h w id) ∧
    (Ready (.fenceAll t h w) s → Issues s t h w [] → s.dev.writesAcked t h = true → (∀ g ∈ x.globs, g.returns = false) →
      x.aq = [] → x.vq = [] → x.mq = [] → (s.dev.tile t).chanMoves h = [] → Completes (.fenceAll t h w) s t h w id) ∧
    (Ready (.waitFt t h w) s → Issues s t h w [fB w] →
      (w.getLsbD 0 = true → 0 ≤ (s.dev.ft.now - x.reg (fB w)).toInt → Completes (.waitFt t h w) s t h w id) ∧
      (w.getLsbD 0 = false → s.dev.releasing = true → 0 ≤ (s.dev.sched - x.reg (fB w)).toInt → Completes (.waitFt t h w) s t h w id)) ∧
    (Ready (.waitW t h w) s → Issues s t h w [fB w, fC w, fD w] → s.dev.waitWFault w x = none →
      (w.getLsbD 3 = true ∨ s.dev.mem.weakSync.contains (((x.reg (fB w)).toNat - syncBase) / 8) = false) →
      let seen := condW (bw w 2 0) (s.dev.watched t h (w.getLsbD 3) (((x.reg (fB w)).toNat - syncBase) / 8)) (x.reg (fC w))
      (seen = true → Completes (.waitW t h w) s t h w (HalfState.setPred (fA w) true)) ∧
      (seen = false → fD w ≠ 0 → s.dev.due (x.reg (fD w)) = true → s.dev.releasing = true →
        Completes (.waitW t h w) s t h w (HalfState.setPred (fA w) false)))

/-- A wait that does not find it holds issue: the half is in WAIT, the PC stands past the instruction, nothing issues. Its
release comes as soon as what it waits for holds, and not before: the tokens are lowered, the predicate written, the token
of the waiting instruction signalled, and the half runs again (05 R130, R133-R135, R142). -/
def WaitsHoldAndRelease : Prop :=
  (∀ (s : State) (t h : Nat) (w : W64), Ready (.tokWait t h w) s → Issues s t h w [] →
    (∃ k < 32, (imm32 w).testBit k = true ∧ ((s.dev.half t h).takeWait w).token k = 0) →
    exec (.tokWait t h w) s = .next (s.withHalf t h (fun x => (x.takeWait w).startWait w (.token (BitVec.ofNat 32 (imm32 w)))))) ∧
  (∀ (w : W64) (a : WaitFor) (x : HalfState), (x.startWait w a).mode = .wait ∧ (x.startWait w a).pc = x.pc + 1 ∧
    (x.startWait w a).sregs = x.sregs ∧ (x.startWait w a).tokens = x.tokens) ∧
  (∀ (s : State) (t h : Nat) (a : WaitState) (m : W32), Ready (.tokWaitRelease t h) s → (s.dev.half t h).wait = some a → a.what = .token m →
    ((∀ k < 32, m.getLsbD k = true → 1 ≤ (s.dev.half t h).token k) →
      exec (.tokWaitRelease t h) s = .next (s.withHalf t h (fun x => (x.takeTokens m).unwait))) ∧
    ((∃ k < 32, m.getLsbD k = true ∧ (s.dev.half t h).token k = 0) → exec (.tokWaitRelease t h) s = .next s)) ∧
  (∀ (s : State) (t h : Nat) (a : WaitState) (rel acq all : Bool), Ready (.fenceRelease t h) s → (s.dev.half t h).wait = some a →
    a.what = .fence rel acq all →
    exec (.fenceRelease t h) s = .next (if s.dev.fenceHolds t h rel acq all then s.withHalf t h HalfState.unwait else s)) ∧
  (∀ (s : State) (t h : Nat) (a : WaitState) (x : W64) (abs gust : Bool), Ready (.waitFtRelease t h) s → (s.dev.half t h).wait = some a →
    a.what = .time x abs gust →
    exec (.waitFtRelease t h) s = .next (if (abs = true ∧ 0 ≤ (s.dev.ft.now - x).toInt) ∨
        (abs = false ∧ s.dev.releasing = true ∧ 0 ≤ (s.dev.sched - x).toInt)
      then s.withHalf t h HalfState.unwait else s)) ∧
  (∀ (s : State) (t h : Nat) (a : WaitState) (db : Bool) (i cc pd : Nat) (v dl : W64), Ready (.waitWDeadline t h) s →
    (s.dev.half t h).wait = some a → a.what = .word db i cc v (some dl) pd →
    exec (.waitWDeadline t h) s = .next (if s.dev.releasing = true ∧ 0 ≤ (s.dev.sched - dl).toInt
      then s.withHalf t h (fun x => (x.setPred pd false).unwait) else s)) ∧
  (∀ x : HalfState, x.wait.isSome = true → x.mode = .wait → x.unwait.wait = none ∧ x.unwait.mode = .run ∧ x.unwait.pc = x.pc ∧ x.unwait.sregs = x.sregs)

/-- Tokens, fences and waits: those that complete at once, and those that hold and release. -/
def Obligations.TokensAndWaits : Prop := TokensAndWaitsThatComplete ∧ WaitsHoldAndRelease

/-- The instructions of the scalar unit that act on the half's registers alone, with the scalar registers they name. -/
def plainScalar (t h : Nat) (w : W64) : List (Instr × List Nat) := [
  (.nop t h w, []), (.alu t h w, [fA w, fB w, fC w]), (.addi t h w, [fA w, fB w]), (.andi t h w, [fA w, fB w]), (.ori t h w, [fA w, fB w]),
  (.xori t h w, [fA w, fB w]), (.shi t h w, [fA w]), (.liLo t h w, [fA w]), (.liHi t h w, [fA w]), (.ld t h w, [fA w, fB w]),
  (.st t h w, [fA w, fB w]), (.cmp t h w, [fB w, fC w]), (.cmpi t h w, [fB w]), (.pop t h w, []), (.br t h w, []), (.bdec t h w, [fA w]),
  (.rdsr t h w, [fA w]), (.tokSig t h w, []), (.tokWait t h w, []), (.fenceRel t h w, []),
  (.fenceAcq t h w, []), (.fenceAll t h w, []), (.waitFt t h w, [fB w]), (.waitW t h w, [fB w, fC w, fD w]),
  (.endTask t h w, [])]

/-- Issue in the scalar unit, for each of these: a half that may not issue, a register still to be written or a token wait not met
change nothing; a fetch first corrects what it finds; a false guard only takes the token wait, signals and moves on; an illegal word,
and a token that has no room for the signal of this issue, raise ILLEGAL (05 R115, R116, R120, R129, R132; 07 R204). -/
def ScalarIssueRules : Prop :=
  ∀ (s : State) (t h : Nat) (w : W64), ∀ c ∈ plainScalar t h w, Ready c.1 s → let x := s.dev.half t h
    (s.dev.mayIssue t h = false → exec c.1 s = .next s) ∧
    (s.dev.mayIssue t h = true → exec c.1 s = exec c.1 { s with dev := s.dev.fetchMend t h }) ∧
    (FetchesClean s t h → s.dev.fetchFault t h w = none →
      (c.2.any x.busyReg = true → exec c.1 s = .next s) ∧
      (x.waitMet w = false → exec c.1 s = .next s) ∧
      (s.dev.mayIssue t h = true → c.2.any x.busyReg = false → x.waitMet w = true →
        (x.guard w = false → (fSV w = true → (x.takeWait w).tokFull (fST w) = false) → Completes c.1 s t h w id) ∧
        (fSV w = true → (signalsAtIssue w = true ∨ x.guard w = false) → (x.takeWait w).tokFull (fST w) = true →
          exec c.1 s = .next { s with dev := s.dev.faultHere t h w id fltIllegal 0 }))) ∧
    (s.dev.mayIssue t h = true → FetchesClean s t h → s.dev.fetchFault t h w = some (fltIllegal, 0) →
      exec c.1 s = .next { s with dev := s.dev.faultHere t h w id fltIllegal 0 })

/-- A precise fault is taken once every earlier global operation of the half has completed, and changes nothing until then (05 R145):
it names the instruction at the PC, which stays, and sets the flag of its class. -/
def PreciseFaults : Prop :=
  ∀ (d : Dev) (t h : Nat) (w : W64) (found : Dev → Dev) (cls : Nat) (a : W64),
    ((∃ g ∈ (d.half t h).globs, g.ofMove = false) → d.faultHere t h w found cls a = d) ∧
    ((∀ g ∈ (d.half t h).globs, g.ofMove = true) → d.faultHere t h w found cls a = (found d).raiseHere t h w cls a) ∧
    ((d.half t h).mode = .run → (d.half t h).fault = none → cls < 16 → let u := d.raiseHere t h w cls a
      (∃ f, (u.half t h).fault = some f ∧ f.cls = cls ∧ f.word = w ∧ f.pc = (d.half t h).pc ∧ f.bank = (d.half t h).bank ∧
        f.detail = a ∧ f.precise = true ∧ f.time = d.ft.now) ∧
      (u.event (evTil t h)).flags = (d.event (evTil t h)).flags ||| BitVec.ofNat 16 (2 ^ cls) ∧
      u.mayIssue t h = false ∧ (u.half t h).pc = (d.half t h).pc ∧ (u.half t h).sregs = (d.half t h).sregs ∧ u.mem = d.mem ∧ u.sync = d.sync)

/-- A reserved opcode raises ILLEGAL, whatever its guard, in any half that may issue (05 R114, R116): the half's fault
names it, its fault register sets ILLEGAL, and nothing issues afterwards. -/
def ReservedOpcodeIsIllegal : Prop :=
  ∀ (s : State) (t h : Nat) (w : W64), Ready (.reservedOpcode t h w) s → s.dev.mayIssue t h = true → FetchesClean s t h →
    (s.dev.tile t).badIn (s.dev.fetchOff t h) 8 = none → (∀ g ∈ (s.dev.half t h).globs, g.ofMove = true) →
    ∃ u, exec (.reservedOpcode t h w) s = .next u ∧ u.dev.mayIssue t h = false ∧
      (∃ f, (u.dev.half t h).fault = some f ∧ f.cls = fltIllegal ∧ f.word = w ∧ f.pc = (s.dev.half t h).pc ∧ f.precise = true) ∧
      (u.dev.event (evTil t h)).flags = (s.dev.event (evTil t h)).flags ||| 1 ∧
      (u.dev.half t h).pc = (s.dev.half t h).pc ∧ (u.dev.half t h).sregs = (s.dev.half t h).sregs ∧ u.dev.mem = s.dev.mem

/-- Issue in the scalar unit, its precise faults, and the reserved opcodes. -/
def Obligations.ScalarIssue : Prop := ScalarIssueRules ∧ PreciseFaults ∧ ReservedOpcodeIsIllegal

/-- What the instructions that act on registers alone leave: every tile but their own, the other half, HBM, sync memory and
every store of the tile are as they were; of the scalar registers only s[A] may change, of the predicates only p[A] of the
compares, `pop` and `wait.w`, and the vector registers and queues never (05 R118, R122-R135). -/
def Obligations.ScalarFrame : Prop :=
  ∀ (s u : State) (t h : Nat) (w : W64), ∀ c ∈ plainScalar t h w, c.1 ≠ .st t h w → Issues s t h w c.2 → exec c.1 s = .next u →
    (∀ j, j ≠ t → u.dev.tile j = s.dev.tile j) ∧ u.dev.mem.hbm = s.dev.mem.hbm ∧ u.dev.sync = s.dev.sync ∧
    (u.dev.tile t).tmem = (s.dev.tile t).tmem ∧ (u.dev.tile t).acc = (s.dev.tile t).acc ∧ (u.dev.tile t).tags = (s.dev.tile t).tags ∧
    (∀ j < 2, j ≠ h → u.dev.half t j = s.dev.half t j) ∧
    (∀ n, n ≠ fA w → (u.dev.half t h).reg n = (s.dev.half t h).reg n) ∧
    (∀ n, n ≠ fA w → (u.dev.half t h).pred n = (s.dev.half t h).pred n) ∧
    (c.1 ∈ [Instr.cmp t h w, .cmpi t h w, .pop t h w, .waitW t h w] → (u.dev.half t h).sregs = (s.dev.half t h).sregs) ∧
    (c.1 ∉ [Instr.cmp t h w, .cmpi t h w, .pop t h w, .waitW t h w] → (u.dev.half t h).preds = (s.dev.half t h).preds) ∧
    (u.dev.half t h).vregs = (s.dev.half t h).vregs ∧ (u.dev.half t h).aq = (s.dev.half t h).aq ∧
    (u.dev.half t h).vq = (s.dev.half t h).vq ∧ (u.dev.half t h).mq = (s.dev.half t h).mq
/-! ## The queues, the array and the vector unit of a tile half (03, 05, 06) -/

/-- An instruction of a queue issues into its empty queue and starts at once: no earlier instruction holds a slot of it, and the count
of its token serves the waiters before it too (03 R65; 05 R129-R131). -/
def StartsIn (s : State) (t h : Nat) (w : W64) (q : QueueId) (regs : List Nat) : Prop :=
  Enters s t h w regs ∧ (s.dev.half t h).queue? q = [] ∧ s.dev.slotWaits t h q ((s.dev.half t h).entry w) = false ∧
  (fWV w = true → s.dev.rivals t h q (fWT w) < (s.dev.half t h).token (fWT w))

/-- A vector instruction that starts has the effect `f` on its half, which is all it changes. -/
def VecCompletes (c : Instr) (s : State) (t h : Nat) (w : W64) (f : HalfState → HalfState) : Prop :=
  exec c s = .next (s.withHalf t h (fun x => f (x.started .vector w (fun _ x => x))))

/-- The vector instructions on registers: each lane of v[A], or s[A], takes what its function gives of the operands; nothing
else of the machine changes but the issue itself (06 R170-R172, R178, R179). -/
def VectorRegisterResults : Prop :=
  ∀ (s : State) (t h : Nat) (w : W64), let x := s.dev.half t h; let e := x.entry w
    let lanes (l : List W32) : HalfState → HalfState := HalfState.setLanes (fA w) l
    let starts (c : Instr) (regs : List Nat) : Prop := Ready c s ∧ StartsIn s t h w .vector regs ∧ vecFault t s.dev x e = none
    (starts (.vop t h w) [if bw w 4 4 = 1 then fC w else 0] → VecCompletes (.vop t h w) s t h w
      (lanes ((List.range 64).map (fun i => vopLane (bw w 3 0) (x.lane (fB w) i)
        (if bw w 4 4 = 1 then (x.reg (fC w)).setWidth 32 else x.lane (fC w) i) (x.lane (fD w) i))))) ∧
    (starts (.vfn t h w) [] → VecCompletes (.vfn t h w) s t h w
      (lanes ((List.range 64).map (fun i => vfnLane (fFN w) (x.lane (fB w) i))))) ∧
    (starts (.vcmp t h w) [fA w, if bw w 4 4 = 1 then fC w else 0] → ∃ m : W64,
      VecCompletes (.vcmp t h w) s t h w (HalfState.setReg (fA w) m) ∧
      ∀ i < 64, m.getLsbD i = vcmpLane (bw w 2 0) (x.lane (fB w) i) (if bw w 4 4 = 1 then (x.reg (fC w)).setWidth 32 else x.lane (fC w) i)) ∧
    (starts (.vsel t h w) [fD w] → VecCompletes (.vsel t h w) s t h w
      (lanes ((List.range 64).map (fun i => if (x.reg (fD w)).getLsbD i then x.lane (fB w) i else x.lane (fC w) i)))) ∧
    (starts (.vmov t h w) (if fFN w = 2 then [fA w, fC w] else [fB w, fC w]) →
      (fFN w = 0 → VecCompletes (.vmov t h w) s t h w (lanes (List.replicate 64 ((x.reg (fB w)).setWidth 32)))) ∧
      (fFN w = 1 → VecCompletes (.vmov t h w) s t h w
        (lanes ((List.range 64).map (fun i => if i = (x.reg (fC w)).toNat % 64 then (x.reg (fB w)).setWidth 32 else x.lane (fA w) i)))) ∧
      (fFN w = 2 → VecCompletes (.vmov t h w) s t h w
        (HalfState.setReg (fA w) ((x.lane (fB w) ((x.reg (fC w)).toNat % 64)).setWidth 64)))) ∧
    (starts (.vred t h w) [] → VecCompletes (.vred t h w) s t h w
      (lanes ([vredLane (bw w 1 0 == 1) (w.getLsbD 4) (x.lane (fA w) 0) (x.lanes (fB w) (cntRegs (bw w 3 2)))] ++ List.replicate 63 0))) ∧
    (starts (.vmv t h w) [] → VecCompletes (.vmv t h w) s t h w
      (lanes (vmvLanes (w.getLsbD 4) (x.lane (fA w) 0) (x.lane (fA w) 1) (x.lane (fA w) 2) (x.lanes (fB w) (cntRegs (bw w 3 2))) ++
        List.replicate 61 0)))

/-- A write of 64 lanes from register v on is read back lane by lane, and leaves every lane outside it as it was (06 R168). -/
def VectorRegistersReadBack : Prop :=
  ∀ (x : HalfState) (v : Nat) (l : List W32), (∀ i, i < l.length → (x.setLanes v l).lane v i = listGet 0 l i) ∧
    (∀ u i, 64 * u + i < 64 * v ∨ 64 * v + l.length ≤ 64 * u + i → (x.setLanes v l).lane u i = x.lane u i) ∧
    (x.setLanes v l).sregs = x.sregs ∧ (x.setLanes v l).preds = x.preds

/-- Scalar registers, predicates and vector registers read what was last written. -/
def Obligations.RegistersReadBack : Prop := ScalarRegisters ∧ VectorRegistersReadBack

/-- The simple lane operations by their tables: the bitwise and integer ones of `vop`, the sign functions of `vfn`, and the
lesser and greater numbers (06 Table 7, Table 8). -/
def VectorLaneFunctions : Prop :=
  ∀ b x c : W32, vopLane 6 b x c = b &&& x ∧ vopLane 7 b x c = b ||| x ∧ vopLane 8 b x c = b ^^^ x ∧ vopLane 9 b x c = b + x ∧
    vopLane 10 b x c = b - x ∧ vopLane 0 b x c = vopLane 0 x b c ∧ vopLane 2 b x c = vopLane 2 x b c ∧
    (vfnLane 0 x).msb = false ∧ (vfnLane 0 x).setWidth 31 = x.setWidth 31 ∧ (vfnLane 1 x).msb = !x.msb ∧
    vfnLane 1 (vfnLane 1 x) = x ∧ vcmpLane 4 b x = !vcmpLane 5 b x ∧ vcmpLane 0 b x = !vcmpLane 1 b x

/-- The vector instructions on registers, and the simple functions of their tables. -/
def Obligations.VectorRegisterInstructions : Prop := VectorRegisterResults ∧ VectorLaneFunctions

/-- The vector instructions that read slots: `ep.rd` gives each lane the slot's held value as binary32, `ep.l2` the norm
epilogue of it, `vtag` the slot's tag; none of them changes the slot (06 R175, R177). -/
def VectorSlotReads : Prop :=
  ∀ (s : State) (t h : Nat) (w : W64), let x := s.dev.half t h; let e := x.entry w; let u := s.dev.tile t
    let slot := u.slotBase h + (x.reg (fB w)).toNat % 4096
    let starts (c : Instr) (regs : List Nat) : Prop :=
      Ready c s ∧ StartsIn s t h w .vector regs ∧ vecFault t s.dev x e = none ∧ u.slotBad slot = none ∧ u.weak = []
    (starts (.epRd t h w) [fB w] → VecCompletes (.epRd t h w) s t h w (HalfState.setLanes (fA w)
      ((List.range 256).map (fun i => toF32Sat (bw w 6 6 == 0) ((f32Num (u.stored slot i)).scale (-(u.tag slot))))))) ∧
    (starts (.epL2 t h w) [fB w, fD w] → VecCompletes (.epL2 t h w) s t h w (HalfState.setLanes (fA w)
      ((List.range 256).map (fun i => epL2 (u.held slot i) ((x.reg (fD w)).setWidth 32) (x.lane (fC w + i / 64) (i % 64)))))) ∧
    (starts (.vtag t h w) [fA w, fB w] → VecCompletes (.vtag t h w) s t h w (HalfState.setReg (fA w) (BitVec.ofInt 64 (u.tag slot))))

/-- The vector instructions on memory and slots. `vld` gives each lane its element converted; `vst` and `ep.cvt` write the
converted values at s[A]'s bases, `ep.wr` replaces a slot's values and clears its tag, and `vtopk` writes its 512-byte list;
outside those bytes tile memory is as it was, and so is every other tile (06 R173-R176, R180). -/
def VectorLoadsAndStores : Prop :=
  ∀ (s : State) (t h : Nat) (w : W64), let x := s.dev.half t h; let e := x.entry w; let u := s.dev.tile t
    let starts (c : Instr) (regs : List Nat) : Prop :=
      Ready c s ∧ StartsIn s t h w .vector regs ∧ vecFault t s.dev x e = none ∧ u.weak = []
    let clear (l : List (Nat × Nat)) : Prop := s.dev.spansFault t h l = none ∧ u.spansBad h l = none
    let a := (x.reg (fA w)).toNat
    let keeps (v : State) (l : List (Nat × Nat)) : Prop :=
      (∀ k, (∀ r ∈ l, k < u.base h + r.1 ∨ u.base h + r.1 + r.2 ≤ k) → mapGet 0 (v.dev.tile t).tmem k = mapGet 0 u.tmem k) ∧
      (∀ j, j ≠ t → v.dev.tile j = s.dev.tile j) ∧ v.dev.half t h = x.started .vector w (fun _ x => x)
    (∀ f, Fmt.ofCode (bw w 3 0) = some f → starts (.vld t h w) [fB w] → clear (vecSpans (x.reg (fB w)).toNat (bw w 3 0) 64) →
      VecCompletes (.vld t h w) s t h w (HalfState.setLanes (fA w) ((List.range 64).map (fun j => vldLane f (bw w 6 6 == 0)
        (elemBits f (u.mem h (bitsN (x.reg (fB w)).toNat 24 0) (64 * f.width / 8)) j)
        (leAt (if f.isMx then u.mem h (bitsN (x.reg (fB w)).toNat 56 32) 2 else []) (j / 32) 1))))) ∧
    (starts (.vst t h w) (storeRegs w) → clear (vecSpans a (bw w 3 0) 64) → ∃ v, exec (.vst t h w) s = .next v ∧
      let r := vecConvert e ((x.lanes (fB w) 1).map f32Num)
      v.dev.tile t = (TileState.write (u.base h + bitsN a 56 32) r.2 (TileState.write (u.base h + bitsN a 24 0) r.1
        (((s.withHalf t h (HalfState.started .vector w (fun _ x => x))).dev).tile t)).2).2 ∧ keeps v (vecSpans a (bw w 3 0) 64)) ∧
    (starts (.epCvt t h w) (fB w :: storeRegs w) → u.slotBad (u.slotBase h + (x.reg (fB w)).toNat % 4096) = none →
      clear (vecSpans a (bw w 3 0) 256) → ∃ v, exec (.epCvt t h w) s = .next v ∧
      let r := vecConvert e ((List.range 256).map (fun i => u.held (u.slotBase h + (x.reg (fB w)).toNat % 4096) i))
      v.dev.tile t = (TileState.write (u.base h + bitsN a 56 32) r.2 (TileState.write (u.base h + bitsN a 24 0) r.1
        (((s.withHalf t h (HalfState.started .vector w (fun _ x => x))).dev).tile t)).2).2 ∧ keeps v (vecSpans a (bw w 3 0) 256)) ∧
    (starts (.epWr t h w) [fA w] → ∃ v, exec (.epWr t h w) s = .next v ∧ keeps v [] ∧
      (v.dev.tile t).tag (u.slotBase h + a % 4096) = 0 ∧
      (∀ i < 256, (v.dev.tile t).stored (u.slotBase h + a % 4096) i = x.lane (fB w + i / 64) (i % 64)) ∧
      (∀ k i, k ≠ u.slotBase h + a % 4096 → i < 256 → (v.dev.tile t).stored k i = u.stored k i ∧ (v.dev.tile t).tag k = u.tag k)) ∧
    (starts (.vtopk t h w) [fA w, fB w, fD w] → clear [(a, 512)] → u.slotBad (u.slotBase h + bitsN (x.reg (fB w)).toNat 11 0) = none →
      ∃ v, exec (.vtopk t h w) s = .next v ∧ keeps v [(a, 512)] ∧ (v.dev.tile t).acc = u.acc ∧ (v.dev.tile t).tags = u.tags)

/-- The vector instructions on slots and on tile memory. -/
def Obligations.VectorSlotsAndMemory : Prop := VectorSlotReads ∧ VectorLoadsAndStores

/-- An array instruction that issues into its empty array queue starts and has its whole effect at once: on the half after
issue, which has recorded the stage it leaves, `mma` and its forms, `dist` and `wld` run their rows from the first, `wl` loads
its window row; what a product finds in its slots is kept until it completes, for a stop may end it earlier (06 R150-R165;
05 R130; 03 R74; log 16). A fault of its operands is precise. -/
def Obligations.ArrayInstructionsRun : Prop :=
  ∀ (s : State) (t h : Nat) (w : W64), let x := s.dev.half t h; let e := x.entry w
    let after (upd : QEntry → HalfState → HalfState) : Dev := s.dev.modHalf t h (HalfState.started .array w upd)
    let products : List Instr := [.mma t h w, .mmaX2 t h w, .mmaX3 t h w, .mmaS t h w, .mmaM t h w, .dist t h w]
    let run := (after (amIssue (s.dev.tile t).twin)).runAm t h e none
    (∀ c ∈ products, Ready c s → StartsIn s t h w .array [fA w, fB w, fC w, fD w, fE w] → amFault t s.dev x e = none →
      (run.2 = false → exec c s = .next { s with dev := run.1 }) ∧
      (run.2 = true → exec c s = .next { s with dev := run.1.modHalf t h (fun y => { y with
        undo := some ((after (amIssue (s.dev.tile t).twin)).undoOf t h e run.1) }) })) ∧
    (Ready (.wld t h w) s → StartsIn s t h w .array [fA w, fB w, fC w, fD w, fE w] → amFault t s.dev x e = none →
      exec (.wld t h w) s = .next { s with dev := run.1 }) ∧
    (Ready (.wl t h w) s → StartsIn s t h w .array [fA w] → wlFault t s.dev x e = none →
      exec (.wl t h w) s = .next { s with dev := ((after wlIssue).runWl t h e).1 }) ∧
    (∀ c ∈ (Instr.wl t h w) :: .wld t h w :: products, ∀ f, Ready c s → Enters s t h w [fA w, fB w, fC w, fD w, fE w] →
      (if c = .wl t h w then wlFault t s.dev x e else amFault t s.dev x e) = some f →
      exec c s = .next { s with dev := s.dev.faultHere t h w id f.1 f.2 })

/-- What one activation row of an array instruction adds, the strict form and `dist` apart: without an overflow, each slot
element of the row's output gets the exactly summed root of its lane, rounded once to nearest even, once; every other slot,
tile memory and the tags are as they were (03 R54; 04 R92, R97). -/
def Obligations.ArrayRowAddsToItsSlots : Prop :=
  ∀ (d : Dev) (t h m : Nat) (p : AParams) (k : AMasks) (a : APass), let u := d.tile t
    let x := if p.win then u.actWindow h p m else opElems p.af (u.actDirect h p m a.kc).1 (u.actDirect h p m a.kc).2 p.d (p.k - a.kc * p.d)
    let slot (n : Nat) : Nat := u.slotBase h + p.s + m * p.spm + n / 256
    let root (n : Nat) : Machine.Num × Machine.Num := u.laneRoots h p a x (u.actDirect h p m a.kc).1 n
    p.isDist = false → p.isStrict = false →
    (∀ n ∈ p.cols a.nb, p.colOn k n = true → slotOver (u.stored (slot n) (n % 256)) (u.tag (slot n)) (root n) = false) →
    (∀ n ∈ p.cols a.nb, ((d.arrayRow t h p k a m).tile t).stored (slot n) (n % 256) =
      if p.colOn k n then toF32 ((f32Num (u.stored (slot n) (n % 256))).add (((root n).1.add (root n).2).scale (u.tag (slot n))))
      else u.stored (slot n) (n % 256)) ∧
    (∀ j i, i < 256 → (∀ n ∈ p.cols a.nb, j ≠ slot n) → ((d.arrayRow t h p k a m).tile t).stored j i = u.stored j i) ∧
    ((d.arrayRow t h p k a m).tile t).tags = u.tags ∧ ((d.arrayRow t h p k a m).tile t).tmem = u.tmem ∧
    (∀ j, j ≠ t → (d.arrayRow t h p k a m).tile j = d.tile j)

/-- Issue into a queue that holds something leaves the instruction at its tail, with its operands as they are at issue and
its guard's outcome, and moves on; a full queue holds issue (05 R120, R148; 03 R64). -/
def QueuesAreInOrder : Prop :=
  ∀ (s : State) (t h : Nat) (w : W64), let x := s.dev.half t h; let e := x.entry w
    let queued : List (Instr × List Nat) := [
      (.vop t h w, [if bw w 4 4 = 1 then fC w else 0]), (.vfn t h w, []), (.vsel t h w, [fD w]),
      (.vld t h w, [fB w]), (.vst t h w, storeRegs w), (.vred t h w, []), (.vmv t h w, []),
      (.vcmp t h w, [fA w, if bw w 4 4 = 1 then fC w else 0]), (.epRd t h w, [fB w]), (.epWr t h w, [fA w]),
      (.vmov t h w, if fFN w = 2 then [fA w, fC w] else [fB w, fC w]), (.epCvt t h w, fB w :: storeRegs w),
      (.epL2 t h w, [fB w, fD w]), (.vtag t h w, [fA w, fB w]), (.vtopk t h w, [fA w, fB w, fD w])]
    (∀ c ∈ queued, Ready c.1 s → Enters s t h w c.2 → vecFault t s.dev x e = none → x.vq ≠ [] →
      (x.vq.length < 32 → exec c.1 s = .next (s.withHalf t h (fun y => { y with
        vq := y.vq ++ [e], pc := y.pc + 1, nextSeq := y.nextSeq + 1 }))) ∧
      (32 ≤ x.vq.length → exec c.1 s = .next s)) ∧
    (∀ c ∈ [Instr.mma t h w, .mmaX2 t h w, .mmaX3 t h w, .mmaS t h w, .mmaM t h w, .dist t h w, .wld t h w], Ready c s →
      Enters s t h w [fA w, fB w, fC w, fD w, fE w] → amFault t s.dev x e = none → x.aq ≠ [] →
      (x.aq.length < 16 → exec c s = .next (s.withHalf t h (fun y => { amIssue (s.dev.tile t).twin e y with
        aq := y.aq ++ [e], pc := y.pc + 1, nextSeq := y.nextSeq + 1 }))) ∧
      (16 ≤ x.aq.length → exec c s = .next s)) ∧
    (Ready (.mv t h w) s → Enters s t h w [fB w] → mvFault t h s.dev x e = none → x.mq ≠ [] →
      (x.mq.length < 32 → exec (.mv t h w) s = .next (s.withHalf t h (fun y => { y with
        mq := y.mq ++ [e], pc := y.pc + 1, nextSeq := y.nextSeq + 1 }))) ∧
      (32 ≤ x.mq.length → exec (.mv t h w) s = .next s)) ∧
    (e.seq = x.nextSeq ∧ e.pc = x.pc ∧ e.go = x.guard w ∧ e.ops = [x.reg (fA w), x.reg (fB w), x.reg (fC w), x.reg (fD w),
      x.reg (fE w), x.reg 30, x.reg 31])
/-- The events of a half's queues: the head that may start starts, an instruction guarded off completing at once and a movement
going to its channel; a started head completes and leaves; a token that was signalled is counted two cycles later, one that
would pass 255 being ILLEGAL against its signaller (05 R129-R132, R143). -/
def QueueEvents : Prop :=
  ∀ (s : State) (t h : Nat), let x := s.dev.half t h
    (∀ q, s.dev.ready t h q = none → Ready (.queuedInstructionStart t h q) s → exec (.queuedInstructionStart t h q) s = .next s) ∧
    (∀ q e, Ready (.queuedInstructionStart t h q) s → s.dev.ready t h q = some e → e.go = false →
      exec (.queuedInstructionStart t h q) s = .next (s.withHalf t h (fun y =>
        (((y.takeWait e.word).popQueue q).signal (sigOf e.word) e.seq e.pc e.bank e.word (queueNum q))))) ∧
    (∀ e r, Ready (.queuedInstructionStart t h .vector) s → x.vq = e :: r → s.dev.ready t h .vector = some e → e.go = true →
      exec (.queuedInstructionStart t h .vector) s = .next { s with dev :=
        (s.dev.modHalf t h (fun y => { y.takeWait e.word with vq := { e with started := true } :: r })).runVector t h e }) ∧
    (∀ e r, Ready (.queuedInstructionStart t h .movement) s → x.mq = e :: r → s.dev.ready t h .movement = some e → e.go = true →
      ∃ u ch m, exec (.queuedInstructionStart t h .movement) s = .next u ∧ u.dev.half t h = { x.takeWait e.word with mq := r } ∧
        ch = bw e.word 2 0 + (if (s.dev.tile t).twin then 4 * h else 0) ∧
        mapGet [] (u.dev.tile t).chans ch = mapGet [] (s.dev.tile t).chans ch ++ [m] ∧
        m.half = h ∧ m.word = e.word ∧ m.addr = (e.op 1).toNat ∧ m.run = false) ∧
    (∀ q e r, Reaches (.instructionComplete t h (.queue q)) s → x.queue? q = e :: r → e.started = true → x.fault = none →
      exec (.instructionComplete t h (.queue q)) s = .next (s.withHalf t h (fun y =>
        let z := (y.putQueue q r).signal (sigOf e.word) e.seq e.pc e.bank e.word (queueNum q)
        if q = .array then { z with undo := none } else z))) ∧
    (∀ tok p, Ready (.tokenSignal t h tok) s → x.sigs.find? (fun p => p.tok == tok) = some p → x.token tok < 255 →
      ∃ u, exec (.tokenSignal t h tok) s = .next u ∧ (u.dev.half t h).token tok = x.token tok + 1 ∧
        (∀ k, k ≠ tok → (u.dev.half t h).token k = x.token k) ∧ (u.dev.half t h).sigs = x.sigs.erase p ∧ (u.dev.half t h).fault = x.fault) ∧
    (∀ tok p, Ready (.tokenSignal t h tok) s → x.sigs.find? (fun p => p.tok == tok) = some p → 255 ≤ x.token tok → x.mode ≠ .frozen →
      ∃ u, exec (.tokenSignal t h tok) s = .next u ∧ (u.dev.half t h).token tok = x.token tok ∧
        (u.dev.event (evTil t h)).flags = (s.dev.event (evTil t h)).flags ||| 1 ∧
        (x.fault = none → ∃ f, (u.dev.half t h).fault = some f ∧ f.cls = fltIllegal ∧ f.seq = p.seq ∧ f.word = p.word))

/-- The queues of a half: issue at their tails, and the events at their heads. -/
def Obligations.QueuesOfAHalf : Prop := QueuesAreInOrder ∧ QueueEvents

/-- A global operation that came back well completes: a load or atomic writes its register, the token is signalled, the
operation is outstanding no longer; one refused raises REMOTE (05 R130, R138-R140). -/
def GlobalOperationsComplete : Prop :=
  ∀ (s : State) (t h : Nat) (g : GlobOp) (st : Nat), let x := s.dev.half t h
    Reaches (.instructionComplete t h (.global g.idx)) s → x.globs = [g] → g.status = some st → g.ofMove = false → x.mode ≠ .frozen →
    (st = stOk → exec (.instructionComplete t h (.global g.idx)) s = .next (s.withHalf t h (fun y =>
      ((match g.kind with
        | .load true => { y with globs := [] }.setReg g.dst ((g.value.setWidth 32).setWidth 64)
        | .load false => { y with globs := [] }.setReg g.dst g.value
        | .store _ => { y with globs := [] }
        | .atom _ => { y with globs := [] }.setReg g.dst g.value).signal g.sig g.seq g.pc g.bank g.word 4)))) ∧
    (st ≠ stOk → st ≠ stMemError → ∃ u, exec (.instructionComplete t h (.global g.idx)) s = .next u ∧
      (u.dev.half t h).globs = [] ∧ (u.dev.half t h).sregs = x.sregs ∧
      (u.dev.event (evTil t h)).flags = (s.dev.event (evTil t h)).flags ||| 64)

/-- A global operation issues when fewer than 16 are outstanding and its address is aligned: it is outstanding with the
address, data and token it took, and the PC is past it; one at this part's memory that nothing holds back is performed
at once and has its status and value; a misaligned address, or one of the other half of a twin tile, raises MEM_RANGE; the
seventeenth is held (05 R138-R141; 07 R192). -/
def GlobalOperationsIssue : Prop :=
  ∀ (s : State) (t h : Nat) (w : W64), let x := s.dev.half t h
    let kinds : List (Instr × List Nat × GlobKind × Nat × Bool) := [
      (.ldg t h w, [fA w, fB w], .load (fW32 w), if fW32 w then 4 else 8, fLoc w),
      (.stg t h w, [fB w, fC w], .store (fW32 w), if fW32 w then 4 else 8, fLoc w),
      (.atom t h w, [fA w, fB w, fC w, fD w], .atom (atomOp w), 8, w.getLsbD 3),
      (.atomSig t h w, [fA w, fB w, fC w, fD w], .atom .sig, 8, w.getLsbD 3)]
    ∀ c ∈ kinds, Ready c.1 s → Enters s t h w c.2.1 → let n := c.2.2.2.1; let a := s.dev.globAddr c.2.2.2.2 (x.reg (fB w))
      (x.globsFull = true → exec c.1 s = .next s) ∧
      (x.globsFull = false → ((x.reg (fB w)).toNat % n ≠ 0 ∨ (a.1 = s.dev.node ∧ tileBase + tileSpan * t ≤ a.2 ∧
          a.2 + n ≤ tileBase + tileSpan * (t + 1) ∧ (s.dev.tile t).crosses h (a.2 - (tileBase + tileSpan * t)) n c.2.2.1.want = true)) →
        exec c.1 s = .next { s with dev := s.dev.faultHere t h w id fltMemRange (x.reg (fB w)) }) ∧
      (x.globsFull = false → s.dev.globFault t h n c.2.2.1.want c.2.2.2.2 w x = none →
        exec c.1 s = .next { s with dev := Dev.globIssue s.life t h w c.2.2.1 c.2.2.2.2 (s.dev.modHalf t h (HalfState.takeWait w)) } ∧
        ((a.2 < regBase ∨ regBase + regSize ≤ a.2) → ∃ u g, exec c.1 s = .next u ∧ g ∈ (u.dev.half t h).globs ∧ g.idx = x.nextIdx ∧
          g.kind = c.2.2.1 ∧ g.dst = fA w ∧ g.x = x.reg (fC w) ∧ g.c = x.reg (fD w) ∧ g.sig = sigOf w ∧ (g.node, g.loc) = a ∧
          (u.dev.half t h).pc = x.pc + 1 ∧ (u.dev.half t h).sregs = x.sregs ∧
          (g.node = s.dev.node → x.globs = [] → c.2.2.1 ≠ .atom .sig → s.dev.repairing = false → g.status.isSome = true)))

/-- Global operations: their issue and their completion. -/
def Obligations.GlobalOperations : Prop := GlobalOperationsIssue ∧ GlobalOperationsComplete

/-- A movement channel: a malformed descriptor is MEM_RANGE with nothing moved; a good one runs once, a
fill writing its pattern and a copy or transpose moving its pieces in order; one whose slots an earlier instruction still writes waits;
when its reads and writes are done and no stop has cut it short it leaves and its token is signalled (03 R65; 05 R143; 07 R198-R201). -/
def Obligations.MovementChannels : Prop :=
  ∀ (s : State) (t ch : Nat) (e : MvEntry) (r : List MvEntry), mapGet [] (s.dev.tile t).chans ch = e :: r →
    let x := s.dev.half t e.half; let off := (s.dev.tile t).base e.half + e.addr
    let bs := (s.dev.tile t).bytes off 64; let m := mvDesc bs
    let e' : MvEntry := { e with run := true, desc := bs, cut := false }
    let ran : Dev := s.dev.modChanHead t ch (fun _ => e')
    (Ready (.moveDescriptor t ch) s → s.dev.repairing = false → e.run = false → x.fault = none → x.halting = false → x.mode ≠ .stopped →
      x.mode ≠ .frozen → e.reads = [] → e.fail = none → s.dev.mvWaits t e = false → s.dev.rangeFault t e.half e.addr 64 = none →
      (s.dev.tile t).badIn off 64 = none → (s.dev.tile t).weakIn off 64 = [] →
      (m.bad = true → ∃ u, exec (.moveDescriptor t ch) s = .next u ∧ (u.dev.tile t).tmem = (s.dev.tile t).tmem ∧ u.dev.mem = s.dev.mem ∧
        (u.dev.event (evTil t e.half)).flags = (s.dev.event (evTil t e.half)).flags ||| 2) ∧
      (m.bad = false → exec (.moveDescriptor t ch) s = .next { s with dev :=
        ((if m.op = 1 then ran.mvFill t ch e' m (m.fillPieces (ran.toGlobal m.dloc m.dst)) none
          else
            let ps := m.pieces (ran.toGlobal m.sloc m.src) (ran.toGlobal m.dloc m.dst)
            let spread (f : MvPiece → W64) := mvBytes (ps.flatMap (fun p => (List.range p.2.2).map (fun i => f p + BitVec.ofNat 64 i)))
            ran.mvPieces t ch e' ((spread (fun p => p.2.1)).filter (fun b => (spread (fun p => p.1)).contains b)) ps 0 none).movePump t ch) })) ∧
    (Ready (.moveDescriptor t ch) s → (e.run = true ∨ x.fault.isSome = true ∨ x.halting = true ∨ s.dev.mvWaits t e = true) →
      exec (.moveDescriptor t ch) s = .next { s with dev := s.dev.movePump t ch }) ∧
    (Reaches (.moveDescriptorComplete t ch) s → e.run = true → e.cut = false → e.reads = [] → e.writes = [] → e.fail = none → x.fault = none →
      x.globs = [] → (mvDesc e.desc).sig = false →
      ∃ u, exec (.moveDescriptorComplete t ch) s = .next u ∧ mapGet [] (u.dev.tile t).chans ch = r ∧
        u.dev.half t e.half = x.signal e.sig e.seq e.pc e.bank e.word 3 ∧ (u.dev.tile t).tmem = (s.dev.tile t).tmem) ∧
    (Reaches (.moveDescriptorComplete t ch) s → (e.run = false ∨ e.cut = true ∨ e.reads ≠ [] ∨ e.writes ≠ []) →
      exec (.moveDescriptorComplete t ch) s = .next s)

/-- The tile's registers that act when written: HALT reaches both halves that hold a task and ends their waits, RELEASE makes a FROZEN or STOPPED
half IDLE and empties what its task left, the doorbell adds to its count; a mode change needs both halves IDLE, and to normal
mode at most one draught, and keeps memory, slots and tags (03 R71, R73, R74, R78; 05 R137). -/
def TileRegistersAct : Prop :=
  ∀ (s : State) (req : Req) (t h : Nat) (val : W32), let x := s.dev.half t h
    (Ready (.tilHalt req t val) s → val.getLsbD 2 = true → h < 2 → ∃ u, exec (.tilHalt req t val) s = .next u ∧
      u.dev.half t h = (if x.mode = .run ∨ x.mode = .wait then { x with halting := true, wait := none, mode := .run } else x) ∧
      (u.dev.tile t).tmem = (s.dev.tile t).tmem ∧ (∀ j, j ≠ t → u.dev.tile j = s.dev.tile j)) ∧
    (Ready (.tilRelease req t h val) s → val.getLsbD 0 = true → (x.mode = .frozen ∨ x.mode = .stopped) →
      ∃ u, exec (.tilRelease req t h val) s = .next u ∧ (u.dev.half t h).mode = .idle ∧ (u.dev.half t h).fault = none ∧
        (u.dev.half t h).aq = [] ∧ (u.dev.half t h).vq = [] ∧ (u.dev.half t h).mq = [] ∧ (u.dev.half t h).tokens = [] ∧
        (u.dev.half t h).globs = [] ∧ (u.dev.half t h).bank = x.bank ∧ (u.dev.tile t).tmem = (s.dev.tile t).tmem ∧
        (u.dev.tile t).acc = (s.dev.tile t).acc ∧ (u.dev.tile t).tags = (s.dev.tile t).tags) ∧
    (Ready (.tilRelease req t h val) s → x.mode ≠ .frozen → x.mode ≠ .stopped →
      ∃ u, exec (.tilRelease req t h val) s = .next u ∧ u.dev.tiles = s.dev.tiles) ∧
    (Ready (.tilDoorbell req t h val) s → x.wait = none → ∃ u, exec (.tilDoorbell req t h val) s = .next u ∧
      u.dev.half t h = { x with doorbell := x.doorbell + val.setWidth 64 }) ∧
    (∀ twin, Ready (.modeChange t twin) s → (s.dev.tile t).h0.mode = .idle → (s.dev.tile t).h1.mode = .idle →
      (twin = true → (s.dev.word (offTil t + 4)).getLsbD 1 = true) →
      (twin = false → (s.dev.engine (2 * t)).draught = none ∨ (s.dev.engine (2 * t + 1)).draught = none) → ∃ u, exec (.modeChange t twin) s = .next u ∧
      (u.dev.tile t).twin = twin ∧ (u.dev.tile t).tmem = (s.dev.tile t).tmem ∧ (u.dev.tile t).acc = (s.dev.tile t).acc ∧
      (u.dev.tile t).tags = (s.dev.tile t).tags ∧ (u.dev.tile t).bank0 = (s.dev.tile t).bank0 ∧ (u.dev.tile t).bank1 = (s.dev.tile t).bank1) ∧
    (∀ twin, Ready (.modeChange t twin) s → ((s.dev.tile t).h0.mode ≠ .idle ∨ (s.dev.tile t).h1.mode ≠ .idle) →
      exec (.modeChange t twin) s = .next s)

/-- The life of a task on a half. A preload that ends well leaves its draught loaded, with DR_STAT 2, or 3 where the mode must
change first or the half is FROZEN; the banks exchange for a complete kernel; a start runs at ENTRY with s1 to s8 the parameters, every other
register zero and p0 alone set; an ended task leaves its half IDLE (03 R69; 05 R119, R144; 12 R329, R330). -/
def Obligations.TasksStartAndFinish : Prop :=
  ∀ (s : State) (t h : Nat) (k : Task), let key := 2 * t + h
    (Reaches (.draughtPreloadDone (.tile t h)) s → (s.dev.engine key).draught = some k → (s.dev.engine key).loaded = false →
      (s.dev.engine key).redo = false → k.stop = none → s.dev.bankTaken t (tdTwin k.desc) (8 * tdKlen k.desc) = false →
      (s.dev.loadKernel t h k).1 = true → let now := tdTwin k.desc = (s.dev.tile t).twin ∧ (s.dev.half t h).mode ≠ .frozen
      (now → ((s.dev.loadKernel t h k).2.loadOperands t h k).1 = true) →
      ∃ u, exec (.draughtPreloadDone (.tile t h)) s = .next u ∧ (u.dev.engine key).loaded = true ∧ (u.dev.half t h).drKernel = true ∧
        ((now → (u.dev.half t h).drStat = 2) ∧ (¬now → (u.dev.half t h).drStat = 3))) ∧
    (Reaches (.bankExchange t h) s → (s.dev.engine key).draught = some k → s.dev.mayStart t h k = true → (s.dev.half t h).drKernel = true →
      (s.dev.engine key).swapped = false → ∃ u, exec (.bankExchange t h) s = .next u ∧
      u.dev.half t h = { s.dev.half t h with bank := 1 - (s.dev.half t h).bank, drKernel := false } ∧ (u.dev.engine key).swapped = true ∧
      (u.dev.tile t).bank0 = (s.dev.tile t).bank0 ∧ (u.dev.tile t).bank1 = (s.dev.tile t).bank1) ∧
    (Reaches (.taskStart t h) s → (s.dev.engine key).draught = some k → s.dev.mayStart t h k = true → (s.dev.startCopies t h k).1 = true →
      ∃ u, exec (.taskStart t h) s = .next u ∧ (u.dev.half t h).mode = .run ∧ (u.dev.half t h).pc = leAt k.desc 6 2 ∧
        (∀ i < 8, (u.dev.half t h).reg (1 + i) = BitVec.ofNat 64 (leAt k.desc (64 + 8 * i) 8)) ∧
        (∀ n, 9 ≤ n → (u.dev.half t h).reg n = 0) ∧ (u.dev.half t h).preds = 1 ∧ (u.dev.half t h).tokens = [] ∧ (u.dev.half t h).fault = none ∧
        (u.dev.engine key).draught = none ∧ ∃ r, (u.dev.engine key).running = some r ∧ r.queue = k.queue ∧ r.desc = k.desc) ∧
    (Reaches (.taskFinish t h) s → s.dev.taskOver t h = true → s.dev.stopOf t h = none → ∃ u, exec (.taskFinish t h) s = .next u ∧ (u.dev.half t h).mode = .idle ∧
      (u.dev.half t h).ended = none ∧ (u.dev.engine key).running = none) ∧
    (Reaches (.taskFinish t h) s → (s.dev.taskOver t h = false ∨ (s.dev.stopOf t h).isSome = true) → exec (.taskFinish t h) s = .next s)

/-- A half that detected a fault freezes and its task ends; a half that a halt has reached is STOPPED, its fault register saying
HALTED; the array instruction and the descriptors in progress first end at the row and the 4 KiB given. A window access is served and
answered to its requester (03 R73-R76; 05 R145-R147; 12 R339, R345). -/
def HalvesFreezeAndStop : Prop :=
  (∀ (d : Dev) (t h : Nat), (d.half t h).undo = none → (d.partRun t h 0).partMoves t h [] = d) ∧
  (∀ (s : State) (t h rows : Nat) (moves : List Nat), Reaches (.halfFrozen t h ⟨rows, moves⟩) s → (s.dev.half t h).mode ≠ .frozen →
    (s.dev.half t h).fault.isSome = true → (s.dev.half t h).mode ≠ .idle → let d := (s.dev.partRun t h rows).partMoves t h moves
    ∀ f, (d.half t h).fault = some f → ∃ u, exec (.halfFrozen t h ⟨rows, moves⟩) s = .next u ∧ (u.dev.half t h).mode = .frozen ∧
    (u.dev.half t h).fault = some f ∧ (u.dev.half t h).wait = none ∧ (u.dev.engine (2 * t + h)).running = none) ∧
  (∀ (s : State) (t h rows : Nat) (moves : List Nat), Reaches (.halfStopped t h ⟨rows, moves⟩) s → (s.dev.half t h).halting = true →
    (s.dev.half t h).fault = none → ((s.dev.half t h).mode = .run ∨ (s.dev.half t h).mode = .wait) →
    (s.dev.taskOver t h = false ∨ (s.dev.stopOf t h).isSome = true) → let d := (s.dev.partRun t h rows).partMoves t h moves
    ((d.half t h).fault.isSome = true → exec (.halfStopped t h ⟨rows, moves⟩) s = .next { s with dev := d }) ∧
    ((d.half t h).fault = none → ∃ u, exec (.halfStopped t h ⟨rows, moves⟩) s = .next u ∧
      ((u.dev.half t h).mode = .stopped ∨ (u.dev.half t h).mode = .idle) ∧ (u.dev.half t h).halting = false ∧
      (u.dev.event (evTil t h)).flags.getLsbD 8 = true ∧ (u.dev.engine (2 * t + h)).running = none)) ∧
  (∀ (s : State) (who : Who) (t off : Nat) (op : MemOp), Reaches (.tileWindowAccess who t off op) s →
    ∃ u, exec (.tileWindowAccess who t off op) s = .next u ∧
    u.dev.out = Out.access who (wireStatus (s.dev.memAccess who (tileBase + tileSpan * t + off) op).1)
      (s.dev.memAccess who (tileBase + tileSpan * t + off) op).2.1 :: (s.dev.memAccess who (tileBase + tileSpan * t + off) op).2.2.out)

/-- The tile registers that act when written, and halves that freeze and stop. -/
def Obligations.TileRegistersAndStops : Prop := TileRegistersAct ∧ HalvesFreezeAndStop
/-! ## Memory (07) -/

/-- The interleaving of HBM over stacks, pseudo-channels and rows is one to one: an address and its stack and offset name
each other, and the range of a row is the same memory as that row's stack-local offsets in each window (07 R187-R189). -/
def Obligations.HbmInterleavingIsOneToOne : Prop :=
  (∀ a, a < hbmSize → (granOf a).1 < 8 ∧ stackOff a < stackSize ∧ interOf (granOf a).1 (stackOff a) = a ∧ stackOff a / 0x8000 = a / 0x40000) ∧
  (∀ s off, s < 8 → off < stackSize → interOf s off < hbmSize ∧ (granOf (interOf s off)).1 = s ∧ stackOff (interOf s off) = off)

/-- An access to HBM that no seal, bucket or error meets: a write puts its bytes there and nowhere else, a read answers the bytes and changes no
byte, an atomic answers the old value and stores the new one; an access to no backed address, or a misaligned
atomic, is REFUSED and changes nothing (07 R184, R190, R206; 05 R140). -/
def MemoryAccesses : Prop :=
  ∀ (s : State) (who : Who) (a : W64) (op : MemOp), let n := opLen op; let c := Instr.memoryAccess who a op .clean
    let old : W64 := BitVec.ofNat 64 (leNat ((List.range 8).map (fun i => mapGet 0 s.dev.mem.hbm (a.toNat + i))))
    let plain : Prop := a.toNat + n ≤ hbmSize ∧ (∀ i < n, s.dev.sealedFresh ((a.toNat + i) / 64) = none ∧ (a.toNat + i) / 64 ∉ s.dev.mem.bad ∧
        (a.toNat + i) / 64 ∉ s.dev.mem.weak) ∧
      s.dev.rowRefused who (opWant op) ((List.range n).map (fun i => a.toNat + i)) = none ∧
      s.dev.bucketMeets a.toNat ((List.range n).map (fun i => a.toNat + i)) = .none
    (∀ bs, op = .write bs → Reaches c s → plain → ∃ t, exec c s = .next t ∧
      (∀ i < n, mapGet 0 t.dev.mem.hbm (a.toNat + i) = listGet 0 bs i) ∧
      (∀ k, k < a.toNat ∨ a.toNat + n ≤ k → mapGet 0 t.dev.mem.hbm k = mapGet 0 s.dev.mem.hbm k) ∧
      t.dev.out = .access who stOk [] :: s.dev.out ∧ t.dev.tiles = s.dev.tiles ∧ t.dev.sync = s.dev.sync ∧ t.dev.regs = s.dev.regs) ∧
    (op = .read n → Reaches c s → plain → let bs := (List.range n).map (fun i => mapGet 0 s.dev.mem.hbm (a.toNat + i))
      exec c s = .next { s with dev := s.dev.emit (.access who stOk bs) }) ∧
    (∀ o x y, op = .atomic o x y → Reaches c s → plain → a.toNat % 8 = 0 →
      ∃ t, exec c s = .next t ∧ t.dev.out = .access who stOk (leBytes 8 old.toNat) :: s.dev.out ∧
      (∀ i < 8, mapGet 0 t.dev.mem.hbm (a.toNat + i) = listGet 0 (leBytes 8 (atomNew o old x y).toNat) i) ∧
      (∀ k, k < a.toNat ∨ a.toNat + 8 ≤ k → mapGet 0 t.dev.mem.hbm k = mapGet 0 s.dev.mem.hbm k)) ∧
    (Reaches c s → ((opWant op = .atomic ∧ a.toNat % 8 ≠ 0) ∨
        (hbmKeys a.toNat n = none ∧ (a.toNat < tileBase ∨ tileBase + 68 * tileSpan ≤ a.toNat) ∧
          (a.toNat < syncBase ∨ syncBase + syncSize ≤ a.toNat))) →
      exec c s = .next { s with dev := s.dev.emit (.access who stRefused []) })

/-- Errors of memory. A read that meets a correctable block answers its bytes, counts it and leaves it corrected; one that meets an
uncorrectable block answers MEM_ERROR, is counted and reported and changes no byte; a patrol pass finds what stands in the
blocks it goes over, which a pass cut in parts (log 14) takes up where it stood, and does nothing while it is off (07 R204, R205). -/
def MemoryErrorsAndScrub : Prop :=
  (∀ (s : State) (who : Who) (a : W64) (n b : Nat), let c := Instr.memoryAccess who a (.read n) .clean
    let ks := (List.range n).map (fun i => a.toNat + i); let m := s.dev.stack (granOf (64 * b)).1
    Reaches c s → a.toNat + n ≤ hbmSize → s.dev.rowRefused who .read ks = none → s.dev.bucketMeets a.toNat ks = .none →
    ((blocksOf ks).find? (fun b => s.dev.mem.bad.contains b) = some b →
      ∃ t, exec c s = .next t ∧ t.dev.mem.hbm = s.dev.mem.hbm ∧ t.dev.mem.bad = s.dev.mem.bad ∧
        (t.dev.stack (granOf (64 * b)).1).ueCnt = m.ueCnt + 1 ∧
        (t.dev.stack (granOf (64 * b)).1).errAddr = BitVec.ofNat 64 (stackOff (64 * b) / 64 * 64) ∧
        t.dev.out.head? = some (.access who stMemError [])) ∧
    ((blocksOf ks).find? (fun b => s.dev.mem.bad.contains b) = none → (blocksOf ks).filter (fun b => s.dev.mem.weak.contains b) = [b] →
      (∀ k ∈ ks, s.dev.sealedFresh (k / 64) = none) →
      ∃ t, exec c s = .next t ∧ t.dev.mem.hbm = s.dev.mem.hbm ∧ b ∉ t.dev.mem.weak ∧
        (t.dev.stack (granOf (64 * b)).1).ceCnt = m.ceCnt + 1 ∧
        t.dev.out.head? = some (.access who stOk (ks.map (fun k => mapGet 0 s.dev.mem.hbm k))))) ∧
  (∀ (s : State) (stack off upTo : Nat) (e : Ecc), let m := s.dev.stack stack; let b := interOf stack off / 64
    Ready (.patrolScrub stack ⟨[(off, e)], upTo⟩) s → (s.dev.word 0x2000000).getLsbD 0 = true → s.dev.mem.bad = [] → s.dev.mem.weak = [] →
    off % 64 = 0 → m.scrubAt ≤ off → off < min upTo stackSize → (e = .uncorrectable ∨ e = .corrected) →
    ∃ t, exec (.patrolScrub stack ⟨[(off, e)], upTo⟩) s = .next t ∧ t.dev.mem.hbm = s.dev.mem.hbm ∧ t.dev.mem.weak = [] ∧
      (t.dev.stack stack).scrubAt = (if stackSize ≤ upTo then 0 else upTo) ∧
      (e = .uncorrectable → t.dev.mem.bad = [b] ∧ (t.dev.stack stack).ueCnt = m.ueCnt + 1) ∧
      (e = .corrected → t.dev.mem.bad = [] ∧ (t.dev.stack stack).ceCnt = m.ceCnt + 1)) ∧
  (∀ (s : State) (stack upTo : Nat) (l : List (Nat × Ecc)), Ready (.patrolScrub stack ⟨l, upTo⟩) s →
    ((s.dev.word 0x2000000).getLsbD 0 = false → exec (.patrolScrub stack ⟨l, upTo⟩) s =
      .next { s with dev := s.dev.modStack stack (fun m => { m with scrubAt := 0, scrubbing := false }) }) ∧
    ((s.dev.word 0x2000000).getLsbD 0 = true → min upTo stackSize ≤ (s.dev.stack stack).scrubAt →
      exec (.patrolScrub stack ⟨l, upTo⟩) s = .next s))

/-- A pseudo-channel under repair holds what would reach it: no byte is read or written, an agent's access waits for
PPR_COMPLETE, and a unit's command changes nothing until then (07 R210; log 14). -/
def RepairHoldsAccesses : Prop :=
  (∀ (d : Dev) (ks : List Nat) (src : Nat) (bs : List Byte), (blocksOf ks).any d.repairs = true →
    d.hbmRead ks src = (none, d.stalled) ∧ d.hbmWrite ks bs = (false, d.stalled)) ∧
  (∀ (s : State) (who : Who) (a : W64) (op : MemOp) (e : Ecc), let c := Instr.memoryAccess who a op e; let d := s.dev.upset a.toNat e
    Ready c s → d.repairing = true → (d.answerAccess who a.toNat op).mem.stall = true →
    exec c s = .next { s with dev := d.holdAccess who a.toNat op }) ∧
  (∀ (s : State) (who : Who) (st off : Nat) (val : W64) (bs : List Byte), s.dev.repairing = true →
    ((s.dev.intakeOp who st off (.write bs)).mem.stall = true → exec (.contributionData who st off bs) s = .next s) ∧
    ((s.dev.intakeOp who st off (.atomic .sig val 0)).mem.stall = true → exec (.endMarker who st off val) s = .next s))

/-- Accesses to HBM, the errors they and the patrol meet, and the repair that holds them. -/
def Obligations.HbmAccesses : Prop := MemoryAccesses ∧ MemoryErrorsAndScrub ∧ RepairHoldsAccesses

/-- Retirement. RETIRE takes a granule that can be retired and completes at once where it is already; a busy stack ignores
commands; when the copy ends the granule has the lowest free spare, which RELEASE gives back, and the repair of a row retires its
granule first, and its end serves the accesses that waited; LOST_FIRST and LOST_NEXT walk the granules with lost blocks in ascending order (07 R207-R211). -/
def Obligations.Retirement : Prop :=
  ∀ (s : State) (req : Req) (stack : Nat) (val : W32), let m := s.dev.stack stack
    let p := fld val 4 0; let r := fld val 26 5; let k := granKey p r
    let becomes (c : Instr) (f : StackMem → StackMem) : Prop := ∃ t, exec c s = .next t ∧ t.dev.stack stack = f m
    (∀ c ∈ [Instr.retire req stack val, .release req stack val, .sppr req stack val], Ready c s → m.status = .busy → becomes c id) ∧
    (Ready (.retire req stack val) s → m.status ≠ .busy → r < 2621440 →
      (m.retired k = true → becomes (.retire req stack val) (fun m => { m with status := .done, work := none })) ∧
      (m.retired k = false → (m.spare p).isSome = true →
        becomes (.retire req stack val) (fun m => { m with status := .busy, work := some (.retire p r) })) ∧
      (m.retired k = false → m.spare p = none → ∃ t, exec (.retire req stack val) s = .next t ∧ (t.dev.stack stack).status = .refused ∧
        (t.dev.event (evMem stack)).flags = (s.dev.event (evMem stack)).flags ||| 16)) ∧
    (Ready (.release req stack val) s → m.status ≠ .busy →
      (∀ i, mapFind m.remap k = some (i, 0) → becomes (.release req stack val) (fun m => { m with status := .busy, work := some (.release p r) })) ∧
      (mapFind m.remap k = none → becomes (.release req stack val) (fun m => { m with status := .refused, work := none }))) ∧
    (Ready (.sppr req stack val) s → m.status ≠ .busy → r < 2621440 → m.retired k = true →
      becomes (.sppr req stack val) (fun m => { m with status := .busy, work := some (.sppr p r), pprBusy := true })) ∧
    (∀ i, Ready (.sppr req stack val) s → m.status ≠ .busy → r < 2621440 → m.retired k = false → m.spare p = some i → ∃ t mask,
      exec (.sppr req stack val) s = .next t ∧ mapFind (t.dev.stack stack).remap k = some (i, mask) ∧
      (t.dev.stack stack).status = .busy ∧ (t.dev.stack stack).work = some (.sppr p r) ∧ (t.dev.stack stack).pprBusy = true) ∧
    (Ready (.retirementComplete stack) s → m.work = some (.retire p r) → m.retired k = true →
      becomes (.retirementComplete stack) (fun m => { m with status := .done, work := none })) ∧
    (∀ i, Ready (.retirementComplete stack) s → m.work = some (.retire p r) → m.retired k = false → m.spare p = some i → ∃ t mask,
      exec (.retirementComplete stack) s = .next t ∧ mapFind (t.dev.stack stack).remap k = some (i, mask) ∧
      (t.dev.stack stack).status = .done ∧ (t.dev.event (evMem stack)).flags.getLsbD 2 = true) ∧
    (Ready (.retirementComplete stack) s → m.work = some (.release p r) → ∃ t, exec (.retirementComplete stack) s = .next t ∧
      t.dev.stack stack = { m with remap := mapDel m.remap k, status := .done, work := none }) ∧
    (∀ ok, Ready (.pprComplete stack ok) s → m.pprBusy = true → ∃ d : Dev, exec (.pprComplete stack ok) s = .next { s with dev := d.serveHeld } ∧
      d.stack stack = { m with status := .done, work := none, pprBusy := false } ∧ d.mem.held = s.dev.mem.held ∧
      (d.event (evMem stack)).flags = (s.dev.event (evMem stack)).flags ||| (if ok then 32 else 64)) ∧
    (Ready (.lostFirst req stack) s → becomes (.lostFirst req stack) (fun m => { m with lostSel := m.lostFrom 0 })) ∧
    (Ready (.lostNext req stack) s → becomes (.lostNext req stack) (fun m => { m with lostSel := m.lostSel.bind (fun j => m.lostFrom (j + 1)) }))

/-! ## The vat (08) -/

/-- The vat adds exactly: the words that two finite elements leave in a bucket, where none saturates, are the same in either
order, and so is everything else of the machine (08 R214, R215). -/
def Obligations.VatAdditionHasNoOrder : Prop :=
  ∀ (d : Dev) (s b e f : Nat) (c1 c2 : Machine.Num) (k : Bucket), d.bucket s b = some k → d.mem.bad = [] → d.mem.weak = [] → d.mem.seals = [] →
    d.repairing = false → mapWf 0 d.mem.hbm = true → s < 8 → k.data + 8 * e + 8 ≤ stackSize → k.data + 8 * f + 8 ≤ stackSize →
    c1.isFin = true → c2.isFin = true →
    let at' (e : Nat) : Int := signedN 64 (leNat ((List.range 8).map (fun i => mapGet 0 d.mem.hbm (interOf s (k.data + 8 * e + i)))))
    (at' e).natAbs + (toVat c1 k.x).1.natAbs + (toVat c2 k.x).1.natAbs ≤ 9223372036854775807 →
    (at' f).natAbs + (toVat c1 k.x).1.natAbs + (toVat c2 k.x).1.natAbs ≤ 9223372036854775807 →
    (d.vatElem s b e c1).vatElem s b f c2 = (d.vatElem s b f c2).vatElem s b e c1

/-- The bucket commands: OPEN of a free entry that is well-formed opens it, or begins its zeroing, and each refusal has its
REASON; CLOSE closes an open bucket, is kept by one that zeroes (log 13), and RELEASE frees a final one; a busy stack ignores other commands (08 R218, Table 13). -/
def BucketCommands : Prop :=
  ∀ (s : State) (req : Req) (st b : Nat), let d := s.dev.dropShadow req
    let ends (c : Instr) (status reason : Nat) : Prop := ∃ t, exec c s = .next t ∧ (t.dev.vat st).status = status ∧ (t.dev.vat st).reason = reason
    (∀ c ∈ [Instr.bucketOpen req st b, .bucketClose req st b, .bucketRelease req st b, .bucketCmdReserved req st b], Reaches c s →
      (s.dev.vat st).status = 1 → (c = .bucketClose req st b → s.dev.zeroing st b = false) → exec c s = .next { s with dev := d }) ∧
    (Reaches (.bucketCmdReserved req st b) s → (s.dev.vat st).status ≠ 1 → ends (.bucketCmdReserved req st b) 3 6) ∧
    (Reaches (.bucketOpen req st b) s → (s.dev.vat st).status ≠ 1 → s.dev.bucket st b = none → b < s.dev.vatLen st →
      s.dev.bucketOff st b + 128 ≤ stackSize → (d.stackRead st (d.bucketOff st b) 64).1 = none → ends (.bucketOpen req st b) 3 2) ∧
    (Reaches (.bucketOpen req st b) s → (s.dev.vat st).status ≠ 1 → ∀ bs, (d.stackRead st (d.bucketOff st b) 64).1 = some bs → let k := bucketOf bs
      ((s.dev.bucket st b).isSome = true → ends (.bucketOpen req st b) 3 1) ∧
      (s.dev.bucket st b = none → s.dev.vatLen st ≤ b → ends (.bucketOpen req st b) 3 5) ∧
      (s.dev.bucket st b = none → b < s.dev.vatLen st → s.dev.bucketOff st b + 128 ≤ stackSize →
        (malformedEntry bs k = true → ends (.bucketOpen req st b) 3 2) ∧
        (malformedEntry bs k = false → k.data + 8 * k.elems ≤ stackSize → k.intake + k.intakeLen ≤ stackSize → k.roster + 2 * k.mapLen ≤ stackSize →
          (k.dl = true → s.dev.inSchedRange k.deadline = true) →
          ((∃ e ∈ s.dev.bucketsOf st, meets k.intake k.intakeLen e.2.intake e.2.intakeLen = true) → ends (.bucketOpen req st b) 3 4) ∧
          ((∀ e ∈ s.dev.bucketsOf st, meets k.intake k.intakeLen e.2.intake e.2.intakeLen = false) → 256 ≤ s.dev.vatActive st →
            ends (.bucketOpen req st b) 3 3) ∧
          ((∀ e ∈ s.dev.bucketsOf st, meets k.intake k.intakeLen e.2.intake e.2.intakeLen = false) → s.dev.vatActive st < 256 →
            ∃ t, exec (.bucketOpen req st b) s = .next t ∧ (s.dev.mem.bad = [] → s.dev.mem.seals = [] → t.dev.bucket st b = some k) ∧
            (t.dev.bucket st b).isSome = true ∧
            (t.dev.vat st).status = if k.mode = .zeroing then 1 else 2)))) ∧
    (Reaches (.bucketClose req st b) s → (s.dev.vat st).status ≠ 1 → ∀ k, s.dev.bucket st b = some k → k.mode = .opened →
      ∃ t k', exec (.bucketClose req st b) s = .next t ∧ t.dev.bucket st b = some k' ∧ k'.mode = .closing ∧ k'.closeFt = s.dev.ft.now ∧
        k'.nrecv = k.nrecv ∧ k'.w = k.w ∧ (t.dev.vat st).status = 2 ∧
        (s.dev.mem.bad = [] → s.dev.mem.seals = [] → k'.flags = if k.dl = true ∧ s.dev.due k.deadline = false then k.flags ||| 32 else k.flags)) ∧
    (Reaches (.bucketClose req st b) s → ∀ k, s.dev.bucket st b = some k → k.mode = .zeroing →
      ∃ t k', exec (.bucketClose req st b) s = .next t ∧ t.dev.bucket st b = some k' ∧ k'.mode = .zeroing ∧ k'.closing = true ∧
        k'.held = k.held ∧ (t.dev.vat st).status = (s.dev.vat st).status) ∧
    (Reaches (.bucketClose req st b) s → (s.dev.vat st).status ≠ 1 → s.dev.bucket st b = none →
      ∃ t, exec (.bucketClose req st b) s = .next t ∧ t.dev.eng.buckets = s.dev.eng.buckets ∧ (t.dev.vat st).status = 2) ∧
    (Reaches (.bucketRelease req st b) s → (s.dev.vat st).status ≠ 1 →
      (∀ k, s.dev.bucket st b = some k → k.mode = .final → s.dev.churnUses st b = false →
        ∃ t, exec (.bucketRelease req st b) s = .next t ∧ t.dev.bucket st b = none ∧ (t.dev.vat st).status = 2) ∧
      (s.dev.bucket st b = none → ends (.bucketRelease req st b) 3 1))

/-- What comes to a bucket: an end marker of a node in its range counts once and adds its weight, a second is surplus; data and
markers after the close are late; operations during zeroing are held with their stamp; one outside the intake's
layout or range is refused and counted; nothing of it changes the bucket's own record otherwise (08 R219, R220). -/
def Obligations.Contributions : Prop :=
  ∀ (s : State) (who : Who) (st off b : Nat) (k : Bucket), s.dev.bucket st b = some k → st < 8 → off < stackSize →
    let ks (n : Nat) := (List.range n).map (fun i => interOf st (off + i))
    let reaches (n : Nat) : Prop := off + n ≤ stackSize ∧ s.dev.vatHit st off n = .intake b ∧
      (∀ w, s.dev.rowRefused who w (ks n) = none)
    (∀ val, Reaches (.endMarker who st off val) s → reaches 8 → off % 8 = 0 → off = k.intake → bitsN val.toNat 63 52 = 0 →
      bitsN val.toNat 51 32 = who.node → k.inRange who.node = true → k.roster + 2 * k.mapLen ≤ stackSize →
      (k.mode = .opened → k.dl = false → who.node - k.nodeBase ∉ k.marks → s.dev.mem.bad = [] → s.dev.mem.seals = [] →
        ∃ t, exec (.endMarker who st off val) s = .next t ∧
        t.dev.bucket st b = some { k with marks := (who.node - k.nodeBase) :: k.marks, nrecv := k.nrecv + 1,
                                          w := k.w + BitVec.ofNat 64 (val.toNat % 2 ^ 32) }) ∧
      (k.mode = .opened → k.dl = false → who.node - k.nodeBase ∈ k.marks → ∃ t, exec (.endMarker who st off val) s = .next t ∧
        t.dev.bucket st b = some { k with surplus := k.surplus + 1 }) ∧
      (k.mode = .closing → ∃ t, exec (.endMarker who st off val) s = .next t ∧
        t.dev.bucket st b = some { k with flags := k.flags ||| 64, late := k.late + 1 } ∧ (t.dev.vat st).late = (s.dev.vat st).late + 1) ∧
      (k.mode = .zeroing → ∃ t, exec (.endMarker who st off val) s = .next t ∧
        t.dev.bucket st b = some { k with held := k.held ++ [(.marker who.node val, s.dev.sched)] })) ∧
    (∀ val, Reaches (.endMarker who st off val) s → reaches 8 → off % 8 = 0 → k.inRange who.node = false → ∃ t, exec (.endMarker who st off val) s = .next t ∧
      t.dev.eng.buckets = s.dev.eng.buckets ∧ (t.dev.vat st).refused = (s.dev.vat st).refused + 1 ∧
      (t.dev.event (evVat st)).flags = (s.dev.event (evVat st)).flags ||| 4) ∧
    (∀ bs, Reaches (.contributionData who st off bs) s → reaches bs.length → k.intake + 64 ≤ off → (off - (k.intake + 64)) % k.esz = 0 →
      bs.length % k.esz = 0 → (off - (k.intake + 64)) / k.esz + bs.length / k.esz ≤ k.elems → k.inRange who.node = true →
      (k.mode = .zeroing → ∃ t, exec (.contributionData who st off bs) s = .next t ∧
        t.dev.bucket st b = some { k with held := k.held ++ [(.data who.node ((off - (k.intake + 64)) / k.esz) bs, s.dev.sched)] }) ∧
      (k.mode = .opened → k.dl = false → who.node - k.nodeBase ∈ k.marks → ∃ t, exec (.contributionData who st off bs) s = .next t ∧
        t.dev.bucket st b = some { k with surplus := k.surplus + 1 }) ∧
      (k.mode = .opened → k.dl = false → who.node - k.nodeBase ∉ k.marks → ∃ t k', exec (.contributionData who st off bs) s = .next t ∧
        t.dev.bucket st b = some k' ∧ (who.node - k.nodeBase) ∈ k'.seen ∧ k'.marks = k.marks ∧ k'.nrecv = k.nrecv ∧ k'.w = k.w))

/-- A bucket's own events: zeroing ends with its DATA zero and what was held applied; a due deadline closes it; a closing bucket
becomes FINAL, with TORN where a contributor sent data and no marker, EMPTY where none marked (08 R218, R223). -/
def BucketEvents : Prop :=
  ∀ (s : State) (st b : Nat) (k : Bucket), s.dev.bucket st b = some k →
    (Reaches (.zeroingDone st b) s → k.mode = .zeroing → k.held = [] → k.closing = false → s.dev.step.orders = [] → s.dev.mem.bad = [] → s.dev.mem.seals = [] →
      ∃ t k', exec (.zeroingDone st b) s = .next t ∧ t.dev.bucket st b = some k' ∧ k' = { k with mode := .opened } ∧ (t.dev.vat st).status = 2) ∧
    (Reaches (.zeroingDone st b) s → k.mode ≠ .zeroing → exec (.zeroingDone st b) s = .next s) ∧
    (Reaches (.bucketDeadline st b) s → k.dl = true → s.dev.due k.deadline = true → s.dev.releasing = true → k.mode = .opened →
      s.dev.mem.bad = [] → s.dev.mem.seals = [] →
      ∃ t, exec (.bucketDeadline st b) s = .next t ∧ t.dev.bucket st b = some { k with mode := .closing, closeFt := s.dev.ft.now }) ∧
    (Reaches (.bucketDeadline st b) s → (k.dl = false ∨ s.dev.due k.deadline = false ∨ s.dev.releasing = false) →
      exec (.bucketDeadline st b) s = .next s) ∧
    (Reaches (.bucketFinal st b) s → k.mode = .closing → k.notify = 0 → s.dev.mem.bad = [] → s.dev.mem.seals = [] →
      s.dev.step.orders = [] →
      ∃ t k', exec (.bucketFinal st b) s = .next t ∧ t.dev.bucket st b = some k' ∧ k'.mode = .final ∧ k'.w = k.w ∧ k'.nrecv = k.nrecv ∧
        k'.closeFt = k.closeFt ∧ (k'.flags.getLsbD 1 = true ↔ k.flags.getLsbD 1 = true ∨ ∃ i ∈ k.seen, i ∉ k.marks) ∧
        (k'.flags.getLsbD 4 = true ↔ k.flags.getLsbD 4 = true ∨ k.nrecv = 0) ∧ (t.dev.event (evVat st)).flags.getLsbD 0 = true)

/-- The bucket commands and the buckets' own events. -/
def Obligations.Buckets : Prop := BucketCommands ∧ BucketEvents

/-! ## The churn and breeze units (08) -/

/-- A churn unit takes its draught: the task runs from now, the unit waits for its norm; a descriptor it cannot read, or a
malformed one, ends with BAD_DESC; a norm that never came, or a lock lost while it waited, ends it (08 R225, R227). -/
def ChurnDescriptorsBeginAndEnd : Prop :=
  ∀ (s : State) (st : Nat), let e := s.dev.engine (168 + st); let c := s.dev.churn st
    (∀ k, Reaches (.churnDescriptorStart st) s → e.draught = some k → e.running = none → k.stop = none → s.dev.keepsEntry (168 + st) = false →
      c.phase = .idle → ∃ t r, exec (.churnDescriptorStart st) s = .next t ∧ (t.dev.engine (168 + st)).draught = none ∧
      (t.dev.engine (168 + st)).running = some r ∧ r.start = s.dev.ft.now ∧ r.queue = k.queue ∧
      ((t.dev.churn st).phase = .waiting ∨ (t.dev.churn st).phase = .ended) ∧ (t.dev.churn st).block = 0 ∧
      ((t.dev.churn st).outcome = .malformed → (t.dev.event (evChn st)).flags.getLsbD 7 = true)) ∧
    (Reaches (.churnNoNorm st) s → c.phase = .waiting → (c.lost = true ∨ s.dev.releasing = false ∨ s.dev.due (cdNdl c.desc) = true) →
      ∃ t, exec (.churnNoNorm st) s = .next t ∧ (t.dev.churn st).phase = .ended ∧ (t.dev.churn st).outcome = .noNorm ∧
      (t.dev.event (evChn st)).flags.getLsbD 4 = true) ∧
    (Reaches (.churnNoNorm st) s → c.phase = .waiting → c.lost = false → s.dev.releasing = true → s.dev.due (cdNdl c.desc) = false →
      exec (.churnNoNorm st) s = .next s) ∧
    (∀ k, Reaches (.churnNormReady st) s → s.dev.bucket st (cdBucket c.desc) = some k → c.phase = .waiting → c.stopAsk = false →
      k.mode = .final → s.dev.normHere c.desc = true → c.lost = false → s.dev.releasing = true →
      (k.flags &&& 0x0F ≠ 0 → ∃ t, exec (.churnNormReady st) s = .next t ∧ (t.dev.churn st).phase = .ended ∧ (t.dev.churn st).outcome = .bucket) ∧
      (k.flags &&& 0x0F = 0 →
        let nu := toF32 ((f32Num ((s.dev.syncAt (cdNormw c.desc)).setWidth 32)).scale (-(cdLsexp c.desc)))
        (cdRecipe c.desc ≠ 7 → finF32 nu = false → ∃ t, exec (.churnNormReady st) s = .next t ∧ (t.dev.churn st).phase = .ended ∧
          (t.dev.churn st).outcome = .skipped) ∧
        ((cdRecipe c.desc = 7 ∨ finF32 nu = true) → ∃ t, exec (.churnNormReady st) s = .next t ∧ (t.dev.churn st).phase = .blocks ∧
          (t.dev.churn st).block = c.block ∧ (t.dev.churn st).desc = c.desc))) ∧
    (∀ o, Reaches (.churnDescriptorEnd st) s → c.outcome? = some o → s.dev.step.orders = [] → s.dev.step.reruns = [] →
      ∃ t, exec (.churnDescriptorEnd st) s = .next t ∧
      (t.dev.churn st).phase = .idle ∧ (t.dev.churn st).blocks = c.blocks ∧ (t.dev.engine (168 + st)).running = none) ∧
    (Reaches (.churnDescriptorEnd st) s → c.outcome? = none → exec (.churnDescriptorEnd st) s = .next s)

/-- A churn unit's blocks: each goes on to the next block, or waits for its mirror; a block whose record says it is done is ALREADY
and computes nothing; a stop, a mirror under way or the last block behind it changes no block; the mirror's end, its
failure and the trust pair's acknowledgement are each taken once (08 R231-R234). -/
def ChurnBlocks : Prop :=
  ∀ (s : State) (st : Nat), let c := s.dev.churn st
    (Reaches (.churnBlock st) s → c.phase = .blocks → c.stopAsk = false → c.mirror = none → c.block < cdNb c.desc →
      ∃ t, exec (.churnBlock st) s = .next t ∧ (t.dev.churn st).phase = .blocks ∧ (t.dev.churn st).desc = c.desc ∧
        (((t.dev.churn st).block = c.block + 1 ∧ (t.dev.churn st).mirror = none) ∨
          ((t.dev.churn st).block = c.block ∧ (t.dev.churn st).mirror.isSome = true ∧ cdMirror c.desc = true)) ∧
        (∀ r, (s.dev.unitRead c.who (stackAddr st (cdLrec c.desc + 32 * c.block)) 32).1 = some r → leAt r 0 4 = cdStep c.desc →
          leAt r 8 1 = 2 → (t.dev.churn st).block = c.block + 1 ∧ (t.dev.churn st).errs = c.errs ∧ (t.dev.churn st).flagged = c.flagged ∧
            (t.dev.churn st).blocks = c.blocks)) ∧
    (Reaches (.churnBlock st) s → (c.phase ≠ .blocks ∨ c.stopAsk = true ∨ (c.mirror.isSome = true ∧ c.block < cdNb c.desc)) →
      exec (.churnBlock st) s = .next s) ∧
    (∀ m, Reaches (.mirrorAck st) s → c.mirror = some m → m.recordSent = true → m.acked = true → ∃ t, exec (.mirrorAck st) s = .next t ∧
      (t.dev.churn st).mirror = none ∧ (t.dev.churn st).block = c.block + 1) ∧
    (∀ m, Reaches (.mirrorFail st) s → c.mirror = some m → m.failed = true → m.out = 0 → ∃ t, exec (.mirrorFail st) s = .next t ∧
      (t.dev.churn st).mirror = none ∧ (t.dev.churn st).block = c.block + 1 ∧ (t.dev.event (evChn st)).flags.getLsbD 6 = true) ∧
    (Reaches (.lambPairAck st) s → c.pairSent = true → c.pairOut = 0 → c.pairFail = false → c.pairDone = false →
      ∃ t, exec (.lambPairAck st) s = .next t ∧ (t.dev.churn st).pairDone = true ∧ (t.dev.churn st).block = c.block)

/-- A breeze engine takes its draught and loads its vectors, or has its outcome where it cannot; a stop takes effect after the
rows that it has streamed; at an outcome its task leaves the engine, its counts stay (08 R236-R238). -/
def BreezeDescriptors : Prop :=
  ∀ (s : State) (st upTo : Nat), let c := s.dev.breeze st; let e := s.dev.engine (184 + st); let n := (breezeDesc c.desc).n
    (∀ k, Reaches (.breezeDescriptor st) s → e.draught = some k → e.running = none → k.stop = none → s.dev.keepsEntry (184 + st) = false →
      c.busy = false → ∃ t r, exec (.breezeDescriptor st) s = .next t ∧ (t.dev.engine (184 + st)).draught = none ∧
      (t.dev.engine (184 + st)).running = some r ∧ r.queue = k.queue ∧ (t.dev.breeze st).busy = true ∧ (t.dev.breeze st).row = 0 ∧
      ((t.dev.breeze st).outcome = none → (breezeDesc (t.dev.breeze st).desc).bad = false)) ∧
    (Reaches (.breezeDescriptor st) s → e.draught = none → exec (.breezeDescriptor st) s = .next s) ∧
    (∀ o, Reaches (.breezeEnd ⟨st, upTo⟩) s → c.outcome = some o → ∃ t, exec (.breezeEnd ⟨st, upTo⟩) s = .next t ∧ (t.dev.breeze st).busy = false ∧
      (t.dev.breeze st).outcome = none ∧ (t.dev.breeze st).sat = c.sat ∧ (t.dev.breeze st).bytes = c.bytes ∧
      (t.dev.engine (184 + st)).running = none) ∧
    (Reaches (.breezeEnd ⟨st, upTo⟩) s → c.outcome = none → c.busy = true → upTo ≤ c.row → c.row < n → ∃ t,
      exec (.breezeEnd ⟨st, upTo⟩) s = .next t ∧
      (c.stopAsk = false → t.dev.breeze st = c ∧ t.dev.mem = s.dev.mem) ∧
      (c.stopAsk = true → (t.dev.breeze st).busy = false ∧ (t.dev.engine (184 + st)).running = none)) ∧
    (Reaches (.breezeEnd ⟨st, upTo⟩) s → c.outcome = none → c.busy = false → exec (.breezeEnd ⟨st, upTo⟩) s = .next s)

/-- The churn units, from descriptor to end, and the breeze engines. -/
def Obligations.ChurnAndBreezeUnits : Prop := ChurnDescriptorsBeginAndEnd ∧ ChurnBlocks ∧ BreezeDescriptors
/-! ## The step (09, 10) -/

/-- The scale that a bucket is opened with lies in its range, and where the range does not bind it leaves room: as many
contributions as the group has members, each below 2^(maxexp+1) and grown by the headroom, stay within the vat word (09 R250).
The loss scale after a commit follows the growth rule (10 R284). -/
def Obligations.ScalesAndGrowth : Prop :=
  (∀ (me : Int) (m h : Nat), -149 ≤ chooseX me m h ∧ chooseX me m h ≤ 16383 ∧ chooseX (-32768) m h = -149 ∧
    (me ≠ -32768 → 1 ≤ m → chooseX me m h ≠ 16383 → ∃ j : Nat, (j : Int) = chooseX me m h + 62 - (me + 1) - h ∧ m ≤ 2 ^ j)) ∧
  (∀ (interval clean : Nat) (cap exp : Int), grow true interval cap exp clean = (exp, 0) ∧
    (clean + 1 < interval → grow false interval cap exp clean = (exp, clean + 1)) ∧
    (interval ≤ clean + 1 → grow false interval cap exp clean = (min (exp + 1) cap, 0)))

/-- An attempt starts only between attempts of a running group whose step record can be read and whose owner has its lock: it takes the
step after the record's, holds no vote, verdict or norm yet, knows its buckets and enables its schedule's queues; a replay
takes the place of a start after an abandoned attempt alone; each drain vane is counted, the first opening the fall-back
path's entries; a topology change takes the new group between attempts, and ends the run where a block of a lost shard has no
matching record (09 R241, R242, R246-R248, R260; 10 R287; 19 R490-R492). -/
def Obligations.AttemptsStart : Prop :=
  ∀ (s : State) (g : Group), s.dev.step.group = some g →
    (∀ c ∈ [Instr.stepAttemptStart, .stepReplay], Reaches c s → s.dev.step.running = true → s.dev.step.active = false →
      s.dev.boot.firmware = true → (s.dev.step.outcome = 3 ↔ c = .stepReplay) → s.dev.ownerBack g = true →
      (∀ r, (s.dev.plainRead g.stepRec 64).1 = some r → ∃ t, exec c s = .next t ∧ t.dev.step.active = true ∧
        t.dev.step.step = BitVec.ofNat 32 (leAt r 0 4 + 1) ∧ t.dev.step.vanes = 0 ∧ t.dev.step.voted = false ∧
        t.dev.step.published = false ∧ t.dev.step.normWord = none ∧ t.dev.step.failures = [] ∧ t.dev.ft.reportLate = false ∧
        t.dev.step.fallback = (s.dev.step.fresh || s.dev.step.prevSat || s.dev.ft.reportLate || s.dev.step.fallbackAsk) ∧
        t.dev.step.tries.map Prod.fst = s.dev.ownKeys g ∧ t.dev.step.queues = (if t.dev.step.fallback then g.schedule.fallQueues else g.schedule.mainQueues)) ∧
      ((s.dev.plainRead g.stepRec 64).1 = none → ∃ t, exec c s = .next t ∧ t.dev.step = s.dev.step)) ∧
    (∀ c ∈ [Instr.stepAttemptStart, .stepReplay], Reaches c s →
      (s.dev.step.running = false ∨ s.dev.step.active = true ∨ s.dev.ownerBack g = false) → exec c s = .next s) ∧
    (Reaches (.drainVane) s → s.dev.step.active = true → ∃ t, exec (.drainVane) s = .next t ∧
      t.dev.step.vanes = s.dev.step.vanes + 1 ∧ t.dev.step.active = true ∧
      t.dev.step.vaneAt = s.dev.sched ∧
      ((s.dev.step.fallback = false ∨ s.dev.step.vanes ≠ 0) → t.dev.eng = s.dev.eng)) ∧
    (∀ r lost mirrors g', let c := Instr.topologyChange ⟨r, lost, mirrors⟩; let q := s.dev.readGroup r.toNat g.stepRec g.schedule
      let step := leAt (q.2.stepRecord g) 0 4
      let bad := ((q.2.setGroup g').lostBlocks step lost).any (fun x => x.failed || !mirrorGood step (x.parts.flatMap (fun p => p.2.getD [])))
      Reaches c s → s.dev.step.active = false → s.dev.boot.firmware = true → q.1 = some g' → ∃ t, exec c s = .next t ∧
      t.dev.step.group = some g' ∧ t.dev.step.fresh = true ∧ t.dev.step.hist = [] ∧
      (bad = true → t.dev.step.unrecovered = true ∧ t.dev.step.running = false) ∧
      (bad = false → t.dev.step.unrecovered = s.dev.step.unrecovered ∧ t.dev.step.running = s.dev.step.running)) ∧
    (∀ r lost mirrors, Reaches (.topologyChange ⟨r, lost, mirrors⟩) s → s.dev.step.active = true → exec (.topologyChange ⟨r, lost, mirrors⟩) s = .next s)

/-- No watch, vane entry or queued vane work follows a store to sync memory. -/
def SyncQuiet (s : State) : Prop := s.dev.watchIds = [] ∧ s.dev.vaneIds = [] ∧ s.dev.sync.work = []

/-- The word of sync memory at a local address that stands aligned in it. -/
def InSync (a : Nat) : Prop := syncBase ≤ a ∧ a + 8 ≤ syncBase + syncSize ∧ a % 8 = 0

/-- Reduction: a bucket to be reduced again takes its other entry with the scale of its maximum once a drain vane allows it, and one
with no attempt left abandons the step; a partial goes to the norm bucket once; the root publishes the norm with the step in its upper word and
every member passes it on once; the trust pair is stored with the step; a timeout closes a bucket FORCED; an owner that loses
lock says so, and as root abandons a step whose norm has not gone out (08 R231; 09 R251-R266). -/
def Obligations.ReductionOfAStep : Prop :=
  ∀ (s : State) (g : Group), s.dev.step.group = some g → s.dev.step.active = true → let st := s.dev.step
    (let c := Instr.reReduction;
      Reaches c s → st.abandoned = false → (∀ w, st.normWord = some w → finF32 (lo32 w) = true) →
      (∀ k t, st.tries.filter (fun e => s.dev.tryAgain e.2) = [(k, t)] →
        (g.spent k t = true → exec c s = .next { s with dev := s.dev.modStep (fun st => { st with abandoned := true }) }) ∧
        (g.spent k t = false → st.vanePassed k t = false → exec c s = .next s) ∧
        (g.spent k t = false → st.vanePassed k t = true → g.entries k ≠ none → ∃ u, exec c s = .next u ∧
          mapFind u.dev.step.tries k = some (g.nextTry k t) ∧ u.dev.step.past = st.past ++ [(k, t)]))) ∧
    (Reaches .normPartial s → s.dev.isOwner g = true → s.dev.releasing = true → st.lostLock = false → st.abandoned = false → st.partialSent = false →
      s.dev.slipRedo = false → ((∀ x ∈ st.gradients g, x.feeds = true) ∨ ∃ x ∈ st.gradients g, x.pre = true ∧ x.feeds = true) →
      (g.root = s.dev.node → ∃ x k, mapFind st.tries normKey = some x ∧
        s.dev.bucket g.normStack (if x.alternate then g.normAlternate else g.normPrimary) = some k) →
      ∃ u, exec .normPartial s = .next u ∧ u.dev.step.partialSent = true ∧ u.dev.step.tries = st.tries) ∧
    (∀ x n, Reaches .normWordPublish s → g.root = s.dev.node → st.normWord = none → st.published = false → st.lostLock = false →
      st.abandoned = false → st.normSource = some x → (s.dev.normOf g x).1 = some n → ∃ u, exec .normWordPublish s = .next u ∧
      u.dev.step.normWord = some (n.setWidth 64 ||| (st.step.setWidth 64 <<< 32)) ∧ u.dev.step.forwarded = true) ∧
    (Reaches .normWordForward s → st.forwarded = false → g.root ≠ s.dev.node → hi32 (s.dev.syncAt g.normWord) = st.step →
      ∃ u, exec .normWordForward s = .next u ∧ u.dev.step.normWord = some (s.dev.syncAt g.normWord) ∧ u.dev.step.forwarded = true) ∧
    (∀ plan x e bs, Reaches (.trustPairPublish plan) s → SyncQuiet s → mapFind st.tries plan = some x → x.final = true → x.pre = false →
      x.cls = some .clean → g.plan[plan]? = some e →
      e.trust = true → (s.dev.stackRead e.stack x.data 16).1 = some bs → (∀ o ∈ g.tensorOwners plan, o = s.dev.node) → InSync (syncBase + e.tpair) →
      InSync (syncBase + e.tpair + 8) → ∃ u, exec (.trustPairPublish plan) s = .next u ∧ (s.dev.node ∈ g.tensorOwners plan → ∀ i < 2,
      u.dev.syncAt (syncBase + e.tpair + 8 * i) =
        (toF32 ((mkNum (signedN 64 (leAt bs (8 * i) 8)) 0 false).scale x.x)).setWidth 64 ||| (st.step.setWidth 64 <<< 32))) ∧
    (∀ plan e l, Reaches (.lambMarker plan) s → g.plan[plan]? = some e → e.trust = true → st.lambs = [(l, true)] → gNode l = e.owner →
      stackAddr e.stack 0 ≤ gLoc l → gLoc l < stackAddr e.stack stackSpan → s.dev.eng.churns = [] → st.reruns = [] →
      ∃ u, exec (.lambMarker plan) s = .next u ∧ u.dev.step.lambs = []) ∧
    (Reaches .ownerLockLost s → s.dev.isOwner g = true → s.dev.releasing = false → st.lostLock = false → ∃ u, exec .ownerLockLost s = .next u ∧
      u.dev.step.lostLock = true ∧ (g.root = s.dev.node → st.normWord = none → u.dev.step.published = true) ∧
      (st.normWord ≠ none → u.dev.step.published = st.published)) ∧
    (∀ stack b k, Reaches (.crossDomainTimeout stack b) s → s.dev.bucket stack b = some k → k.dl = false →
      (k.mode = .opened → s.dev.mem.bad = [] → s.dev.mem.seals = [] → ∃ u, exec (.crossDomainTimeout stack b) s = .next u ∧
        u.dev.bucket stack b = some { k with mode := .closing, flags := k.flags ||| 32, closeFt := s.dev.ft.now }) ∧
      (k.mode = .zeroing → ∃ u, exec (.crossDomainTimeout stack b) s = .next u ∧
        u.dev.bucket stack b = some { k with flags := k.flags ||| 32, closing := true }) ∧
      ((k.mode = .closing ∨ k.mode = .final) → exec (.crossDomainTimeout stack b) s = .next s))

/-- Votes and verdicts: a member votes once, the root's own vote adding to its tally; the root publishes once, the outcome 1 with a finite
norm, 2 with one that is not, 3 with none, and 3 for a step abandoned after its norm of which nothing is written (log 21); a member applies the verdict of this step once: the attempt is over with that
outcome, an abandoned step is counted, and at a commit the scale follows the growth rule (10 R284, R286, R288-R290). -/
def Obligations.VotesAndVerdicts : Prop :=
  ∀ (s : State) (g : Group), s.dev.step.group = some g → s.dev.step.active = true → let st := s.dev.step
    (Reaches .vote s → st.voted = false → s.dev.churnQuiet = true → s.dev.stepQuiet = true → st.failures = [] →
      (hi32 (s.dev.syncAt g.normWord) = st.step → st.forwarded = true) → ∃ u, exec .vote s = .next u ∧ u.dev.step.voted = true ∧
      (g.root = s.dev.node → SyncQuiet s → InSync (g.normWord + 16) → s.dev.mem.badSync = [] →
        u.dev.syncAt (g.normWord + 16) = s.dev.syncAt (g.normWord + 16) + 1 + (if s.dev.sawSat then 0x200000#64 else 0) +
          (if st.unwritten then 0x40000000000#64 else 0))) ∧
    (Reaches .vote s → st.voted = true → exec .vote s = .next s) ∧
    (Reaches .verdictPublish s → g.root = s.dev.node → tallyVotes (s.dev.syncAt (g.normWord + 16)) < g.count → exec .verdictPublish s = .next s) ∧
    (∀ c ∈ [Instr.verdictPublish, .verdictDeadline], Reaches c s → g.root = s.dev.node → st.published = false →
      (c = .verdictPublish → g.count ≤ tallyVotes (s.dev.syncAt (g.normWord + 16))) → ∃ u, exec c s = .next u ∧ u.dev.step.published = true ∧
      (SyncQuiet s → InSync (g.normWord + 8) → g.children 0 = [] → ∃ w, u.dev.syncAt (g.normWord + 8) = w ∧ hi32 w = st.step ∧
        (st.normWord = none → w.toNat % 4 = 3) ∧ (∀ n, st.normWord = some n → finF32 (n.setWidth 32) = true → w.toNat % 4 = if st.abandoned && !s.dev.churnWrote then 3 else 1) ∧
        (∀ n, st.normWord = some n → finF32 (n.setWidth 32) = false → w.toNat % 4 = 2) ∧
        (w.getLsbD 3 = true ↔ tallyVotes (s.dev.syncAt (g.normWord + 16)) < g.count))) ∧
    (Reaches .verdictApply s → s.dev.verdictHere g = none → exec .verdictApply s = .next s) ∧
    (∀ w, Reaches .verdictApply s → s.dev.verdictHere g = some w → ∃ u, exec .verdictApply s = .next u ∧ u.dev.step.active = false ∧
      u.dev.step.outcome = w.toNat % 4 ∧ u.dev.step.tries = [] ∧
      u.dev.step.abandons = (if w.toNat % 4 = 3 then st.abandons + 1 else 0) ∧ (u.dev.step.retained = true ↔ w.toNat % 4 = 3) ∧
      u.dev.step.fail = w.getLsbD 4 ∧ u.dev.step.group = some g ∧
      (w.toNat % 4 = 1 → u.dev.step.committed = (st.commits g).committed))
/-! ## Synchronisation (11) -/

/-- A value committed to a watch word is what it reads, and every half that waits on the word and whose condition it meets runs
again with its predicate set; the other words are as they were (05 R135; 07 R193; 11 R302). -/
def WatchWordCommits : Prop :=
  ∀ (s : State) (who : Who) (i : Nat) (v : W64), Reaches (.syncWordCommit who i (.write (leBytes 8 v.toNat))) s → SyncQuiet s →
    ∃ u, exec (.syncWordCommit who i (.write (leBytes 8 v.toNat))) s = .next u ∧ u.dev.sync64 i = v ∧
      (∀ j, j ≠ i → u.dev.sync64 j = s.dev.sync64 j) ∧ u.dev.mem.hbm = s.dev.mem.hbm ∧ i ∉ u.dev.mem.badSync ∧
      (∀ t h a cc x dl pd, h < 2 → (s.dev.half t h).wait = some a →
        a.what = .word false i cc x dl pd → u.dev.half t h =
        if condW cc v x then ((s.dev.half t h).setPred pd true).unwait else s.dev.half t h)

/-- The ledger and release signals: an OPEN enters its source with a landed count of 0 unless 4096 are open; what lands is counted; a
signal whose count has landed is performed and lands itself, one whose count has not is held, one of a source without
an entry is refused, a full buffer refuses for retry, and a hold that timed out is refused and lands (11 R297-R300, R527). -/
def Obligations.LedgerAndReleaseSignals : Prop :=
  ∀ (s : State) (node ep : Nat), let y := s.dev.sync; let key := ledKey node ep
    (Reaches (.ledgerOpen node ep) s → y.ledger.length < 4096 → ∃ u, exec (.ledgerOpen node ep) s = .next u ∧ mapFind u.dev.sync.ledger key = some 0 ∧
      (∀ k, k ≠ key → mapFind u.dev.sync.ledger k = mapFind y.ledger k)) ∧
    (Reaches (.ledgerOpen node ep) s → mapFind y.ledger key = none → 4096 ≤ y.ledger.length → ∃ u, exec (.ledgerOpen node ep) s = .next u ∧
      u.dev.sync = { y with retryCnt := y.retryCnt + 1 } ∧ (u.dev.event evSyn).flags = (s.dev.event evSyn).flags ||| 4) ∧
    (Reaches (.ledgerClose node ep) s → ∃ u, exec (.ledgerClose node ep) s = .next u ∧ u.dev.sync.ledger = mapDel y.ledger key ∧ u.dev.mem = s.dev.mem) ∧
    (∀ n l, Reaches (.writeLanded node ep n) s → (node ≠ s.dev.node ∨ ep ≠ 197) → y.hold = [] → mapFind y.ledger key = some l → ∃ u, exec (.writeLanded node ep n) s = .next u ∧
      mapFind u.dev.sync.ledger key = some (l + BitVec.ofNat 32 n) ∧ (∀ k, k ≠ key → mapFind u.dev.sync.ledger k = mapFind y.ledger k)) ∧
    (∀ n, Reaches (.writeLanded node ep n) s → (node ≠ s.dev.node ∨ ep ≠ 197) → y.hold = [] → mapFind y.ledger key = none → exec (.writeLanded node ep n) s = .next s) ∧
    (∀ (who : Who) (a : Nat) (v : W64) (n : W32) (tag : W16), Reaches (.releaseSignal who a v n tag) s → who.node = node → who.endpoint = ep →
      node ≠ s.dev.node → who.kind ≠ .host →
      (mapFind y.ledger key = none → exec (.releaseSignal who a v n tag) s = .next { s with dev := s.dev.emit (.access who stRefused []) }) ∧
      (∀ l, mapFind y.ledger key = some l → (l - n).toInt < 0 → y.held < 256 → ∃ u, exec (.releaseSignal who a v n tag) s = .next u ∧
        u.dev.sync.hold = y.hold ++ [{ who := who, addr := a, val := v, count := n, rtag := tag, pk := none }] ∧ u.dev.sync.words = y.words ∧
        u.dev.mem = s.dev.mem ∧ y.hold.length < u.dev.sync.peak) ∧
      (∀ l, mapFind y.ledger key = some l → (l - n).toInt < 0 → 256 ≤ y.held → ∃ u, exec (.releaseSignal who a v n tag) s = .next u ∧
        u.dev.sync.hold = y.hold ∧ u.dev.sync.retryCnt = y.retryCnt + 1 ∧ u.dev.out.head? = some (.access who (wireStatus stRetry) [])) ∧
      (∀ l, mapFind y.ledger key = some l → 0 ≤ (l - n).toInt → y.hold = [] → SyncQuiet s → InSync a → y.words = [] → s.dev.mem.badSync = [] →
        ∃ u, exec (.releaseSignal who a v n tag) s = .next u ∧ u.dev.syncAt a = v ∧ mapFind u.dev.sync.ledger key = some (l + 1))) ∧
    (∀ i x, Reaches (.holdTimeout i) s → y.hold = [x] → i = 0 → x.who.kind ≠ .host → x.pk = none → ∃ u, exec (.holdTimeout i) s = .next u ∧
      u.dev.sync.hold = [] ∧ u.dev.sync.words = y.words ∧ (u.dev.event evSyn).flags.getLsbD 1 = true ∧
      u.dev.out.head? = some (.access x.who stRefused [])) ∧
    (∀ i tag, Reaches (.signalRetry i) s → y.retries[i]? = some tag → let d := s.dev.modSync (fun y => { y with retries := y.retries.eraseIdx i })
      (d.findReq tag = none → exec (.signalRetry i) s = .next { s with dev := d }) ∧
      (∀ r, d.findReq tag = some r → d.unsealedWrite r = false → (d.sendPacket none r.pk).1 = stOk →
        exec (.signalRetry i) s = .next { s with dev := (d.sendPacket none r.pk).2 }))

/-- Watch entries and vane entries: arming a watch whose condition the word already meets fires it at once, disarms it and counts the hit;
breaking a vane entry breaks it for good until a reset, which clears its words (11 R303, R307-R310). -/
def WatchesAndVanes : Prop :=
  ∀ (s : State) (req : Req) (n : Nat),
    (∀ val, Reaches (.watchArm req n val) s → val.getLsbD 31 = false → ∃ u, exec (.watchArm req n val) s = .next u ∧
      u.dev.sync = s.dev.sync ∧ u.dev.tiles = s.dev.tiles) ∧
    (∀ val, Reaches (.watchArm req n val) s → let c := (storeReg req (offWatch n) val (s.dev.dropShadow req)).word (offWatch n)
      val.getLsbD 31 = true → c.getLsbD 31 = true →
      condW (fld c 16 14) (s.dev.sync64 (fld c 13 0)) (s.dev.word64 (offWatch n + 4)) = true → ∃ u, exec (.watchArm req n val) s = .next u ∧
      mapGet 0 u.dev.sync.hits n = mapGet 0 s.dev.sync.hits n + 1 ∧ (u.dev.word (offWatch n)).getLsbD 31 = false ∧
      u.dev.sync.words = s.dev.sync.words) ∧
    (Reaches (.vaneBreak req n) s → ∃ u, exec (.vaneBreak req n) s = .next u ∧ (u.dev.vane n).broken = true) ∧
    (Reaches (.vaneReset req n) s → ∃ u, exec (.vaneReset req n) s = .next u ∧ u.dev.vane n = {} ∧
      u.dev.sync64 (fld (s.dev.word (offVane n + 4)) 13 0) = 0 ∧ u.dev.sync64 (s.dev.vaneSense n) = 0 ∧
      (∀ j, j ≠ fld (s.dev.word (offVane n + 4)) 13 0 → j ≠ s.dev.vaneSense n → u.dev.sync64 j = s.dev.sync64 j) ∧
      (∀ m, m ≠ n → u.dev.vane m = s.dev.vane m)) ∧
    (Reaches (.breakVane n) s → ∃ u, exec (.breakVane n) s = .next u ∧ (u.dev.vane n).broken = true)

/-- Watch words, and the watch and vane entries on them. -/
def Obligations.WatchWords : Prop := WatchWordCommits ∧ WatchesAndVanes

/-- Lull: a tile whose halves all wait lulls and holds all it holds; it wakes by its lead or as a waiter is satisfied; a late wake
puts the lead back to 4000 ns and is reported; the lead adapts to the slowest of the recent wakes (11 R311-R314). -/
def Obligations.Lulls : Prop :=
  ∀ (s : State) (t : Nat), let u := s.dev.tile t; let y := s.dev.sync
    (Ready (.lullEnter t) s → s.dev.mayLull t = true → ∃ v, exec (.lullEnter t) s = .next v ∧ v.dev.tile t = { u with lulled := true, due := s.dev.earliest u.waiting } ∧
      (∀ j, j ≠ t → v.dev.tile j = s.dev.tile j) ∧ v.dev.mayIssue t 0 = false ∧ v.dev.mayIssue t 1 = false) ∧
    (Ready (.lullEnter t) s → s.dev.mayLull t = false → exec (.lullEnter t) s = .next s) ∧
    (Ready (.lullWake t) s → u.lulled = true → u.waking = false → s.dev.mustWake t = true → ∃ v, exec (.lullWake t) s = .next v ∧
      v.dev.tile t = { u with waking := true }) ∧
    (∀ ns, Ready (.wakeComplete t ns) s → u.waking = true → ∃ v, exec (.wakeComplete t ns) s = .next v ∧
      v.dev.tile t = { u with lulled := false, waking := false } ∧ v.dev.sync.wakes = (ns :: y.wakes).take 256 ∧
      (∀ w, u.due = some w ∨ s.dev.earliest u.waiting = some w → ftDiff w s.dev.sched < 0 → v.dev.sync.lead = 4000 ∧ v.dev.sync.wakeCnt = 0 ∧
        (v.dev.event evSyn).flags.getLsbD 4 = true) ∧
      ((∀ w, u.due = some w ∨ s.dev.earliest u.waiting = some w → 0 ≤ ftDiff w s.dev.sched) → v.dev.sync.lead = y.lead ∧ v.dev.sync.wakeCnt = y.wakeCnt + 1)) ∧
    (Ready .lullLeadAdapt s → (s.dev.word offSyn).getLsbD 1 = true → 64 ≤ y.wakeCnt → ∃ v, exec .lullLeadAdapt s = .next v ∧
      v.dev.sync.wakeCnt = 0 ∧ v.dev.sync.lead % 10 = 0 ∧ 1000 ≤ v.dev.sync.lead ∧ (∀ x ∈ y.wakes, x + 250 ≤ v.dev.sync.lead))
/-! ## The command front end (12) -/

/-- No bad descriptor waits in a prefetch buffer, and none whose engine its context has lost since, so nothing ends of itself as the front end settles. -/
def GoodHeads (d : Dev) : Prop := ∀ x ∈ d.fe.sqs, ∀ e ∈ x.2.buf, d.headStatus x.2 e = 0

/-- A queue that is not FREE: its doorbell moves the tail, or is ignored and counted; a good descriptor enters the prefetch buffer, a bad or
unreadable one at an idle head ends in its turn with its status; pause, stop and resume; the last acknowledgement of a stop
ends it, and frees a queue that drains (12 R320-R323, R338-R340, R345, Tables 1, 5, 10; 13 R374). -/
def SubmissionQueues : Prop :=
  ∀ (s : State) (q : Nat) (sq : SqState), s.dev.sq q = some sq →
    (∀ f v, Reaches (.sqDoorbell f q v) s → s.dev.barOpen f = true → (f = 0 ∨ s.dev.sqOwner q = some (f - 1)) →
      let ok := sq.mode ≠ .draining ∧ sq.mode ≠ .tombstone ∧ 0 ≤ (v - sq.tail).toInt ∧ (v - sq.head).toNat ≤ 2 ^ sq.log2
      (ok → ∃ t, exec (.sqDoorbell f q v) s = .next t ∧ t.dev.sq q = some { sq with tail := v } ∧ t.dev.fe.dbErr = s.dev.fe.dbErr) ∧
      (¬ok → ∃ t, exec (.sqDoorbell f q v) s = .next t ∧ t.dev.sq q = some sq ∧ t.dev.fe.dbErr = s.dev.fe.dbErr + 1)) ∧
    (∀ data bs, Reaches (.descriptorFetch q data) s → s.dev.mayFetch sq = true → (s.dev.readDesc sq data).1 = some bs → GoodHeads s.dev →
      let d := (s.dev.readDesc sq data).2
      GoodHeads d → d.descStatus sq.ctx bs = 0 → exec (.descriptorFetch q data) s =
        .next { s with dev := d.putSq q { sq with fetched := sq.fetched + 1, buf := sq.buf ++ [(bs, 0)] } }) ∧
    (∀ data st x, Reaches (.descriptorFetch q data) s → s.dev.mayFetch sq = true → sq.loc = false → GoodHeads s.dev → sq.buf = [] → sq.running = 0 →
      s.dev.feFrozen = false → s.dev.cq sq.cq = some x → x.holdFull = false → st ≠ 0 →
      ((data = none ∧ st = 0x403) ∨ ∃ bs, data = some bs ∧ st = s.dev.descStatus sq.ctx bs) →
      ∃ t y p, exec (.descriptorFetch q data) s = .next t ∧ t.dev.sq q = some { sq with
          fetched := sq.fetched + 1, head := sq.head + 1, mode := if st = 0x403 then .paused else .enabled } ∧
        t.dev.cq sq.cq = some y ∧ y.placed = x.placed + 1 ∧ p ∈ y.hold ++ y.writing ∧ p.seq = y.placed ∧ p.entry.qid = q ∧ p.entry.status = st) ∧
    (∀ c, ((∃ req, c = .feSqPause req q) ∨ c = .ctrlPauseSq q) → Reaches c s → ∃ t, exec c s = .next t ∧
      t.dev.sq q = some { sq with mode := if sq.mode = .enabled then .paused else sq.mode }) ∧
    (∀ req, Reaches (.feSqResume req q) s → GoodHeads s.dev → ∃ t, exec (.feSqResume req q) s = .next t ∧
      t.dev.sq q = some { sq with mode := if sq.mode = .paused ∨ sq.mode = .stopped then .enabled else sq.mode }) ∧
    (∀ c, ((∃ req, c = .feSqStop req q) ∨ c = .ctrlStopSq q) → Reaches c s → GoodHeads s.dev →
      ((sq.mode = .enabled ∨ sq.mode = .paused) → sq.stopCmd = [] → ∃ t, exec c s = .next t ∧ t.dev.sq q = some { sq with
        mode := .stopped, buf := [], fetched := sq.head, acks := s.dev.holders q, aborted := if s.dev.holders q = [] then 0 else sq.aborted }) ∧
      (sq.mode ≠ .enabled → sq.mode ≠ .paused → ∃ t, exec c s = .next t ∧ t.dev.fe = s.dev.fe)) ∧
    (∀ e, Reaches (.stopAck q e) s → GoodHeads s.dev → engKey e ∈ sq.acks → engKey e ∉ s.dev.holders q → sq.stopCmd = [] →
      let rest := sq.acks.filter (· != engKey e)
      (rest ≠ [] → exec (.stopAck q e) s = .next { s with dev := s.dev.putSq q { sq with acks := rest } }) ∧
      (rest = [] → sq.mode = .stopped → ∃ t, exec (.stopAck q e) s = .next t ∧ t.dev.sq q = some { sq with acks := [], aborted := 0 }) ∧
      (rest = [] → sq.mode = .draining → s.dev.hasEntry sq.cq q = false → ∃ t, exec (.stopAck q e) s = .next t ∧ t.dev.sq q = none))

/-- The allotment of a FREE queue changes as written, where no interface that holds it is locked or runs; that of a queue in use does not (12 R319, 16 R424). -/
def Allotments : Prop :=
  ∀ (s : State) (req : Req) (q : Nat) (v : W32), let off := 0x110000 + 0x20 * q; let c := Instr.allotmentWrite req off v
    Ready c s → q < 1024 → reqFull req = true →
    (∀ sq, s.dev.sq q = some sq → v &&& 0x7F#32 ≠ s.dev.word off → ∃ t, exec c s = .next t ∧ t.dev.word off = s.dev.word off ∧ t.dev.sq q = some sq) ∧
    (s.dev.sq q = none → (∀ o, s.dev.sqOwner q = some o → s.dev.tdiOf o ≠ .locked ∧ s.dev.tdiOf o ≠ .run) →
      ∃ t, exec c s = .next t ∧ t.dev.word off &&& 0x7F#32 = v &&& 0x7F#32)

/-- An engine whose draught slots are all empty takes the head task that a window grants it, else the one of the queue that its arbiter
grants, in the slot that the task names; no churn unit takes one while the step is abandoned; a task that has run its limit is
stopped; a stopped draught ends, a draught of a tile under retirement loads again; a window opens and closes at its times on
a part that releases (12 R324-R328, R330; 09 R256). -/
def DispatchOfTasks : Prop :=
  ∀ (s : State) (e : Engine), let k := engKey e; let g := s.dev.engine k; let k0 := s.dev.engOf k
    (Reaches (.dispatch e) s → GoodHeads s.dev →
      (((∃ j ∈ s.dev.slotsOf k0, (s.dev.engine j).draught.isSome = true) ∨ s.dev.stepHolds k0 = true) → exec (.dispatch e) s = .next s) ∧
      ((∀ j ∈ s.dev.slotsOf k0, (s.dev.engine j).draught = none) → s.dev.stepHolds k0 = false →
        (s.dev.schedGrant k0 = none → s.dev.roundGrant k0 = none → exec (.dispatch e) s = .next s) ∧
        (∀ q sq bs rest, s.dev.sq q = some sq → sq.buf = (bs, 0) :: rest →
          (s.dev.schedGrant k0 = some q ∨ (s.dev.schedGrant k0 = none ∧ ∃ new, s.dev.roundGrant k0 = some (q, new))) →
          ∃ t, exec (.dispatch e) s = .next t ∧ tdKey bs ∈ s.dev.slotsOf k0 ∧
          t.dev.sq q = some { sq with buf := rest, head := sq.head + 1, running := sq.running + 1 } ∧
          (t.dev.engine (tdKey bs)).draught = some { queue := q, desc := bs } ∧ (t.dev.engine (tdKey bs)).loaded = false ∧
          (s.dev.schedGrant k0 = none → s.dev.roundGrant k0 = some (q, true) →
            (t.dev.engine k0).holder = some q ∧ (t.dev.engine k0).used = 0)))) ∧
    (∀ x, Reaches (.taskTimeout e) s → g.running = some x →
      (s.dev.overLimit x = true → (k < 136 → s.dev.taskOver (k / 2) (k % 2) = false) → ∃ t, exec (.taskTimeout e) s = .next t ∧
        (t.dev.engine k).running = some { x with stop := if x.stop.isSome then x.stop else some 2 }) ∧
      (s.dev.overLimit x = false → exec (.taskTimeout e) s = .next s)) ∧
    (∀ x, Reaches (.draughtDiscard e) s → GoodHeads s.dev → g.draught = some x →
      (x.stop.isSome = true → ∃ t, exec (.draughtDiscard e) s = .next t ∧ (t.dev.engine k).draught = none) ∧
      (∀ j, x.stop = none → k < 136 → s.dev.ras.job = some j → j.tile = k / 2 → ∃ t, exec (.draughtDiscard e) s = .next t ∧
        t.dev.engine k = { g with loaded := false, redo := true })) ∧
    (∀ q sq w, s.dev.sq q = some sq → sq.window = some w → s.dev.releasing = true →
      (Reaches (.windowOpen q) s → s.dev.due w.start = true → q ∉ s.dev.wins →
        exec (.windowOpen q) s = .next { s with dev := { s.dev with wins := q :: s.dev.wins } }) ∧
      (Reaches (.windowClose q) s → s.dev.due w.fin = true → ∃ t, exec (.windowClose q) s = .next t ∧
        t.dev.sq q = some { sq with window := none } ∧ q ∉ t.dev.wins))

/-- Submission queues, allotments and the dispatch of tasks (12; the checks of descriptors: log 19). -/
def Obligations.QueuesAndDispatch : Prop := SubmissionQueues ∧ Allotments ∧ DispatchOfTasks

/-- A completion queue that is not FREE: the oldest entry being written gets its number, which is the queue's new tail, as 4 bytes in host
memory and with a vector where it asks for one; a refused write stalls the queue, which then holds its entries; doorbells
move the head or are ignored and counted; a STALLED queue resumes where its ring can be written, asks for a translation
or stays; an ACTIVE one whose next page may not be written stalls (12 R331-R337, R342; 14 R390, R391). -/
def CompletionQueues : Prop :=
  ∀ (s : State) (c : Nat) (x : CqState), s.dev.cq c = some x → GoodHeads s.dev → let ctx := s.dev.cqCtx c; let f := s.dev.ctxFunc ctx
    (∀ p rest, Reaches (.completionSeqWrite c) s → x.writing = p :: rest → let a := x.slot p.seq; let r := s.dev.ringWrite c x a (leBytes 4 p.seq.toNat)
      (r.1 = .ok → ∃ t y, exec (.completionSeqWrite c) s = .next t ∧ t.dev.cq c = some y ∧ y.tail = p.seq) ∧
      (r.1 = .ok → x.loc = false → x.hold = [] → x.late = [] → (∀ sq, s.dev.sq p.entry.qid = some sq → sq.mode ≠ .tombstone) →
        let d := (s.dev.emit (.dmaWrite f a (leBytes 4 p.seq.toNat))).putCq c { x with tail := p.seq, writing := rest }
        exec (.completionSeqWrite c) s = .next { s with dev := if p.entry.irq || x.irqAll then d.sendVector x.vec else d }) ∧
      (r.1 = .refused → ∃ t, exec (.completionSeqWrite c) s = .next t ∧ t.dev.cq c = some { x with
        mode := .stalled, hold := (x.writing ++ x.hold).map (fun p => { p with held := true }), writing := [], asked := false })) ∧
    (∀ req v i, (i = .cqDoorbell req c v ∨ ∃ o, c = 256 + o ∧ i = .adminCqDoorbell req o v) → Reaches i s → s.dev.reachesCtx req ctx = true →
      let ok := 0 ≤ (v - x.head).toInt ∧ 0 ≤ (x.tail - v).toInt
      (ok → ∃ t y, exec i s = .next t ∧ t.dev.cq c = some y ∧ y.head = v) ∧
      (¬ok → ∃ t, exec i s = .next t ∧ t.dev.cq c = some x ∧ t.dev.fe.dbErr = s.dev.fe.dbErr + 1)) ∧
    (∀ req v i, (i = .cqResume req c v ∨ ∃ o, c = 256 + o ∧ i = .adminResume req o v) → Reaches i s → s.dev.reachesCtx req ctx = true → fbit v 0 = true →
      (x.mode = .active → ∃ t, exec i s = .next t ∧ t.dev.fe = s.dev.fe) ∧
      (x.mode = .stalled → x.hold = [] → x.late = [] →
        x.resumes = [] → (x.loc = true ∨ (s.dev.hostUp f = true ∧ (s.dev.func f).ats = false)) →
        ∃ t, exec i s = .next t ∧ t.dev.cq c = some { x with mode := .active, asked := false }) ∧
      (x.mode = .stalled → x.loc = false → x.resumes = [] → s.dev.hostUp f = false →
        ∃ t, exec i s = .next t ∧ t.dev.cq c = some { x with asked := false }) ∧
      (x.mode = .stalled → x.loc = false → s.dev.hostUp f = true → (s.dev.func f).ats = true →
        (∀ e ∈ s.dev.pci.atc, e.1 = f → e.2.1 = x.nextSlot.toNat / 4096 → e.2.2 = false) →
        ∃ t, exec i s = .next t ∧ t.dev.cq c = some { x with asked := true })) ∧
    (∀ w, Reaches (.atsTranslation c w) s →
      (x.loc = false → (s.dev.func f).ats = true → ∃ t, exec (.atsTranslation c w) s = .next t ∧ (f, x.nextSlot.toNat / 4096, w) ∈ t.dev.pci.atc ∧
        (x.mode = .active → w = false → t.dev.cq c = some { x with
          mode := .stalled, hold := (x.writing ++ x.hold).map (fun p => { p with held := true }), writing := [], asked := false }) ∧
        (x.mode = .stalled → x.asked = true → x.resumes = [] → x.hold = [] → x.late = [] →
          t.dev.cq c = some (if w then { x with mode := .active, asked := false } else { x with asked := false }))) ∧
      ((x.loc = true ∨ (s.dev.func f).ats = false) → exec (.atsTranslation c w) s = .next s))

/-- The service doorbell of a context moves its watch word forward to the count whose low half was written (15 R403), by the formula
the rule gives (log 19). -/
def ServiceDoorbells : Prop :=
  ∀ (s : State) (req : Req) (ctx : Nat) (v : W32), Reaches (.svcDoorbell req ctx v) s → SyncQuiet s → s.dev.reachesCtx req ctx = true →
    ∃ t, exec (.svcDoorbell req ctx v) s = .next t ∧ let w := s.dev.sync64 (16320 + ctx); let w' := t.dev.sync64 (16320 + ctx)
      lo32 w' = v ∧ w' - w = (v - lo32 w).setWidth 64 ∧ (∀ i, i ≠ 16320 + ctx → t.dev.sync64 i = s.dev.sync64 i)

/-- Completion queues and the service doorbell (12, 14, 15). -/
def Obligations.CompletionsAndDoorbells : Prop := CompletionQueues ∧ ServiceDoorbells

/-- An admin command is taken and its entry placed, with a status and a RESULT (12 R342, R343). -/
def Answered (s t : State) (ctx : Nat) (cmd : List Byte) (status result : Nat) : Prop :=
  (t.dev.admin ctx).head = (s.dev.admin ctx).head + 1 ∧ ∃ q x p, s.dev.cq (256 + ctx) = some q ∧ t.dev.cq (256 + ctx) = some x ∧
    x.placed = q.placed + 1 ∧ p ∈ x.hold ++ x.writing ∧ p.seq = x.placed ∧ p.entry.qid = 1024 + ctx ∧ p.entry.status = status ∧
    p.entry.tag = acTag cmd ∧ p.entry.start = BitVec.ofNat 64 result

/-- Commands on completion queues: creation of a FREE one allotted to the context, destruction of one that no queue feeds, resumption; and
an opcode that is none of R343's. -/
def AdminOfCompletions : Prop :=
  ∀ (s : State) (ctx : Nat) (cmd : List Byte), s.dev.admReady ctx cmd = true → GoodHeads s.dev → let k := acId cmd; let p := acP1 cmd
    (Reaches (.createCq ctx cmd) s → s.dev.cqMine ctx k = true → acReserved cmd = false → p < 2 ^ 18 → acP2 cmd = 0 → acP3 cmd = 0 →
      acAddr cmd % 32 = 0 → 4 ≤ bitsN p 4 0 → bitsN p 4 0 ≤ 16 → s.dev.vecOk ctx (bitsN p 17 7) = true →
      (s.dev.cq k = none → ∃ t, exec (.createCq ctx cmd) s = .next t ∧ Answered s t ctx cmd 0 0 ∧ t.dev.cq k = some {
        log2 := bitsN p 4 0, loc := bitsN p 5 5 == 1, irqAll := bitsN p 6 6 == 1, vec := bitsN p 17 7, base := BitVec.ofNat 64 (acAddr cmd) }) ∧
      (s.dev.cq k ≠ none → ∃ t, exec (.createCq ctx cmd) s = .next t ∧ Answered s t ctx cmd 0x503 0)) ∧
    (∀ x, Reaches (.destroyCq ctx cmd) s → s.dev.cqMine ctx k = true → acBare cmd = true → s.dev.cq k = some x →
      (x.late = [] → (∀ y ∈ s.dev.fe.sqs, y.2.cq ≠ k) → ∃ t, exec (.destroyCq ctx cmd) s = .next t ∧ Answered s t ctx cmd 0 0 ∧ t.dev.cq k = none) ∧
      (s.dev.cqInUse k = true → ∃ t, exec (.destroyCq ctx cmd) s = .next t ∧ Answered s t ctx cmd 0x507 0 ∧ t.dev.cq k = some x)) ∧
    (∀ x, Reaches (.resumeCq ctx cmd) s → s.dev.cqMine ctx k = true → acBare cmd = true → s.dev.cq k = some x →
      (x.mode = .active → x.asked = false → ∃ t, exec (.resumeCq ctx cmd) s = .next t ∧ Answered s t ctx cmd 0 0 ∧ t.dev.cq k = some x) ∧
      (x.mode = .stalled → x.resumes = [] → x.loc = true → x.hold = [] → x.late = [] → ∃ t, exec (.resumeCq ctx cmd) s = .next t ∧
        Answered s t ctx cmd 0 0 ∧ t.dev.cq k = some { x with mode := .active, asked := false }) ∧
      (x.mode = .stalled → x.resumes = [] → x.loc = false → s.dev.hostUp (s.dev.ctxFunc (s.dev.cqCtx k)) = false →
        ∃ t, exec (.resumeCq ctx cmd) s = .next t ∧ Answered s t ctx cmd 0 1 ∧ t.dev.cq k = some { x with asked := false }) ∧
      (x.mode = .stalled → x.loc = false → s.dev.hostUp (s.dev.ctxFunc (s.dev.cqCtx k)) = true →
        (s.dev.func (s.dev.ctxFunc (s.dev.cqCtx k))).ats = true →
        (∀ e ∈ s.dev.pci.atc, e.1 = s.dev.ctxFunc (s.dev.cqCtx k) → e.2.1 = x.nextSlot.toNat / 4096 → e.2.2 = false) →
        ∃ t, exec (.resumeCq ctx cmd) s = .next t ∧
          t.dev.cq k = some { x with asked := true, resumes := x.resumes ++ [(ctx, acTag cmd)] })) ∧
    (Reaches (.invalidOpcode ctx cmd) s → ∃ t, exec (.invalidOpcode ctx cmd) s = .next t ∧ Answered s t ctx cmd 0x501 0) ∧
    (s.dev.cqMine ctx k = false → ∀ c ∈ [Instr.createCq ctx cmd, .destroyCq ctx cmd, .resumeCq ctx cmd], Reaches c s →
      ∃ t, exec c s = .next t ∧ Answered s t ctx cmd 0x502 0 ∧ t.dev.cq k = if k = 256 + ctx then t.dev.cq k else s.dev.cq k) ∧
    (s.dev.sqMine ctx k = false → ∀ c ∈ [Instr.createSq ctx cmd, .destroySq ctx cmd, .pauseSq ctx cmd, .stopSq ctx cmd, .resumeSq ctx cmd,
      .setWindow ctx cmd, .clearWindow ctx cmd], Reaches c s → ∃ t, exec c s = .next t ∧ Answered s t ctx cmd 0x502 0 ∧ t.dev.sq k = s.dev.sq k)

/-- Commands on submission queues: creation, and on one in use pause, resume, stop, destruction and windows, each in the states that
Table 5 (12) allows, else BUSY. -/
def AdminOfSubmissions : Prop :=
  ∀ (s : State) (ctx : Nat) (cmd : List Byte), s.dev.admReady ctx cmd = true → GoodHeads s.dev → let q := acId cmd; let p := acP1 cmd
    s.dev.sqMine ctx q = true →
    (let us := bitsN (acP2 cmd) 31 0
     Reaches (.createSq ctx cmd) s → acReserved cmd = false → p < 2 ^ 16 → acP3 cmd = 0 → acAddr cmd % 128 = 0 → 4 ≤ bitsN p 4 0 → bitsN p 4 0 ≤ 16 →
      (us = 0 ∨ (10 ≤ us ∧ us ≤ 100000)) →
      (s.dev.sq q = none → s.dev.cqMine ctx (bitsN p 15 8) = true → (∃ x, s.dev.cq (bitsN p 15 8) = some x ∧ x.mode = .active) →
        ∃ t, exec (.createSq ctx cmd) s = .next t ∧ Answered s t ctx cmd 0 0 ∧ t.dev.sq q = some {
          ctx := ctx, sched := bitsN p 6 6 == 1, loc := bitsN p 5 5 == 1, errPause := bitsN p 7 7 == 1, log2 := bitsN p 4 0, cq := bitsN p 15 8,
          base := BitVec.ofNat 64 (acAddr cmd), slice := (if us = 0 then 100 else us) * 1024000, limit := bitsN (acP2 cmd) 63 32 }) ∧
      (s.dev.sq q ≠ none → ∃ t, exec (.createSq ctx cmd) s = .next t ∧ Answered s t ctx cmd 0x503 0 ∧ t.dev.sq q = s.dev.sq q)) ∧
    (∀ sq, s.dev.sq q = some sq → acBare cmd = true →
      (Reaches (.pauseSq ctx cmd) s → sq.mode = .enabled → ∃ t, exec (.pauseSq ctx cmd) s = .next t ∧ Answered s t ctx cmd 0 0 ∧
        t.dev.sq q = some { sq with mode := .paused }) ∧
      (Reaches (.pauseSq ctx cmd) s → sq.mode ≠ .enabled → ∃ t, exec (.pauseSq ctx cmd) s = .next t ∧ Answered s t ctx cmd 0x503 0 ∧ t.dev.sq q = some sq) ∧
      (Reaches (.resumeSq ctx cmd) s → (sq.mode = .paused ∨ sq.mode = .stopped) → ∃ t, exec (.resumeSq ctx cmd) s = .next t ∧
        Answered s t ctx cmd 0 0 ∧ t.dev.sq q = some { sq with mode := .enabled }) ∧
      (Reaches (.stopSq ctx cmd) s → (sq.mode = .enabled ∨ sq.mode = .paused) → let off := { sq with mode := .stopped, buf := [], fetched := sq.head }
        (s.dev.holders q = [] → ∃ t, exec (.stopSq ctx cmd) s = .next t ∧ (sq.stopCmd = [] → Answered s t ctx cmd 0 0) ∧
          t.dev.sq q = some { off with acks := [], stopCmd := [], aborted := 0 }) ∧
        (s.dev.holders q ≠ [] → ∃ t, exec (.stopSq ctx cmd) s = .next t ∧ t.dev.sq q = some { off with
          acks := s.dev.holders q, stopCmd := sq.stopCmd ++ [(ctx, acTag cmd, sq.aborted)] } ∧ t.dev.fe.cqs = s.dev.fe.cqs)) ∧
      (Reaches (.destroySq ctx cmd) s → (sq.mode = .enabled ∨ sq.mode = .paused ∨ sq.mode = .stopped) → sq.stopCmd = [] →
        (s.dev.holders q = [] → s.dev.hasEntry sq.cq q = false → ∃ t, exec (.destroySq ctx cmd) s = .next t ∧
          Answered s t ctx cmd 0 sq.destroyed ∧ t.dev.sq q = none) ∧
        (s.dev.holders q ≠ [] → ∃ t y, exec (.destroySq ctx cmd) s = .next t ∧ t.dev.sq q = some y ∧ y.mode = .draining ∧
          y.destroyCmd = some (ctx, acTag cmd) ∧ y.acks = s.dev.holders q)) ∧
      (Reaches (.clearWindow ctx cmd) s → ∃ t, exec (.clearWindow ctx cmd) s = .next t ∧ Answered s t ctx cmd 0 0 ∧
        t.dev.sq q = some { sq with window := none } ∧ q ∉ t.dev.wins)) ∧
    (∀ sq, s.dev.sq q = some sq → Reaches (.setWindow ctx cmd) s → acReserved cmd = false → p < 2 ^ 32 → bitsN (acP3 cmd) 7 4 = 0 → acP3 cmd < 2 ^ 24 →
      sq.mode ≠ .draining → sq.mode ≠ .tombstone → sq.sched = true → let w := s.dev.windowOf cmd
      (s.dev.inSchedRange w.start = false → ∃ t, exec (.setWindow ctx cmd) s = .next t ∧ Answered s t ctx cmd 0x506 0 ∧ t.dev.sq q = some sq) ∧
      (s.dev.inSchedRange w.start = true → s.dev.windowBad ctx q w = true → ∃ t, exec (.setWindow ctx cmd) s = .next t ∧
        Answered s t ctx cmd 0x505 0 ∧ t.dev.sq q = some sq) ∧
      (s.dev.inSchedRange w.start = true → s.dev.windowBad ctx q w = false → ∃ t, exec (.setWindow ctx cmd) s = .next t ∧
        Answered s t ctx cmd 0 0 ∧ t.dev.sq q = some { sq with window := some w }))

/-- An admin doorbell moves the pair's tail by the rules of Table 1 (12), or is ignored and counted. -/
def AdminDoorbells : Prop :=
  ∀ (s : State) (req : Req) (ctx : Nat) (v : W32), Reaches (.adminDoorbell req ctx v) s → s.dev.reachesCtx req ctx = true →
    let a := s.dev.admin ctx; let ok := s.dev.admOn ctx = true ∧ 0 ≤ (v - a.tail).toInt ∧ (v - a.head).toNat ≤ 2 ^ s.dev.admSqLog ctx
    (ok → ∃ t, exec (.adminDoorbell req ctx v) s = .next t ∧ t.dev.admin ctx = { a with tail := v } ∧ t.dev.fe.dbErr = s.dev.fe.dbErr) ∧
    (¬ok → ∃ t, exec (.adminDoorbell req ctx v) s = .next t ∧ t.dev.admin ctx = a ∧ t.dev.fe.dbErr = s.dev.fe.dbErr + 1)

/-- Admin commands (12 R340-R343, Tables 1, 4-6; the order of their checks: log 19). -/
def Obligations.AdminCommands : Prop := AdminOfCompletions ∧ AdminOfSubmissions ∧ AdminDoorbells
/-! ## The links (13) -/

/-- A port comes up: EN takes it from DISABLED to DETECT, and cleared returns it; signal, training and alignment move it on, with fewer than
four lanes into FAULT; its own record goes out and its partner's is taken or refused with its reason; an exchange that is complete makes
the port ACTIVE, the first time in routes at once unless it drains, and a new partner keeps it out (13 R349, R365-R367, R371, Table 9). -/
def PortsComeUp : Prop :=
  ∀ (s : State) (p : Nat), let x := s.dev.port p
    (Ready (.portEnable p) s → ∃ t, exec (.portEnable p) s = .next t ∧ fbit (t.dev.word (offPort p)) 0 = true ∧
      t.dev.port p = if x.mode = .disabled then { x with mode := .detect, reason := 0 } else x) ∧
    (Ready (.portDisable p) s → ∃ t, exec (.portDisable p) s = .next t ∧ fbit (t.dev.word (offPort p)) 0 = false ∧ (t.dev.port p).mode = .disabled ∧
      (x.mode ≠ .disabled → (t.dev.port p).lanes = 0 ∧ (t.dev.port p).inRoutes = false ∧ (t.dev.port p).isSealed = false ∧ (t.dev.port p).replay = [])) ∧
    (Ready (.signalDetect p) s → exec (.signalDetect p) s = if x.mode = .detect then
      .next { s with dev := s.dev.putPort p { x with mode := .train } } else .next s) ∧
    (Ready (.trainComplete p) s → exec (.trainComplete p) s = if x.mode = .train then
      .next { s with dev := s.dev.putPort p { x with mode := .align } } else .next s) ∧
    (∀ h rx tx other, let c := Instr.alignComplete p ⟨h, rx, tx, other⟩
      Ready c s → (x.mode ≠ .align → exec c s = .next s) ∧
      (x.mode = .align → laneCount h < 4 → ∃ t, exec c s = .next t ∧ (t.dev.port p).mode = .fault ∧ (t.dev.port p).reason = 5 ∧
        (t.dev.event (evPort p)).flags.getLsbD 5 = true) ∧
      (x.mode = .align → 4 ≤ laneCount h → ∃ t, exec c s = .next t ∧ (t.dev.port p).mode = .exchange ∧
        (t.dev.port p).lanes = (if 8 ≤ laneCount h then 8 else 4) ∧ (t.dev.port p).failed = ~~~h ∧
        (s.dev.node ≠ 0xFFFFF → t.dev.out = .record p (t.dev.ownRecord p) :: s.dev.out))) ∧
    (∀ rec, Ready (.capabilityRecord p rec) s →
      ((x.mode ≠ .exchange ∨ s.dev.node = 0xFFFFF ∨ x.partnerRec ≠ []) → exec (.capabilityRecord p rec) s = .next s) ∧
      (x.mode = .exchange → s.dev.node ≠ 0xFFFFF → x.partnerRec = [] → s.dev.recordReason p rec = 0 → ∃ t, exec (.capabilityRecord p rec) s = .next t ∧
        (t.dev.port p).mode = .exchange ∧ (t.dev.port p).partnerRec = sliceB rec 0 64 ∧ (t.dev.port p).partnerNode = bitsN (leAt rec 8 4) 19 0 ∧
        (t.dev.port p).lanes = min x.lanes (if bitsN (leAt rec 6 1) 3 0 < 8 then 4 else 8)) ∧
      (x.mode = .exchange → s.dev.node ≠ 0xFFFFF → x.partnerRec = [] → s.dev.recordReason p rec ≠ 0 → ∃ t, exec (.capabilityRecord p rec) s = .next t ∧
        (t.dev.port p).mode = .fault ∧ (t.dev.port p).reason = s.dev.recordReason p rec)) ∧
    (Ready (.portActive p) s →
      (s.dev.exchanged p = false → exec (.portActive p) s = .next s) ∧
      (s.dev.exchanged p = true → ∃ t, exec (.portActive p) s = .next t ∧ (t.dev.port p).mode = .active ∧ (t.dev.port p).everActive = true ∧
        (x.everActive = false → (t.dev.port p).inRoutes = !x.draining ∧ (t.dev.port p).joined = true ∧
          (t.dev.port p).recorded = some (x.partnerNode, x.partnerPort)) ∧
        (x.everActive = true → x.recorded ≠ some (x.partnerNode, x.partnerPort) → (t.dev.port p).inRoutes = x.inRoutes ∧
          (t.dev.event (evPort p)).flags.getLsbD 2 = true)))

/-- A port goes down and comes back: a loss of signal or an agreement takes it to RETRAIN and out of routes; a retrain ends ACTIVE, on four
lanes where it must, the width change of either side among the reasons, or in FAULT; a partner unheard for eight beats is LOST and the port back in DETECT; a drain keeps a port
out of routes until it is taken back; a sealed port one of whose keys is at its packet limit faults (13 R368-R371, R373, R375, R376). -/
def PortsGoDown : Prop :=
  ∀ (s : State) (p : Nat), let x := s.dev.port p
    (Ready (.signalLoss p) s → (x.mode = .active ∨ x.mode = .drained) → ∃ t, exec (.signalLoss p) s = .next t ∧ (t.dev.port p).mode = .retrain ∧
      (t.dev.port p).inRoutes = false ∧ (t.dev.port p).replay = x.replay) ∧
    (Ready (.retrainReq p) s → x.beats = true → ∃ t, exec (.retrainReq p) s = .next t ∧ (t.dev.port p).mode = .retrain ∧ (t.dev.port p).agreed = true) ∧
    (Ready (.retrainAck p) s → (x.asked = false → exec (.retrainAck p) s = .next s) ∧
      (x.asked = true → (x.mode = .active ∨ x.mode = .drained) → ∃ t, exec (.retrainAck p) s = .next t ∧ (t.dev.port p).mode = .retrain ∧
        (t.dev.port p).agreed = true ∧ (t.dev.port p).asked = false)) ∧
    (∀ h rx tx other, let c := Instr.retrainComplete p ⟨h, rx, tx, other⟩; let drop := x.lanes = 8 ∧ (x.narrow = true ∨ other = true ∨ laneCount h < 8)
      Ready c s → (x.mode ≠ .retrain → exec c s = .next s) ∧
      (x.mode = .retrain → laneCount h < 4 → ∃ t, exec c s = .next t ∧ (t.dev.port p).mode = .fault) ∧
      (x.mode = .retrain → 4 ≤ laneCount h → ∃ t, exec c s = .next t ∧ (t.dev.port p).mode = .active ∧
        (drop → (t.dev.port p).lanes = 4 ∧ (t.dev.port p).rxLanes = pickLanes h rx ∧ (t.dev.event (evPort p)).flags.getLsbD 4 = true) ∧
        (¬drop → (t.dev.port p).lanes = x.lanes))) ∧
    (Ready (.retrainMaxExpiry p) s → exec (.retrainMaxExpiry p) s = .next { s with dev := s.dev.putPort p { x with agreed := false } }) ∧
    (∀ req, Ready (.retrainRequest req p) s → x.beats = true → ∃ t, exec (.retrainRequest req p) s = .next t ∧ (t.dev.port p).asked = true ∧
      t.dev.out = .linkCtl p (x.linkBody 4 0 0) :: s.dev.out) ∧
    (Ready (.partnerLost p) s →
      ((x.beats = false ∨ x.missed < 8) → exec (.partnerLost p) s = .next s) ∧
      (x.beats = true → 8 ≤ x.missed → ∃ t, exec (.partnerLost p) s = .next t ∧ (t.dev.port p).mode = .detect ∧ (t.dev.port p).lanes = 0 ∧
        (t.dev.port p).inRoutes = false ∧ (t.dev.port p).isSealed = false ∧ (t.dev.event (evPort p)).flags.getLsbD 1 = true)) ∧
    (∀ req, Ready (.portRejoin req p) s → (x.mode = .active ∨ x.mode = .drained) → ∃ t, exec (.portRejoin req p) s = .next t ∧
      (t.dev.port p).inRoutes = !x.draining ∧ (t.dev.port p).recorded = some (x.partnerNode, x.partnerPort)) ∧
    (∀ c ∈ [Instr.portDrain p, .drainPort p], Ready c s → ∃ t, exec c s = .next t ∧ fbit (t.dev.word (offPort p)) 4 = true ∧
      t.dev.port p = { x with inRoutes := false, draining := true }) ∧
    (∀ c ∈ [Instr.portUndrain p, .undrainPort p], Ready c s → ∃ t, exec c s = .next t ∧ fbit (t.dev.word (offPort p)) 4 = false ∧
      (t.dev.port p).draining = false ∧ (x.draining = true → (x.mode = .active ∨ x.mode = .drained) →
        (t.dev.port p).mode = .active ∧ (t.dev.port p).inRoutes = x.joined)) ∧
    (Ready (.portDrained p) s → (x.drained = false → exec (.portDrained p) s = .next s) ∧
      (x.drained = true → ∃ t, exec (.portDrained p) s = .next t ∧ t.dev.port p = { x with mode := .drained } ∧
        (t.dev.event (evPort p)).flags.getLsbD 9 = true)) ∧
    (Ready (.sealPacketLimit p) s → (x.keysSpent = false → exec (.sealPacketLimit p) s = .next s) ∧
      (x.keysSpent = true → ∃ t, exec (.sealPacketLimit p) s = .next t ∧ (t.dev.port p).mode = .fault ∧ (t.dev.port p).isSealed = false))

/-- The life of a port (13). -/
def Obligations.PortStates : Prop := PortsComeUp ∧ PortsGoDown

/-- Flits: a bad one is answered at once with a NAK and leaves the sequence as it was, as does every one but the next in sequence;
a link control flit is its body; a good data flit counts once and, where it ends a packet, delivers it, decrypted on a sealed
port; link control returns credits and frees what it acknowledges; a replay sends every flit kept again, its sixteenth
retrains (13 R351-R353, R358, R376, R378; the sequence that a flit does not carry: log 17). -/
def FlitsAndReplay : Prop :=
  ∀ (s : State) (p : Nat), let x := s.dev.port p
    (∀ fl seq fec tag fixed, let c := Instr.flitReceived p ⟨fl, seq, fixed⟩ fec tag; let y := { x with fecCorr := x.fecCorr + BitVec.ofNat 64 fixed }
      Ready c s → x.carries = true → let fh := leAt fl 0 2; let crc := leAt fl 62 2 = (crc16 (sliceB fl 0 62)).toNat
      ((fec = false ∨ ¬crc) → ∃ t, exec c s = .next t ∧ (t.dev.port p).rxSeq = x.rxSeq ∧ (t.dev.port p).discarding = true ∧
        (t.dev.port p).fecUncorr = (if fec then x.fecUncorr else x.fecUncorr + 1) ∧ (t.dev.port p).crcErr = (if fec then x.crcErr + 1 else x.crcErr) ∧
        (t.dev.port p).rx = x.rx ∧ t.dev.out = .linkCtl p (({ x with nak := true } : PortState).linkBody 0 0 0) :: s.dev.out) ∧
      (fec = true → crc → bitsN fh 4 4 = 1 → exec c s = exec (.linkControlFlit p (sliceB fl 2 60)) { s with dev := s.dev.putPort p y }) ∧
      (fec = true → crc → bitsN fh 4 4 = 0 → seq ≠ x.rxSeq → exec c s = .next { s with dev := s.dev.putPort p y }) ∧
      (fec = true → crc → bitsN fh 4 4 = 0 → seq = x.rxSeq →
        let vc := bitsN fh 1 0; let got := (if bitsN fh 2 2 = 1 then [] else listGet [] x.partials vc) ++ sliceB fl 2 60
        let pk := (x.unseal (parsePacket vc (bitsN fh 5 5 == 1) got)).1; let own := pk.type = 0x20 ∨ pk.type = 0x21 ∨ pk.type = 0x23
        ∃ t, exec c s = .next t ∧ (t.dev.port p).rxSeq = x.rxSeq + 1 ∧ (t.dev.port p).discarding = false ∧
        (bitsN fh 3 3 = 0 → (t.dev.port p).rx = x.rx ∧ (t.dev.port p).partials = x.partials.set vc got) ∧
        (bitsN fh 3 3 = 1 → ¬own → (x.isSealed = false ∨ tag = true) →
          (t.dev.port p).rx = x.rx ++ [{ pk with sealed := pk.sealed && x.isSealed }]) ∧
        (bitsN fh 3 3 = 1 → own → (x.isSealed = false ∨ tag = true) → (t.dev.port p).rx = x.rx) ∧
        (bitsN fh 3 3 = 1 → x.isSealed = true → tag = false → (t.dev.port p).rx = x.rx ∧
          (t.dev.port p).sealFail = x.sealFail + 1 ∧ (t.dev.event (evPort p)).flags.getLsbD 6 = true))) ∧
    (∀ body, Ready (.linkControlFlit p body) s → x.carries = true → bitsN (leAt body 2 1) 1 1 = 0 → leAt body 20 1 % 16 = 0 → x.waiting = 0 →
      let y := if bitsN (leAt body 2 1) 0 0 = 1 then x.ackTo (BitVec.ofNat 16 (leAt body 0 2)) else x
      ∃ t, exec (.linkControlFlit p body) s = .next t ∧ t.dev.port p = { y with
        credits := (y.credits.zip ((List.range 8).map (fun i => leAt body (4 + 2 * i) 2))).map (fun c => c.1 + c.2) }) ∧
    (Ready (.linkControlSend p) s → (x.carries = false → exec (.linkControlSend p) s = .next s) ∧
      (x.carries = true → x.waiting = 0 → ∃ t, exec (.linkControlSend p) s = .next t ∧
        t.dev.port p = { x.frameFlit (mkFlit 0 false false true false (x.linkBody 0 0 0)) with
          owed := [0, 0, 0, 0, 0, 0, 0, 0], nak := false, sinceLink := 0 } ∧
        t.dev.out = .linkCtl p (x.linkBody 0 0 0) :: s.dev.out)) ∧
    (Ready (.replayTimeout p) s → x.beats = true →
      (x.replay = [] → exec (.replayTimeout p) s = .next s) ∧
      (x.replay ≠ [] → x.replays + 1 < 16 → ∃ t, exec (.replayTimeout p) s = .next t ∧ (t.dev.port p).replays = x.replays + 1 ∧
        (t.dev.port p).replayCnt = x.replayCnt + 1 ∧ (t.dev.port p).replay = x.replay ∧ (t.dev.port p).txSeq = x.txSeq ∧
        (x.sinceLink + x.replay.length < 256 → t.dev.out = (x.replay.map (Out.flit p)).reverse ++ s.dev.out)) ∧
      (x.replay ≠ [] → 16 ≤ x.replays + 1 → ∃ t, exec (.replayTimeout p) s = .next t ∧ (t.dev.port p).mode = .retrain))

/-- A packet of VC0 that a port with nothing waiting has the credits for leaves whole, flit by flit: each takes a credit of its class
and the next sequence and stays in the replay buffer (13 R351, R352, R354, R358). -/
def FlitsLeave : Prop :=
  ∀ (d : Dev) (p : Nat) (pk : Packet), let x := d.port p; let ci := d.creditIdx 0 pk.cls
    let fs := bodyFlits 0 pk.cls (x.packetBytes (d.dress p pk)); let y := (d.sendOn p pk).port p
    pk.vc = 0 → (pk.type = tyBeat → 8 ≤ pk.data.length) → x.txq = [] → x.txf = [[], [], [], []] → x.credits.length = 8 → x.carries = true →
    d.txWorks p = true → (x.isSealed = true → x.txKey.count < sealLimit) → x.replay.length + fs.length ≤ 8192 →
    fs.length ≤ listGet 0 x.credits ci → x.sinceLink + fs.length < 256 →
    y.txq = [] ∧ y.txf = [[], [], [], []] ∧ y.replay = x.replay ++ fs ∧ y.txSeq = x.txSeq + BitVec.ofNat 16 fs.length ∧
    y.credits = x.credits.set ci (listGet 0 x.credits ci - fs.length)

/-- Framing: flits fill messages of 514 symbols back to back; a full message leaves as a codeword of 544 whose symbols the lanes
take in turn, lane 0 first; before every 16,384th slot each lane has carried its marker (13 R350; the parity's code: log 17). -/
def FlitsAreFramed : Prop :=
  (∀ (msg : List Symbol) (n i j : Nat), msg.length = 514 → (n = 4 ∨ n = 8) → i < n → j < 544 / n →
    (rsCodeword msg).length = 544 ∧ (rsCodeword msg).take 514 = msg ∧ (laneShare n i (rsCodeword msg)).length = 544 / n ∧
    listGet 0 (laneShare n i (rsCodeword msg)) j = listGet 0 (rsCodeword msg) (n * j + i)) ∧
  (∀ (x : PortState) (fl : List Byte), x.txLen < 5140 → let y := x.frameFlit fl; let bits := x.txBits + leNat fl * 2 ^ x.txLen
    let marks := if x.txSlot < 16383 then x.wire else .marker x.dataLanes :: x.wire
    y.txSlot = (if x.txSlot < 16383 then x.txSlot + 1 else 1) ∧
    (x.txLen + 512 < 5140 → y.wire = marks ∧ y.txBits = bits ∧ y.txLen = x.txLen + 512) ∧
    (5140 ≤ x.txLen + 512 → y.wire = .codeword (x.spread (rsCodeword (rsMessage bits))) :: marks ∧
      y.txBits = bits / 2 ^ rsMessageBits ∧ y.txLen = x.txLen + 512 - 5140))

/-- Lanes: one that errs above the threshold or loses lock is marked; a receive lane is swapped for the spare by request, acknowledgement from
SWAPSEQ on and completion, and where the spare is in use a retrain as a width change is asked for (13 R372). -/
def LaneSwaps : Prop :=
  ∀ (s : State) (p : Nat), let x := s.dev.port p
    x.beats = true →
    (∀ counts, Ready (.laneErrorCheck p counts) s → ∃ t, exec (.laneErrorCheck p counts) s = .next t ∧ ∀ i < 9,
      ((t.dev.port p).failed.getLsbD i = true ↔ x.failed.getLsbD i = true ∨ max 1 (fld (s.dev.word (offPort p + 0x28)) 15 0) < listGet 0 counts i)) ∧
    (∀ i, Ready (.laneLockLoss p i) s → ∃ t, exec (.laneLockLoss p i) s = .next t ∧ (t.dev.port p).failed.getLsbD i = true ∧
      (x.rxSpare = none → x.swapping = none → (t.dev.port p).swapping = some i) ∧
      (x.rxSpare ≠ none → (t.dev.port p).asked = true ∧ (t.dev.port p).narrow = true)) ∧
    (∀ req v, Ready (.laneSwapCmd req p v) s → fbit v 4 = true → ∃ t, exec (.laneSwapCmd req p v) s = .next t ∧
      (x.rxSpare = none → x.swapping = none → (t.dev.port p).swapping = some (fld v 3 0) ∧ t.dev.out = .linkCtl p (x.linkBody 1 (fld v 3 0) 0) :: s.dev.out) ∧
      (x.rxSpare ≠ none → (t.dev.port p).asked = true ∧ (t.dev.port p).narrow = true)) ∧
    (∀ i, Ready (.swapReq p i) s → ∃ t, exec (.swapReq p i) s = .next t ∧
      (x.txSpare = none → (t.dev.port p).txSpare = some i ∧ t.dev.out = .linkCtl p (x.linkBody 2 i ((x.txSeq + 4096).setWidth 32)) :: s.dev.out) ∧
      (x.txSpare ≠ none → (t.dev.port p).asked = true ∧ (t.dev.port p).narrow = true)) ∧
    (∀ q i, Ready (.swapAck p q) s → x.swapping = some i → ∃ t, exec (.swapAck p q) s = .next t ∧
      (0 ≤ (x.rxSeq - q.setWidth 16).toInt → (t.dev.port p).rxSpare = some i ∧ (t.dev.port p).swapping = none ∧
        (t.dev.event (evPort p)).flags.getLsbD 3 = true) ∧
      ((x.rxSeq - q.setWidth 16).toInt < 0 → t.dev.port p = { x with swapSeq := some q })) ∧
    (∀ q, Ready (.swapAck p q) s → x.swapping = none → exec (.swapAck p q) s = .next s) ∧
    (Ready (.swapDone p) s → (x.txSpare = none → exec (.swapDone p) s = .next s) ∧
      (x.txSpare ≠ none → ∃ t, exec (.swapDone p) s = .next t ∧ (t.dev.event (evPort p)).flags.getLsbD 3 = true ∧ t.dev.port p = { x with txSwapped := true }))

/-- Flits, replay, framing and lanes (13). -/
def Obligations.FlitsAndLanes : Prop := FlitsAndReplay ∧ FlitsLeave ∧ FlitsAreFramed ∧ LaneSwaps
/-! ## Packets and control (13) -/

/-- A packet for this part, as its port hands it over. -/
def Arrives (s : State) (p : Nat) (pk : Packet) (c : Instr) : Prop := Reaches c s ∧ s.dev.isHere p pk = true

/-- Requests that arrive are served here and answered once: a WRITE with its pieces, a READ with its data, an ATOMIC with the old value, each of
them with its status; a write and an atomic land; an OPEN and a CLOSE change the ledger; a packet for another node is not
served (11 R297, R298; 13 R355, R360). -/
def RequestsServed : Prop :=
  ∀ (s : State) (p : Nat) (pk : Packet), let d := s.dev.takeRx p pk; let who := d.peerWho p pk
    (∀ c ∈ [Instr.write p pk, .read p pk, .atomic p pk, .signal p pk, .openReq p pk, .close p pk, .readResp p pk, .ack p pk, .atomicResp p pk,
      .control p pk, .controlOther p pk], Reaches c s → s.dev.isHere p pk = false → exec c s = .next s) ∧
    (Arrives s p pk (.write p pk) → let r := d.memAccess who pk.addr (.write pk.data); let n := piecesOf pk.addr pk.data.length
      r.2.2.sync.hold = [] → exec (.write p pk) s =
        .next { s with dev := (r.2.2.land pk.src pk.endpoint n).respond pk (wireStatus r.1) (leBytes 4 n) }) ∧
    (Arrives s p pk (.read p pk) → let r := d.memAccess who pk.addr (.read pk.len)
      exec (.read p pk) s = .next { s with dev := r.2.2.respond pk (wireStatus r.1) r.2.1 }) ∧
    (∀ op, Arrives s p pk (.atomic p pk) → atomOfCode pk.op = some op →
      let r := d.memAccess who pk.addr (.atomic op (BitVec.ofNat 64 (leAt pk.data 0 8)) (BitVec.ofNat 64 (leAt pk.data 8 8)))
      r.2.2.sync.hold = [] → exec (.atomic p pk) s = .next { s with dev := (r.2.2.land pk.src pk.endpoint 1).respond pk (wireStatus r.1) r.2.1 }) ∧
    (Arrives s p pk (.atomic p pk) → atomOfCode pk.op = none → s.dev.sync.hold = [] → exec (.atomic p pk) s =
      .next { s with dev := (d.land pk.src pk.endpoint 1).respond pk (wireStatus stRefused) [] }) ∧
    (Arrives s p pk (.signal p pk) → pk.src ≠ s.dev.node →
      (mapFind s.dev.sync.ledger (ledKey pk.src pk.endpoint) = none → exec (.signal p pk) s =
        .next { s with dev := d.respond pk (wireStatus stRefused) [] }) ∧
      (∀ l, mapFind s.dev.sync.ledger (ledKey pk.src pk.endpoint) = some l → (l - pk.seq).toInt < 0 → s.dev.sync.held < 256 →
        ∃ t, exec (.signal p pk) s = .next t ∧ t.dev.sync.hold.length = s.dev.sync.hold.length + 1 ∧ t.dev.mem = s.dev.mem)) ∧
    (Arrives s p pk (.openReq p pk) → s.dev.sync.ledger.length < 4096 → ∃ t, exec (.openReq p pk) s = .next t ∧
      mapFind t.dev.sync.ledger (ledKey pk.src pk.endpoint) = some 0) ∧
    (Arrives s p pk (.close p pk) → ∃ t, exec (.close p pk) s = .next t ∧ t.dev.sync.ledger = mapDel s.dev.sync.ledger (ledKey pk.src pk.endpoint))

/-- An answer ends the one request it answers, and with status 5 has it sent again; one that answers none is discarded; a request without an
answer in time ends too (11 R299; 13 R355, R356). A packet of a reserved type is counted, one that has run out of hops or finds no route
too, one that came sealed goes on sealed or not at all, and another goes on with one hop fewer (13 R360, R361, R377, Table 5). -/
def AnswersAndForwarding : Prop :=
  ∀ (s : State) (p : Nat) (pk : Packet), let x := s.dev.port p; let d := s.dev.takeRx p pk
    (∀ c ∈ [Instr.readResp p pk, .ack p pk, .atomicResp p pk], Arrives s p pk c →
      (s.dev.findReq pk.rtag = none → exec c s = .next { s with dev := d }) ∧
      (∀ r, s.dev.findReq pk.rtag = some r → (r.pk.dst ≠ pk.src ∨ respType r.pk.type ≠ pk.type) → exec c s = .next { s with dev := d }) ∧
      (∀ r, s.dev.findReq pk.rtag = some r → r.pk.dst = pk.src → respType r.pk.type = pk.type → pk.op ≠ 5 → r.use = .other → s.dev.sync.stalled = [] → s.dev.sync.work = [] →
        ∃ t, exec c s = .next t ∧ t.dev.lnk.requests = s.dev.lnk.requests.filter (fun q => q.rtag != r.rtag)) ∧
      (∀ r, s.dev.findReq pk.rtag = some r → r.pk.dst = pk.src → respType r.pk.type = pk.type → pk.op = 5 → r.use = .other → s.dev.sync.work = [] →
        ∃ t, exec c s = .next t ∧ t.dev.sync.retries = s.dev.sync.retries ++ [r.rtag] ∧ t.dev.lnk.requests = s.dev.lnk.requests)) ∧
    (∀ tag r, Reaches (.responseTimeout tag) s → s.dev.findReq tag = some r → r.use = .other → s.dev.sync.stalled = [] → s.dev.sync.work = [] →
      ∃ t, exec (.responseTimeout tag) s = .next t ∧ t.dev.lnk.requests = s.dev.lnk.requests.filter (fun q => q.rtag != r.rtag)) ∧
    (∀ tag, Reaches (.responseTimeout tag) s → s.dev.findReq tag = none → exec (.responseTimeout tag) s = .next s) ∧
    (Reaches (.packetReservedType p pk) s → x.beats = true → ∃ t, exec (.packetReservedType p pk) s = .next t ∧
      (t.dev.port p).badType = x.badType + 1 ∧ t.dev.mem = s.dev.mem) ∧
    (Ready (.packetForward p pk) s → x.beats = true → pk.dst ≠ s.dev.node → let on := { pk with sealed := pk.sealed && x.isSealed, hops := pk.hops - 1 }
      (pk.hops = 0 → ∃ t, exec (.packetForward p pk) s = .next t ∧ (t.dev.port p).noRoute = x.noRoute + 1) ∧
      (pk.hops ≠ 0 → d.route (some p) on = none → ∃ t, exec (.packetForward p pk) s = .next t ∧ (t.dev.port p).noRoute = x.noRoute + 1) ∧
      (∀ q cls, pk.hops ≠ 0 → d.route (some p) on = some (q, cls) → (on.sealed = false ∨ (d.port q).isSealed = true) →
        exec (.packetForward p pk) s = .next { s with dev := d.sendOn q { on with cls := cls } }) ∧
      (∀ q cls, pk.hops ≠ 0 → d.route (some p) on = some (q, cls) → on.sealed = true → (d.port q).isSealed = false →
        exec (.packetForward p pk) s = .next { s with dev := d.bounce p { pk with sealed := pk.sealed && x.isSealed } stSeal }))

/-- Packets at this part (11, 13). -/
def Obligations.Packets : Prop := RequestsServed ∧ AnswersAndForwarding

/-- Control packets: one that the arrival port, its sender's node and its argument admit has the effect of its operation, another is rejected with
an event; a quiesce halts both halves of a tile; LNK_CTRL_OP sends one (03 R74; 13 R374, R375, Table 12). -/
def ControlPackets : Prop :=
  ∀ (s : State) (p : Nat) (pk : Packet), let d := s.dev.takeRx p pk; let a := ctrlArg pk
    (Arrives s p pk (.control p pk) →
      (d.ctrlAccepts p pk = false → ∃ t, exec (.control p pk) s = .next t ∧ (t.dev.event (evPort p)).flags.getLsbD 7 = true ∧ t.dev.fe = s.dev.fe ∧
        t.dev.tiles = s.dev.tiles ∧ t.dev.lnk = d.lnk) ∧
      (d.ctrlAccepts p pk = true → let u := { s with dev := d }
        (pk.op = 1 → exec (.control p pk) s = exec (.ctrlStopSq (a % 2048)) u) ∧ (pk.op = 2 → exec (.control p pk) s = exec (.ctrlPauseSq (a % 2048)) u) ∧
        (pk.op = 3 → exec (.control p pk) s = exec (.drainPort (a % 32)) u) ∧ (pk.op = 4 → exec (.control p pk) s = exec (.undrainPort (a % 32)) u) ∧
        (pk.op = 5 → exec (.control p pk) s = exec (.quiesceTile (a % 128)) u) ∧ (pk.op = 6 → exec (.control p pk) s = exec (.breakVane (a % 256)) u))) ∧
    (Arrives s p pk (.controlOther p pk) → ∃ t, exec (.controlOther p pk) s = .next t ∧ (t.dev.event (evPort p)).flags.getLsbD 7 = true ∧
      t.dev.fe = s.dev.fe ∧ t.dev.tiles = s.dev.tiles) ∧
    (∀ k, Ready (.quiesceTile k) s → ∃ t, exec (.quiesceTile k) s = .next t ∧ (t.dev.half k 0) = (s.dev.half k 0).askHalt ∧
      (t.dev.half k 1) = (s.dev.half k 1).askHalt ∧ ∀ j h, j ≠ k → t.dev.half j h = s.dev.half j h) ∧
    (∀ req v, Ready (.controlPacketSend req v) s → exec (.controlPacketSend req v) s = .next { s with dev := ((s.dev.dropShadow req).sendPacket none
      { vc := 0, cls := false, dst := fld (s.dev.word 0x3200040) 19 0, type := 0x22, src := s.dev.node, endpoint := 0, addr := 0, len := 8, seq := 0, rtag := 0,
        op := fld v 3 0, hops := 31, sealed := false, kphase := false, data := leBytes 8 (s.dev.word64 0x3200044).toNat }).2 })

/-- The seal exchange: a partner's message that fails its checks faults the port; one that passes them in EXCHANGE installs the derived keys, and the
port is sealed; a rekey is begun once, by firmware (13 R376; 16 R423; the message's layout: log 25). -/
def SealExchange : Prop :=
  ∀ (s : State) (p : Nat), let x := s.dev.port p
    (∀ pk ok, Ready (.sealMsg p pk ok) s → let d := s.dev.takeRx p pk
      let opening := x.mode = .exchange ∧ x.partnerRec ≠ [] ∧ s.dev.sealWanted p = true ∧ x.isSealed = false
      (¬opening → x.isSealed = false → exec (.sealMsg p pk ok) s = .next { s with dev := d }) ∧
      (opening → d.sealPasses pk.data ok = false → ∃ t, exec (.sealMsg p pk ok) s = .next t ∧ (t.dev.port p).mode = .fault ∧ (t.dev.port p).reason = 4 ∧
        (t.dev.port p).isSealed = false) ∧
      (opening → d.sealPasses pk.data ok = true → ∃ t, exec (.sealMsg p pk ok) s = .next t ∧ (t.dev.port p).isSealed = true ∧
        (t.dev.port p).mode = .exchange ∧ (t.dev.port p).txKeys = x.txKeys.set (b2n x.txPhase) (d.sealKeys p pk.data).1 ∧
        (t.dev.port p).rxKeys = x.rxKeys.set (b2n x.txPhase) (d.sealKeys p pk.data).2) ∧
      (x.isSealed = true → x.beats = true → d.sealPasses pk.data ok = true → ∃ t, exec (.sealMsg p pk ok) s = .next t ∧
        (t.dev.port p).isSealed = true ∧ (t.dev.port p).txPhase = !x.txPhase ∧ p ∉ t.dev.sec.rekeying)) ∧
    (Ready (.linkRekey p) s → let may := x.isSealed = true ∧ x.beats = true ∧ s.dev.boot.firmware = true ∧ p ∉ s.dev.sec.rekeying
      (may → ∃ t, exec (.linkRekey p) s = .next t ∧ t.dev.sec.rekeying = p :: s.dev.sec.rekeying ∧ (t.dev.port p).sealSecret = s.dev.free ∧
        s.dev.free < t.dev.free) ∧
      (¬may → exec (.linkRekey p) s = .next s))

/-- Control packets and seals (13, 16). -/
def Obligations.ControlAndSeals : Prop := ControlPackets ∧ SealExchange
/-! ## PCI Express (14) -/

/-- No posted write of the host is in flight or held. -/
def HostQuiet (s : State) : Prop := s.dev.sync.hostOut = [] ∧ s.dev.sync.hostHold = []

/-- The host's accesses, where no posted write is in flight: a BAR0 access that is not one aligned DW is unsupported and counted; an aligned one
writes or reads the register it names, through the physical function every one, through a virtual function those of its map alone; BAR4
accesses reach local memory for the function's owner and are answered by how the access went; an AtomicOp is unsupported; a function
whose BARs are closed takes none (14 R381, R383-R388). A read takes effect at once whatever is in flight. -/
def HostAccesses : Prop :=
  ∀ (s : State) (rx fl : Bool), let atOnce := HostQuiet s ∧ fl = false
    (∀ f off n (w : Option (List Byte)), s.dev.barOpen f = false → (w = none ∨ atOnce) → Reaches (.bar0Access f off n (w.map (fun bs => ⟨bs, rx, fl⟩))) s → exec (.bar0Access f off n (w.map (fun bs => ⟨bs, rx, fl⟩))) s = .next s) ∧
    (∀ f off n (w : Option (List Byte)), s.dev.barOpen f = true → (w = none ∨ atOnce) → (n ≠ 4 ∨ off % 4 ≠ 0) → Reaches (.bar0Access f off n (w.map (fun bs => ⟨bs, rx, fl⟩))) s →
      ∃ t, exec (.bar0Access f off n (w.map (fun bs => ⟨bs, rx, fl⟩))) s = .next t ∧
      t.dev.pci.urCnt = s.dev.pci.urCnt + 1 ∧ (t.dev.event evPci).flags.getLsbD 3 = true ∧ t.dev.regs.words = s.dev.regs.words ∧
      (w = none → t.dev.out.head? = some (.unsupported f))) ∧
    (∀ off bs, s.dev.barOpen 0 = true → atOnce → off % 4 = 0 → Reaches (.bar0Access 0 off 4 (some ⟨bs, rx, fl⟩)) s →
      exec (.bar0Access 0 off 4 (some ⟨bs, rx, fl⟩)) s = exec (.registerWrite (.func 0) off (BitVec.ofNat 32 (leNat bs))) s) ∧
    (∀ off, s.dev.barOpen 0 = true → off % 4 = 0 → Reaches (.bar0Access 0 off 4 none) s → let r := s.dev.regFetch s.life (.func 0) off
      exec (.bar0Access 0 off 4 none) s = .next { s with dev := r.2.emit (.hostData 0 (leBytes 4 r.1.toNat)) }) ∧
    (∀ c off bs, s.dev.barOpen (c + 1) = true → off % 4 = 0 → s.dev.vfReg c off = .absent →
      (Reaches (.bar0Access (c + 1) off 4 (some ⟨bs, rx, fl⟩)) s → atOnce →
        exec (.bar0Access (c + 1) off 4 (some ⟨bs, rx, fl⟩)) s = .next { s with dev := s.dev.dropShadow (.func (c + 1)) }) ∧
      (Reaches (.bar0Access (c + 1) off 4 none) s → exec (.bar0Access (c + 1) off 4 none) s =
        .next { s with dev := (s.dev.dropShadow (.func (c + 1))).emit (.hostData (c + 1) (leBytes 4 0)) })) ∧
    (∀ off op ide, Reaches (.bar4Access off op ⟨ide, rx, fl⟩) s → s.dev.barOpen 0 = true → off < 2 ^ s.dev.pci.bar4Log2 →
      let r := s.dev.memAccess { kind := .host, node := s.dev.node, endpoint := 197, owner := 0xFF } (s.dev.bar4Addr off) op
      let c := Instr.bar4Access off op ⟨ide, rx, fl⟩; let goes := (∃ n, op = .read n) ∨ (atOnce ∧ opPlain op = true)
      (opPlain op = false → ∃ t, exec c s = .next t ∧ t.dev.pci.urCnt = s.dev.pci.urCnt + 1 ∧ t.dev.mem = s.dev.mem) ∧
      (goes → r.1 = stOk → exec c s = .next { s with dev := if opReads op then r.2.2.emit (.hostData 0 r.2.1) else r.2.2 }) ∧
      (goes → r.1 = stMemError → ∃ t, exec c s = .next t ∧ t.dev.pci.caCnt = r.2.2.pci.caCnt + 1 ∧
        (opReads op = true → t.dev.out.head? = some (.completerAbort 0))) ∧
      (goes → r.1 ≠ stOk → r.1 ≠ stMemError → ∃ t, exec c s = .next t ∧ t.dev.pci.urCnt = r.2.2.pci.urCnt + 1 ∧
        (opReads op = true → t.dev.out.head? = some (.unsupported 0)))) ∧
    (∀ x off op ide, Reaches (.vfBar4Access x off op ⟨ide, rx, fl⟩) s → s.dev.barOpen (x + 1) = true → off < 2 ^ s.dev.pci.vfBar4Log2 →
      let run := ide && decide (s.dev.tdiOf x = .run) && !(s.dev.func (x + 1)).ideKey.isEmpty
      let r := s.dev.memAccess { kind := .host, node := s.dev.node, endpoint := 197, owner := x, ideRun := run } (s.dev.vfAddr x off) op
      let c := Instr.vfBar4Access x off op ⟨ide, rx, fl⟩; let goes := (∃ n, op = .read n) ∨ (atOnce ∧ opPlain op = true)
      ((opPlain op = false ∨ (goes ∧ hbmKeys (s.dev.vfAddr x off) (opLen op) = none)) → ∃ t, exec c s = .next t ∧
        t.dev.pci.urCnt = s.dev.pci.urCnt + 1 ∧ t.dev.mem = s.dev.mem) ∧
      (goes → hbmKeys (s.dev.vfAddr x off) (opLen op) ≠ none → r.1 = stOk → exec c s =
        .next { s with dev := if opReads op then r.2.2.emit (.hostData (x + 1) r.2.1) else r.2.2 }))

/-- The commands by which the host writes: the posted write each makes. -/
def HostWrites (s : State) (rx fl : Bool) (w : HostWrite) (c : Instr) : Prop :=
  (∃ off bs, c = .bar0Access w.func off bs.length (some ⟨bs, rx, fl⟩) ∧ w.op = .reg off bs) ∨
  (∃ off bs ide, c = .bar4Access off (.write bs) ⟨ide, rx, fl⟩ ∧ s.dev.barOpen 0 = true ∧ off < 2 ^ s.dev.pci.bar4Log2 ∧
    w = { func := 0, op := .mem { kind := .host, node := s.dev.node, endpoint := 197, owner := 0xFF } (s.dev.bar4Addr off) bs })

/-- Posted writes: one with Relaxed Ordering clear, or to sync memory, waits in the hold buffer for the earlier writes of its function, and is refused
for retry where the 256 entries are full; another is in flight and overtakes; a landing performs the oldest in flight, and then what they
held (11 R301; that the sender says which writes are in flight: log 27). -/
def PostedWrites : Prop :=
  ∀ (s : State) (rx fl : Bool) (w : HostWrite) (c : Instr), let y := s.dev.sync
    let behind := (rx = false ∨ w.op.toWatch = true) ∧ ∃ x ∈ y.hostOut ++ y.hostHold, x.func = w.func
    (HostWrites s rx fl w c → Reaches c s →
      (behind → y.held < 256 → ∃ t, exec c s = .next t ∧ t.dev.sync = { y with hostHold := y.hostHold ++ [w], peak := max y.peak (y.held + 1) } ∧
        t.dev.mem = s.dev.mem ∧ t.dev.regs = s.dev.regs) ∧
      (behind → 256 ≤ y.held → ∃ t, exec c s = .next t ∧ t.dev.sync = y ∧ t.dev.mem = s.dev.mem ∧ t.dev.regs.words = s.dev.regs.words ∧
        (t.dev.event evSyn).flags.getLsbD 0 = true ∧
        t.dev.out.head? = some (.access { kind := .host, node := s.dev.node, endpoint := 197, owner := 0xFF } stRetry [])) ∧
      (¬behind → fl = true → ∃ t, exec c s = .next t ∧ t.dev.sync = { y with hostOut := y.hostOut ++ [w] } ∧
        t.dev.mem = s.dev.mem ∧ t.dev.regs = s.dev.regs)) ∧
    (∀ n, Reaches (.writeLanded s.dev.node 197 n) s →
      (HostQuiet s → exec (.writeLanded s.dev.node 197 n) s = .next s) ∧
      (0 < n → y.hostOut = [w] → let e := Dev.hostLand s.life w (s.dev.modSync (fun y => { y with hostOut := [] }))
        (e.sync.hostHold = [] → exec (.writeLanded s.dev.node 197 n) s = .next { s with dev := e }) ∧
        (∀ v, e.sync.hostHold = [v] → e.sync.hostOut = [] → exec (.writeLanded s.dev.node 197 n) s =
          .next { s with dev := Dev.hostLand s.life v (e.modSync (fun y => { y with hostHold := [] })) })))

/-- The link comes up where PERST_N is high, at no more than the rate allowed; L0p changes its width in FLIT mode, up to the width trained; it goes
down with an event, and with a malformed TLP; nothing of the part's work is touched (14 R382, R391, R396). A configuration request sets or
reads what it asks once the defaults are set, and does not take a size or time out of range; an unmasked entry sends what it holds back; an invalidation is completed (14 R381, R386, R390, R393; 20 R505; that PCIELOCK rises
with the link: log 22). Failed reads are counted (14 R396). -/
def LinkAndConfiguration : Prop :=
  ∀ (s : State),
    (∀ rate width flit, Ready (.pcieLinkTrain rate width ⟨flit, false⟩) s →
      (s.dev.boot.perstLow = true → exec (.pcieLinkTrain rate width ⟨flit, false⟩) s = .next s) ∧
      (s.dev.boot.perstLow = false → exec (.pcieLinkTrain rate width ⟨flit, false⟩) s = .next { s with dev := { s.dev with
        pci := { s.dev.pci with
          dlUp := true, rate := min rate s.dev.maxRate, width := width, full := width, flit := flit || decide (5 < min rate s.dev.maxRate) }
        pwr := { s.dev.pwr with locks := s.dev.pwr.locks ||| 0x40000#20 } } })) ∧
    (∀ rate width flit, Ready (.pcieLinkTrain rate width ⟨flit, true⟩) s →
      let may := s.dev.pci.dlUp = true ∧ s.dev.pci.flit = true ∧ width ≤ s.dev.pci.full
      (may → exec (.pcieLinkTrain rate width ⟨flit, true⟩) s = .next { s with dev := { s.dev with pci := { s.dev.pci with width := width } } }) ∧
      (¬may → exec (.pcieLinkTrain rate width ⟨flit, true⟩) s = .next s)) ∧
    (∀ c ∈ [Instr.dlDown, .malformedTlp], Ready c s → ∃ t, exec c s = .next t ∧ t.dev.pci.dlUp = false ∧ t.dev.fe = s.dev.fe ∧
      t.dev.tiles = s.dev.tiles ∧ t.dev.mem = s.dev.mem ∧ (s.dev.pci.dlUp = true → (t.dev.event evPci).flags.getLsbD 0 = true) ∧
      (c = .malformedTlp → t.dev.pci.aer.getLsbD 5 = true)) ∧
    (∀ f pg, Ready (.atsInvalidate f pg) s → ∃ t, exec (.atsInvalidate f pg) s = .next t ∧ t.dev.out = .atsDone f :: s.dev.out ∧
      (∀ w, (f, pg, w) ∉ t.dev.pci.atc) ∧ (∀ e ∈ s.dev.pci.atc, (e.1 ≠ f ∨ e.2.1 ≠ pg) → e ∈ t.dev.pci.atc)) ∧
    (∀ f i, Ready (.msixUnmask f i) s → (s.dev.barOpen f = false → exec (.msixUnmask f i) s = .next s) ∧
      (s.dev.barOpen f = true → let e := mapGet {} s.dev.pci.msix (2048 * f + i); ∃ t, exec (.msixUnmask f i) s = .next t ∧
        (mapGet {} t.dev.pci.msix (2048 * f + i)).masked = false ∧
        (e.pending = true → (s.dev.func f).msixOn = true → (s.dev.func f).msixMask = false → s.dev.hostUp f = true →
          t.dev.out = .msi f e.addr e.data :: s.dev.out ∧ (mapGet {} t.dev.pci.msix (2048 * f + i)).pending = false))) ∧
    (∀ what, Ready (.configurationRequest what) s →
      (s.dev.pci.dlUp = false → exec (.configurationRequest what) s = .next s) ∧
      (s.dev.pci.dlUp = true → s.dev.pci.cfgReady = false → exec (.configurationRequest what) s = .next { s with dev := s.dev.emit (.cfgAnswer true) }) ∧
      (s.dev.pci.dlUp = true → s.dev.pci.cfgReady = true → ∃ t, exec (.configurationRequest what) s = .next t ∧ t.dev.out.head? = some (.cfgAnswer false) ∧
        (∀ f on, what = .busMaster f on → (t.dev.func f).busMaster = on) ∧ (∀ f on, what = .memorySpace f on → (t.dev.func (min f 1)).memSpace = on) ∧
        (∀ f on, what = .functionMask f on → (t.dev.func f).msixMask = on) ∧ (∀ f on, what = .msixEnable f on → (t.dev.func f).msixOn = on) ∧
        (∀ f on, what = .atsEnable f on → (t.dev.func f).ats = on) ∧ (∀ on n, what = .vfEnable on n → t.dev.pci.vfEnable = on ∧ t.dev.pci.numVfs = min n 64) ∧
        (∀ n, what = .bar4Size n → t.dev.pci.bar4Log2 = if 30 ≤ n ∧ n ≤ 40 then n else s.dev.pci.bar4Log2) ∧
        (∀ n, what = .vfBar4Size n → (∀ c < 64, s.dev.tdiOf c ≠ .locked ∧ s.dev.tdiOf c ≠ .run) →
          t.dev.pci.vfBar4Log2 = if 30 ≤ n ∧ n ≤ 36 then n else s.dev.pci.vfBar4Log2) ∧
        (∀ f n, what = .maxPayload f n → (t.dev.func f).maxPayload = if n ≤ 2 then n else (s.dev.func f).maxPayload) ∧
        (∀ f n, what = .maxReadRequest f n → (t.dev.func f).maxRead = if n ≤ 5 then n else (s.dev.func f).maxRead) ∧
        (∀ f n, what = .completionTimeout f n → (t.dev.func f).cplMs = if 16 ≤ n ∧ n ≤ 55 then n else (s.dev.func f).cplMs) ∧
        (∀ f on, what = .powerState f on → (t.dev.func f).d3 = on) ∧
        (∀ f item, what = .read f item → t.dev = (s.dev.emit (.cfgData f (s.dev.cfgValues f item))).emit (.cfgAnswer false)))) ∧
    (∀ what, (what = .write ∨ (∃ c, what = .adminCommand c) ∨ ∃ g, what = .coreRead g) →
      (Reaches (.poisonedTlp what) s → ∃ t, exec (.poisonedTlp what) s = .next t ∧ t.dev.pci.poison = s.dev.pci.poison + 1 ∧
        t.dev.pci.aer.getLsbD 3 = true ∧ (t.dev.event evPci).flags.getLsbD 5 = true ∧ t.dev.fe = s.dev.fe) ∧
      (Reaches (.completionTimeout what) s → ∃ t, exec (.completionTimeout what) s = .next t ∧ t.dev.pci.cplTo = s.dev.pci.cplTo + 1 ∧
        t.dev.pci.aer.getLsbD 4 = true ∧ (t.dev.event evPci).flags.getLsbD 6 = true ∧ t.dev.fe = s.dev.fe)) ∧
    (∀ c x, s.dev.cq c = some x → x.loc = false → x.mode = .active → ∀ i ∈ [Instr.poisonedTlp (.cqRing c), .completionTimeout (.cqRing c)], Reaches i s →
      ∃ t y, exec i s = .next t ∧ t.dev.cq c = some y ∧ y.mode = .stalled) ∧
    (∀ q sq, s.dev.sq q = some sq → s.dev.mayFetch sq = true → sq.loc = false → sq.buf = [] → sq.running = 0 → s.dev.feFrozen = false →
      s.dev.cq sq.cq = none → GoodHeads s.dev → ∀ i ∈ [Instr.poisonedTlp (.descriptor q), .completionTimeout (.descriptor q)], Reaches i s →
      ∃ t y, exec i s = .next t ∧ t.dev.sq q = some y ∧ y.mode = .paused ∧ y.head = sq.head + 1)

/-- The host's accesses, its posted writes, and the link (11, 14). -/
def Obligations.HostAndLink : Prop := HostAccesses ∧ PostedWrites ∧ LinkAndConfiguration

/-- A function reset leaves nothing of its context: its admin queue pair is off, its queues are FREE or drain without an entry, its interface is
UNLOCKED, its configuration space is at its reset values; a hot reset and PERST_N do so for all (14 R392; 20 R497). -/
def Obligations.FunctionResets : Prop :=
  ∀ (s : State),
    (∀ c, Ready (.vfFlr c) s → (s.dev.vfOn c = false → exec (.vfFlr c) s = .next s) ∧
      (s.dev.vfOn c = true → ∃ t, exec (.vfFlr c) s = .next t ∧ t.dev.tdiOf c = .unlocked ∧ fbit (t.dev.admCfg c) 31 = false ∧
        t.dev.cq (256 + c) = none ∧ (∀ q sq, t.dev.sq q = some sq → sq.ctx = c → sq.mode = .draining ∨ sq.mode = .tombstone) ∧
        (t.dev.func (c + 1)).busMaster = false ∧ (t.dev.func (c + 1)).ideKey = (s.dev.func (c + 1)).ideKey ∧
        (t.dev.event evPci).flags.getLsbD 2 = true)) ∧
    (Ready .hotReset s → ∃ t, exec .hotReset s = .next t ∧ (∀ c < 64, t.dev.tdiOf c = .unlocked ∧ t.dev.cq (256 + c) = none) ∧
      t.dev.pci.vfEnable = false ∧ t.dev.pci.numVfs = 0 ∧ t.dev.pci.bar4Log2 = 30 ∧ t.dev.pci.dlUp = s.dev.pci.dlUp ∧
      (∀ f, (t.dev.func f).busMaster = false) ∧ (t.dev.event evPci).flags.getLsbD 1 = true) ∧
    (Ready (.perst true) s → ∃ t, exec (.perst true) s = .next t ∧ (∀ c < 64, t.dev.tdiOf c = .unlocked ∧ t.dev.cq (256 + c) = none) ∧
      t.dev.pci.dlUp = false ∧ t.dev.pci.cfgReady = false ∧ t.dev.pci.session = none ∧ t.dev.pci.vfEnable = false ∧ t.dev.boot.perstLow = true) ∧
    (exec (.perst false) s = .next { s with dev := { s.dev with boot := { s.dev.boot with perstLow := false } } })
/-! ## Security (16) -/

/-- An interface is locked, started and stopped over a session alone, and what may not be changed moves it to ERROR with every queue of its context
stopped; a session, its stream keys and its report come from firmware (14 R394; 16 R417, R418, R424). -/
def InterfacesAndSessions : Prop :=
  ∀ (s : State) (c : Nat), let x := s.dev.tdiOf c; let on := s.dev.pci.session.isSome
    (Ready (.lockInterface c) s → exec (.lockInterface c) s = .next (if on && s.dev.vfOn c && decide (x = .unlocked) then
      { s with dev := s.dev.setTdi c .locked } else s)) ∧
    (Ready (.startInterface c) s → exec (.startInterface c) s = .next (if on && decide (x = .locked) then { s with dev := s.dev.setTdi c .run } else s)) ∧
    (Ready (.stopInterface c) s → exec (.stopInterface c) s = .next (if on then { s with dev := s.dev.setTdi c .unlocked } else s)) ∧
    (Ready (.tdiError c) s → (x ≠ .locked → x ≠ .run → exec (.tdiError c) s = .next s) ∧
      ((x = .locked ∨ x = .run) → GoodHeads s.dev → ∃ t, exec (.tdiError c) s = .next t ∧ t.dev.tdiOf c = .error ∧
        (t.dev.event evPci).flags.getLsbD 7 = true ∧ ∀ q sq, t.dev.sq q = some sq → sq.ctx = c → sq.mode ≠ .enabled ∧ sq.mode ≠ .paused)) ∧
    (∀ n, Ready (.spdmKeyExchange n) s → exec (.spdmKeyExchange n) s = .next (if s.dev.boot.firmware then
      { s with dev := { s.dev with pci := { s.dev.pci with session := some n, reported := false } } } else s)) ∧
    (∀ f k, Ready (.ideKm f k) s → ∃ t, exec (.ideKm f k) s = .next t ∧ t.dev.func f =
      if s.dev.boot.firmware && on && !s.life.debugOpen then { s.dev.func f with ideKey := sliceB k 0 32 } else s.dev.func f) ∧
    (∀ n, Ready (.getMeasurements n) s → (s.dev.boot.firmware = false → exec (.getMeasurements n) s = .next s) ∧
      (s.dev.boot.firmware = true → ∃ t, exec (.getMeasurements n) s = .next t ∧ t.dev.pci.reported = (s.dev.pci.reported || on) ∧
        t.dev.sec = s.dev.sec ∧ t.dev.out.head? = some (.spdm .done ((s.dev.blocks s.life ++ n) ++
          sliceB (Config.ed448Sign s.dev.sec.aliasKey (s.dev.blocks s.life ++ n)) 0 114))))

/-- The commands of a release request. -/
def IsRelease (x : Expect) (e base rows owner access : Nat) (secret blob : List Byte) (c : Instr) : Prop :=
  c ∈ [.openRegion x e base rows owner access secret, .closeRegion x e, .bindIngestKey x e owner secret, .unbindIngestKey x e, .confine x e, .wrap x blob, .unwrap x blob]

/-- Release requests: without firmware nobody answers; outside a session whose requester holds a report, with the debug port open, or with slots that
are not as EXPECT says, each is denied and changes nothing; admitted, each has its effect (16 R418-R421, Table 5; 07 R194, R195, R197). -/
def ReleaseRequests : Prop :=
  ∀ (s : State) (x : Expect) (e base rows owner access : Nat) (secret blob : List Byte),
    (∀ c, IsRelease x e base rows owner access secret blob c → Ready c s → s.dev.boot.firmware = false → exec c s = .next s) ∧
    (∀ c, IsRelease x e base rows owner access secret blob c → Ready c s → s.dev.boot.firmware = true → s.dev.releaseOk s.life x = false →
      ∃ t, exec c s = .next t ∧ t.dev.out.head? = some (.spdm .denied []) ∧ (t.dev.event evSec).flags.getLsbD 2 = true ∧ t.dev.mem = s.dev.mem ∧
        t.dev.sec = s.dev.sec ∧ t.dev.tiles = s.dev.tiles) ∧
    (s.dev.alive = true → s.dev.boot.firmware = true → s.dev.releaseOk s.life x = true → e < 64 → let m := s.dev.sealEntry e
      (s.dev.regionFits base rows owner access = true → m.mode = .free → ∃ t, exec (.openRegion x e base rows owner access secret) s = .next t ∧
        (let n := t.dev.sealEntry e
         n.mode = .opened ∧ n.base = base ∧ n.rows = rows ∧ n.owner = owner ∧ n.access = BitVec.ofNat 4 access ∧ n.gen = m.gen ∧
         n.key = leNat (kdf (sliceB secret 0 32) "gv-xts" (leBytes 1 e ++ leBytes 2 m.gen.toNat) 64)) ∧
        (owner < 64 → t.dev.sec.confined.getLsbD owner = true) ∧ mapGet 0 t.dev.sec.regionExpect e = x.mask ∧ t.dev.out.head? = some (.spdm .done [])) ∧
      (s.dev.regionFits base rows owner access = true → m.mode ≠ .free → exec (.openRegion x e base rows owner access secret) s =
        .next { s with dev := s.dev.emit (.spdm .busy []) }) ∧
      (m.mode = .opened → ∃ t, exec (.closeRegion x e) s = .next t ∧ t.dev.sealEntry e = { m with mode := .closing, gen := m.gen + 1, key := 0, written := [] } ∧
        t.dev.out.head? = some (.spdm .done [])) ∧
      (m.mode ≠ .opened → exec (.closeRegion x e) s = .next { s with dev := s.dev.emit (.spdm .busy []) }) ∧
      (mapFind s.dev.sec.ingestKeys e = none → ∃ t, exec (.bindIngestKey x e owner secret) s = .next t ∧
        mapFind t.dev.sec.ingestKeys e = some (owner, sliceB secret 0 32) ∧ mapFind t.dev.sec.keyExpect e = some x.mask ∧
        (∀ k, k ≠ e → mapFind t.dev.sec.ingestKeys k = mapFind s.dev.sec.ingestKeys k)) ∧
      (∀ k, mapFind s.dev.sec.ingestKeys e = some k → (∃ t, exec (.unbindIngestKey x e) s = .next t ∧ mapFind t.dev.sec.ingestKeys e = none) ∧
        exec (.bindIngestKey x e owner secret) s = .next { s with dev := s.dev.emit (.spdm .busy []) }) ∧
      (∃ t, exec (.confine x e) s = .next t ∧ t.dev.confinedCtx e = true ∧ t.dev.out.head? = some (.spdm .done [])) ∧
      exec (.wrap x blob) s = .next { s with dev := s.dev.emit (.spdm .done (Config.wrapBlob s.dev.sec.sealRoot blob)) } ∧
      ((Config.unwrapBlob s.dev.sec.sealRoot blob).isSome = true → exec (.unwrap x blob) s = .next { s with dev := s.dev.emit (.spdm .done []) }))

/-- Interfaces, sessions and release requests (14, 16). -/
def Obligations.InterfacesAndReleases : Prop := InterfacesAndSessions ∧ ReleaseRequests

/-- An extension of a slot hashes the digest into it, after the regions released against it have closed; slots 5 to 7 remain 0; a region whose rows are
zeroed is FREE, and they hold zero; a tile that leaves confinement is cleared; version numbers are burnt once a step has been
committed; a debug opening closes and zeroes all that is secret, or is refused and counted (07 R197; 16 R414, R416, R419, R422, R425). -/
def Obligations.MeasurementsAndClearing : Prop :=
  ∀ (s : State),
    (∀ n dg, Ready (.measurementExtend n dg) s →
      ((16 ≤ n ∨ (5 ≤ n ∧ n ≤ 7)) → exec (.measurementExtend n dg) s = .next s) ∧
      (n < 16 → (n < 5 ∨ 7 < n) → ∃ t, exec (.measurementExtend n dg) s = .next t ∧ t.dev.meas n = measNext (s.dev.meas n) dg ∧
        (∀ k, k ≠ n → t.dev.meas k = s.dev.meas k) ∧ (t.dev.event evSec).flags.getLsbD 0 = true ∧
        (∀ e ∈ s.dev.regionsOn n, (t.dev.sealEntry e).mode = .closing ∧ (t.dev.sealEntry e).key = 0) ∧
        (∀ k ∈ s.dev.keysOn n, mapFind t.dev.sec.ingestKeys k = none))) ∧
    (∀ e, Ready (.regionZeroed e) s → let m := s.dev.sealEntry e; let inside (b : Nat) := m.base ≤ b / 262144 ∧ b / 262144 < m.base + m.rows
      (m.mode ≠ .closing → exec (.regionZeroed e) s = .next s) ∧
      (m.mode = .closing → ∃ t, exec (.regionZeroed e) s = .next t ∧ (t.dev.sealEntry e).mode = .free ∧ (∀ b ∈ t.dev.mem.hbm, ¬inside b.1) ∧
        (∀ b ∈ s.dev.mem.hbm, ¬inside b.1 → b ∈ t.dev.mem.hbm))) ∧
    (∀ k, Ready (.confinedTileClear k) s →
      (k ∉ s.dev.sec.clearing → exec (.confinedTileClear k) s = .next s) ∧
      (k ∈ s.dev.sec.clearing → ∃ t, exec (.confinedTileClear k) s = .next t ∧ t.dev.tile k = (s.dev.tile k).scrubbed ∧ k ∉ t.dev.sec.clearing ∧
        (∀ j, j ≠ k → t.dev.tile j = s.dev.tile j))) ∧
    (Ready .svnCommit s →
      ((s.dev.sec.stepSince = false ∨ s.dev.boot.firmware = false) → exec .svnCommit s = .next s) ∧
      (s.dev.sec.stepSince = true → s.dev.boot.firmware = true → ∃ t, exec .svnCommit s = .next t ∧
        (∀ n, s.dev.sec.pendFw = some n → n ≤ t.life.fwSvn) ∧ (∀ n, s.dev.sec.pendLoader = some n → n ≤ t.life.loaderSvn) ∧
        t.dev.sec.pendFw = none ∧ t.dev.sec.pendLoader = none)) ∧
    (∀ nonce token scope k, Ready (.debugOpening nonce token scope k) s →
      (s.dev.debugRefused s.life nonce token scope k = true → ∃ t, exec (.debugOpening nonce token scope k) s = .next t ∧ t.life = s.life ∧
        t.dev.sec = { s.dev.sec with refused := s.dev.sec.refused + 1 } ∧ t.dev.mem = s.dev.mem) ∧
      (s.dev.debugRefused s.life nonce token scope k = false → ∃ t, exec (.debugOpening nonce token scope k) s = .next t ∧ t.life.debugOpen = true ∧
        t.life.debugCount = s.life.debugCount + 1 ∧ (∀ e < 64, (t.dev.sealEntry e).mode ≠ .opened) ∧ t.dev.sec.aliasKey = [] ∧
        t.dev.sec.sealRoot = [] ∧ t.dev.sec.cdi = [] ∧ t.dev.sec.ingestKeys = [] ∧ t.dev.sec.confined = 0 ∧
        (∀ p < 32, (t.dev.port p).isSealed = false) ∧ (∀ f, (t.dev.func f).ideKey = [])))
/-! ## Firmware services, general cores, ingest (15) -/

/-- A request of a context is answered with a status and results, on this state of the part. -/
def Serves (s : State) (c : Instr) (ctx : Nat) (seq : W32) (status : Nat) (results : List W64) (d : Dev) : Prop :=
  exec c s = .next { s with dev := d.svcAnswer ctx seq status results }

/-- The services of the step: a vector is attached where the context may name it; a group is taken between attempts; a run starts once, with no
scale history; a fallback and the scale policy are noted; the report tells the last outcome and the record's step, and changes nothing
where no member is missing; a checkpoint of the committed step, between attempts, copies its ranges to its destination and is the one
recovery restores from. Without firmware no request is answered (15 R403, Tables 2, 3; 09 R246; 10 R284, R291; 19 R492; which ranges
a checkpoint holds, and where the report's bitmap is: log 21). -/
def StepServices : Prop :=
  ∀ (s : State) (ctx : Nat) (seq vec : W32) (a b : W64) (e : Schedule) (z : Bool) (rs : List (Nat × Nat)), let st := s.dev.step
    (∀ c ∈ [Instr.svcAttach ctx seq vec, .groupSet ctx seq a b e, .stepRun ctx seq a, .fallback ctx seq, .lscalePolicy ctx seq a b, .stepReport ctx seq,
      .checkpoint ctx seq a ⟨b, rs⟩ z], Reaches c s → s.dev.boot.firmware = false → exec c s = .next s) ∧
    (s.dev.boot.firmware = true →
      (Reaches (.svcAttach ctx seq vec) s → (s.dev.svcVecOk ctx vec = false → Serves s (.svcAttach ctx seq vec) ctx seq 1 [] s.dev) ∧
        (s.dev.svcVecOk ctx vec = true → ∃ d, Serves s (.svcAttach ctx seq vec) ctx seq 0 [] d ∧ mapFind d.gc.vectors ctx = some vec.toNat ∧
          (∀ k, k ≠ ctx → mapFind d.gc.vectors k = mapFind s.dev.gc.vectors k))) ∧
      (Reaches (.groupSet ctx seq a b e) s → (st.active = true → Serves s (.groupSet ctx seq a b e) ctx seq 3 [] s.dev) ∧
        (st.active = false → let r := s.dev.readGroup a.toNat b.toNat e
          (∀ g, r.1 = some g → ∃ d, Serves s (.groupSet ctx seq a b e) ctx seq 0 [] d ∧ d.step.group = some g) ∧
          (r.1 = none → Serves s (.groupSet ctx seq a b e) ctx seq 2 [] r.2))) ∧
      (Reaches (.stepRun ctx seq a) s → (st.group = none → Serves s (.stepRun ctx seq a) ctx seq 2 [] s.dev) ∧
        (st.group ≠ none → st.running = true → Serves s (.stepRun ctx seq a) ctx seq 3 [] s.dev) ∧
        (st.group ≠ none → st.running = false → ∃ d, Serves s (.stepRun ctx seq a) ctx seq 0 [] d ∧ d.step = { st with
          running := true, fresh := true, hist := [], histNow := [], unrecovered := false, abandons := 0,
          left := if a = 0 then none else some a.toNat })) ∧
      (Reaches (.fallback ctx seq) s → ∃ d, Serves s (.fallback ctx seq) ctx seq 0 [] d ∧ d.step = { st with fallbackAsk := true }) ∧
      (Reaches (.lscalePolicy ctx seq a b) s → ∃ d, Serves s (.lscalePolicy ctx seq a b) ctx seq 0 [] d ∧
        d.step = { st with interval := a.toNat, cap := b.toInt }) ∧
      (Reaches (.stepReport ctx seq) s → ∃ w d, Serves s (.stepReport ctx seq) ctx seq (if 3 ≤ st.abandons ∨ st.unrecovered = true then 4 else 0)
        [BitVec.ofNat 64 st.outcome, BitVec.ofNat 64 (match st.group with | some g => leAt (s.dev.stepRecord g) 0 4 | none => 0), w,
         BitVec.ofNat 64 (b2n st.fail)] d ∧ (st.missing = 0 → st.absences = [] → w = 0 ∧ d = s.dev)) ∧
      (Reaches (.checkpoint ctx seq a ⟨b, rs⟩ z) s → let c := Instr.checkpoint ctx seq a ⟨b, rs⟩ z
        (st.group = none → Serves s c ctx seq 2 [] s.dev) ∧
        (∀ g, st.group = some g → st.active = true → Serves s c ctx seq 3 [] s.dev) ∧
        (∀ g, st.group = some g → st.active = false → leAt (s.dev.stepRecord g) 0 4 ≠ a.toNat → Serves s c ctx seq 2 [] s.dev) ∧
        (∀ g, st.group = some g → st.active = false → leAt (s.dev.stepRecord g) 0 4 = a.toNat → z = false →
          let l := (g.stepRec, 64) :: rs; let r := s.dev.saveRanges l b.toNat
          (r.1 = true → Serves s c ctx seq 0 [] (r.2.modStep (fun st => { st with checkpoint := some { step := a, dest := b.toNat, ranges := l } }))) ∧
          (r.1 = false → Serves s c ctx seq 4 [] r.2))))

/-- Partitions and updates: an image is loaded into a partition whose clusters are free, and measured from zero into its slot; a firmware image is taken
where it is signed, no older than the fuses and fits, one update at a time, by the physical function alone; a cluster that stops
answering fails over while its standby is in service (15 R402, R404, R405; 16 R414, R416; who asks: log 24). -/
def PartitionsAndUpdates : Prop :=
  ∀ (s : State) (ctx : Nat) (seq : W32) (k : Nat) (im : List Byte), let pl := Instr.partLoad ctx seq k im; let fu := Instr.fwUpdate ctx seq k im
    let pu := Instr.pldmFirmwareUpdate k im; let good := imageOk s.life 1 s.life.fwSvn im = true ∧ Config.interfaceFits (imIfver im) = true
    (∀ c ∈ [pl, fu, pu, .clusterFailover k], Reaches c s → s.dev.boot.firmware = false → exec c s = .next s) ∧
    (s.dev.boot.firmware = true →
      (Reaches pl s → ((8 ≤ k ∨ s.dev.partClusters k = 0) → Serves s pl ctx seq 2 [] s.dev) ∧
        (k < 8 → s.dev.partClusters k ≠ 0 → (∀ o ∈ s.dev.gc.parts, o ≠ k → s.dev.partClusters o &&& s.dev.partClusters k = 0) → s.dev.gc.update = none →
          (imageWhole 2 im = false → Serves s pl ctx seq 4 [] s.dev) ∧
          (imageWhole 2 im = true → ∃ d, Serves s pl ctx seq 0 [] d ∧ k ∈ d.gc.parts ∧ d.meas (8 + k) = measNext (List.replicate 64 0#8) (imDigest im) ∧
            (∀ j, j ≠ 8 + k → d.meas j = s.dev.meas j) ∧ ∀ e ∈ s.dev.regionsOn (8 + k), (d.sealEntry e).mode = .closing)) ∧
        (k < 8 → s.dev.partClusters k ≠ 0 → (∃ o ∈ s.dev.gc.parts, o ≠ k ∧ s.dev.partClusters o &&& s.dev.partClusters k ≠ 0) → Serves s pl ctx seq 3 [] s.dev)) ∧
      (Reaches fu s → (s.dev.vfOn ctx = true → Serves s fu ctx seq 1 [] s.dev) ∧
        (s.dev.vfOn ctx = false → 8 ≤ k → Serves s fu ctx seq 2 [] s.dev) ∧
        (s.dev.vfOn ctx = false → k < 8 → s.dev.updateBusy k = true → Serves s fu ctx seq 3 [] s.dev) ∧
        (s.dev.vfOn ctx = false → k < 8 → s.dev.updateBusy k = false →
          (¬good → ∃ d, Serves s fu ctx seq 4 [] d ∧ d.gc = s.dev.gc ∧ d.sec = s.dev.sec ∧ (d.event evSec).flags.getLsbD 1 = true) ∧
          (good → k < 6 → ∃ t u, exec fu s = .next t ∧ t.dev.gc.update = some u ∧ u.cluster = k ∧ u.ctx = some ctx ∧ u.seq = seq ∧ u.digest = imDigest im ∧
            u.phase = .accepted ∧ t.dev.mem = s.dev.mem) ∧
          (good → 6 ≤ k → ∃ d, Serves s fu ctx seq 0 [] d ∧ d.meas 1 = measNext (s.dev.meas 1) (imDigest im)))) ∧
      (Ready pu s → ((8 ≤ k ∨ s.dev.updateBusy k = true) → exec pu s = .next s) ∧
        (k < 8 → s.dev.updateBusy k = false → ¬good → ∃ t, exec pu s = .next t ∧ t.dev.gc = s.dev.gc ∧ (t.dev.event evSec).flags.getLsbD 1 = true) ∧
        (k < 6 → s.dev.updateBusy k = false → good → ∃ t u, exec pu s = .next t ∧ t.dev.gc.update = some u ∧ u.cluster = k ∧ u.ctx = none)) ∧
      (Ready (.clusterFailover k) s → let ok := k < 6 ∧ s.dev.clusterOut k = false ∧ s.dev.clusterOut (standby k) = false
        (ok → ∃ t, exec (.clusterFailover k) s = .next t ∧ t.dev.gc = { s.dev.gc with failed := k :: s.dev.gc.failed }) ∧
        (¬ok → exec (.clusterFailover k) s = .next s)))

/-- Firmware services (15). -/
def Obligations.FirmwareServices : Prop := StepServices ∧ PartitionsAndUpdates

/-- A general core's access goes where its address says: to a register, to this part's memory, to another part, through the host aperture, or
nowhere; a core of a cluster that does not run makes none; one to a word of another part waits for the core's earlier operation on it; a
release leaves once no earlier write to another node is unanswered (15 R400, R401, R404; 07 R185; 11 R295, R306; a partition's and the
host's accesses, and an access that waits: log 27). -/
def CoreAccesses : Prop :=
  ∀ (s : State) (g : Nat) (m : Bool) (pa : W64) (op : MemOp), let c := Instr.gcAccess g m pa op; let who := s.dev.coreWho g
    let at' := s.dev.coreAddr pa.toNat; let refused : Host.Outcome State Fault Refusal := .next { s with dev := s.dev.emit (.access who stRefused []) }
    Reaches c s →
    (s.dev.coreRuns g = false → exec c s = .next s) ∧
    (s.dev.coreRuns g = true →
      (at' = .bad → exec c s = refused) ∧
      (∀ loc, at' = .here loc → (loc < regBase ∨ regBase + regSize ≤ loc) → let r := s.dev.memAccess who loc op
        ∃ t, exec c s = .next t ∧ t.dev.mem = r.2.2.mem ∧ ∃ w, t.dev.out.head? = some (.access w (wireStatus r.1) r.2.1)) ∧
      (∀ loc, at' = .here loc → regBase ≤ loc → loc < regBase + regSize →
        ((s.dev.corePart g ≠ none ∨ (loc - regBase) % 4 ≠ 0 ∨ opLen op ≠ 4) → exec c s = refused) ∧
        (s.dev.corePart g = none → (loc - regBase) % 4 = 0 → op = .read 4 → let r := s.dev.regFetch s.life (.core g m) (loc - regBase)
          ∃ t w, exec c s = .next t ∧ t.dev.out.head? = some (.access w stOk (leBytes 4 r.1.toNat)) ∧ t.dev.regs = r.2.regs) ∧
        (∀ bs, s.dev.corePart g = none → (loc - regBase) % 4 = 0 → op = .write bs → bs.length = 4 → ∃ t, exec c s = .next t ∧
          t.dev.regs = (s.dev.regWrite (.core g m) (loc - regBase) (BitVec.ofNat 32 (leNat bs))).regs)) ∧
      (∀ node loc, at' = .remote node loc → s.dev.wordBusy (136 + g) node loc (opLen op) = true → exec c s = .next s) ∧
      (∀ node loc n, at' = .remote node loc → s.dev.wordBusy (136 + g) node loc (opLen op) = false → op = .read n → exec c s =
        .next { s with dev := (s.dev.request (136 + g) (.core g) (s.dev.pkRead (136 + g) node loc n)).2 }) ∧
      (∀ node loc bs, at' = .remote node loc → s.dev.wordBusy (136 + g) node loc (opLen op) = false → op = .write bs → exec c s =
        .next { s with dev := (s.dev.request (136 + g) (.core g) (s.dev.pkWrite (136 + g) node loc bs)).2 }) ∧
      (∀ node loc o v u, at' = .remote node loc → s.dev.wordBusy (136 + g) node loc (opLen op) = false → op = .atomic o v u → exec c s =
        .next { s with dev := (s.dev.request (136 + g) (.core g) (s.dev.pkAtomic (136 + g) node loc o v u)).2 }) ∧
      (∀ a, at' = .host a → (s.dev.corePart g ≠ none ∨ s.dev.hostUp 0 = false) → exec c s = refused) ∧
      (∀ a bs, at' = .host a → s.dev.corePart g = none → s.dev.hostUp 0 = true → op = .write bs → exec c s =
        .next { s with dev := (s.dev.dmaOut 0 a bs).emit (.access who stOk []) })) ∧
    (∀ v, m = false → op = .atomic .sig v 0 →
      let held := (∃ loc, at' = .here loc ∧ s.dev.coreReleases g s.dev.node = false) ∨ ∃ node loc, at' = .remote node loc ∧ s.dev.coreReleases g node = false
      (held → exec (.amoRelease g pa v) s = .next s) ∧ (¬held → exec (.amoRelease g pa v) s = exec c s))

/-- Ingest: a ring's tail is as written, and a disabled ring is not served; an idle engine takes the next descriptor of the ring in turn, refused
where a field is out of range or its key is not the ring owner's; one it takes opens and unpacks its input into its output, with the
dictionaries loaded; its end counts it, moves the ring's head and says how it went (15 R406-R409, Tables 4, 5, 8; the ciphers and the
block coding are free values, and the firmware's loads come with the command: log 24). -/
def IngestEngines : Prop :=
  ∀ (s : State) (n r : Nat), let x := s.dev.ingest n
    (∀ req v, Reaches (.ingRingTail req n r v) s → ∃ t, exec (.ingRingTail req n r v) s = .next t ∧ t.dev.word (offRing n r + 0xC) = v ∧ t.dev.ing = s.dev.ing) ∧
    (∀ req v, Reaches (.ingRingDisable req n r v) s → fbit v 31 = false → ∃ t, exec (.ingRingDisable req n r v) s = .next t ∧ t.dev.ringOn n r = false ∧
      t.dev.ing = s.dev.ing ∧ t.dev.ringNext n ≠ some r) ∧
    (∀ loads, Reaches (.ingestDescriptor n r loads) s → let c := Instr.ingestDescriptor n r loads
      ((x.work ≠ none ∨ s.dev.ringNext n ≠ some r) → exec c s = .next s) ∧
      (x.work = none → s.dev.ringNext n = some r → let d := s.dev.loadDicts loads; let own := s.dev.ringOwner n r; let who := s.dev.ingWho n own
        let a := d.memAccess who (s.dev.ringSlot n r) (.read 64); let b := a.2.1; let key := mapFind d.sec.ingestKeys (inKey b)
        ∃ t w, exec c s = .next t ∧ (t.dev.ingest n).work = some w ∧ w.ring = r ∧ w.owner = own ∧ (t.dev.ingest n).last = r ∧
          (a.1 ≠ stOk → w.desc = [] ∧ w.status = igOf a.1 ∧ w.output = []) ∧
          (a.1 = stOk → w.desc = b ∧ (inBad b = true → w.status = 6 ∧ w.output = []) ∧
            (inBad b = false → inDec b = true → key.map Prod.fst ≠ some own → w.status = 4 ∧ w.output = []) ∧
            (inBad b = false → (inDec b = true → key.map Prod.fst = some own) →
              let i := a.2.2.memAccess who (inSrc b - inAad b) (.read (inAad b + inSlen b + (if inDec b then 16 else 0)))
              let u := ingFind d.gc.dicts ((key.map Prod.snd).getD []) b i.2.1
              (i.1 ≠ stOk → w.status = igOf i.1 ∧ w.output = []) ∧
              (i.1 = stOk → w.output = u.2 ∧ (u.2 = [] → w.status = u.1) ∧
                (u.2 ≠ [] → let o := i.2.2.memAccess who (inDst b) (.write u.2)
                  w.status = (if o.1 = stOk then u.1 else igOf o.1) ∧ t.dev.mem = o.2.2.mem)))))) ∧
    (Reaches (.ingestEnd n) s → (x.work = none → exec (.ingestEnd n) s = .next s) ∧
      (∀ w, x.work = some w → ∃ t, exec (.ingestEnd n) s = .next t ∧ (t.dev.ingest n).work = none ∧ (t.dev.ingest n).done = x.done + 1 ∧
        t.dev.ringHead n w.ring = s.dev.ringHead n w.ring + 1 ∧ (t.dev.event (evIng n)).flags.getLsbD (igEvent w.status) = true ∧
        (w.desc = [] → w.output = [] → t.dev.mem = s.dev.mem)))

/-- General cores and ingest engines (15). -/
def Obligations.CoresAndIngest : Prop := CoreAccesses ∧ IngestEngines
/-! ## Registers (17) -/

/-- A register to which no block gives a behaviour of its own: what is written is what software reads. -/
def PlainRegister (d : Dev) (off : Nat) : Prop :=
  eventBlock off = none ∧ vaneAt off = none ∧ isPairLo off = false ∧ isPairHi off = false ∧ off ≠ 0x10004 ∧ (off < 0x100000 ∨ 0x300000 ≤ off) ∧
  inArray off 0x1000000 0x10000 68 = none ∧ inArray off 0x2010000 0x10000 8 = none ∧ inArray off 0x2400000 0x1000 8 = none ∧
  (off < 0x2800000 ∨ 0x2806000 ≤ off) ∧ (off < 0x2A00000 ∨ 0x2A01000 ≤ off) ∧ (off < 0x3000000 ∨ 0x3208000 ≤ off) ∧
  inArray off 0x3410000 0x10 2048 = none ∧ off ≠ 0x3C00024 ∧ off ≠ 0x3A00008 ∧ d.itemCtx off = none

/-- A write changes the fields that software writes, and nothing else: a value outside a field's stated range is not taken, a locked field keeps its
value, and both set an event. A read in shadow mode keeps the other half for the next read; the low half of a pair waits for the high
half (17 R431-R433, R436, R437). -/
def RegisterAccesses : Prop :=
  ∀ (s : State) (req : Req) (off : Nat) (v : W32), let d := s.dev; let go := d.reaches req off = true
    (∀ r, Reaches (.registerWrite req off v) s → go → PlainRegister d off → findRow off = some r →
      (r.inRange v = false → ∃ t, exec (.registerWrite req off v) s = .next t ∧ t.dev.regs.words = d.regs.words ∧
        (t.dev.event evCfg).flags.getLsbD 4 = true) ∧
      (r.inRange v = true → let lock := lockedMask req off r (d.word off)
        let eff := BitVec.ofNat 32 (r.rw ||| r.rwl) &&& ~~~lock &&& ~~~heldMask d off (d.word off)
        ∃ t, exec (.registerWrite req off v) s = .next t ∧ t.dev.word off = ((d.word off &&& ~~~eff) ||| (v &&& eff)) ∧
        (∀ o, o ≠ off → t.dev.word o = d.word o) ∧ ((d.word off ^^^ v) &&& lock ≠ 0#32 → (t.dev.event evCfg).flags.getLsbD 3 = true))) ∧
    (Reaches (.registerWrite req off v) s → ¬go → exec (.registerWrite req off v) s = .next s) ∧
    (Ready (.shadowReadLo req off) s → (¬go → exec (.shadowReadLo req off) s = .next s) ∧
      (go → let r := d.regFetch s.life req off
        ∃ t, exec (.shadowReadLo req off) s = .next t ∧ t.dev.out = .readData req (leBytes 4 r.1.toNat) :: d.out ∧ t.dev.regs.words = d.regs.words ∧
        (d.shadow64 = true → isLo off = true → d.regs.shadows.find? (fun x => x.req == req && x.pair + 4 == off) = none →
          r.1 = d.regRead s.life off ∧ (t.dev.regFetch s.life req (off + 4)).1 = d.regRead s.life (off + 4)))) ∧
    (Reaches (.stagedWriteLo req off v) s → (isPairLo off = false → exec (.stagedWriteLo req off v) s = .next s) ∧
      (go → isPairLo off = true → eventBlock off = none → vaneAt off = none → ∃ t, exec (.stagedWriteLo req off v) s = .next t ∧
        t.dev.regs.words = d.regs.words ∧ t.dev.regs.staged.find? (fun x => x.req == req && x.pair == off) = some { req := req, pair := off, lo := v })) ∧
    (Reaches (.stagedWriteHi req off v) s → (isPairHi off = false → exec (.stagedWriteHi req off v) s = .next s) ∧
      (go → isPairHi off = true → isPairLo off = false → eventBlock off = none → vaneAt off = none → d.itemCtx off = none →
        ∃ t, exec (.stagedWriteHi req off v) s = .next t ∧
        (∀ x, d.regs.staged.find? (fun x => x.req == req && x.pair == off - 4) = some x →
          t.dev.regs.words = (storeReg req off v (storeReg req (off - 4) x.lo d)).regs.words) ∧
        (d.regs.staged.find? (fun x => x.req == req && x.pair == off - 4) = none → t.dev.regs.words = (storeReg req off v d).regs.words) ∧
        t.dev.regs.staged.find? (fun x => x.req == req && x.pair == off - 4) = none))

/-- Sequence-clear status: a write with the current number clears the flags it names, a stale one is ignored and counted; an advance that had to wait
comes once, with what was merged into it (17 R438-R441, R449). -/
def SequenceClears : Prop :=
  ∀ (s : State) (req : Req) (off : Nat) (v : W32), let d := s.dev; let e := d.event off
    (Ready (.sequenceClear req off v) s → (eventBlock off = none → exec (.sequenceClear req off v) s = .next s) ∧
      (d.reaches req off = true → eventBlock off ≠ none → let ok := d.w1c = true ∨ (e.pend = none ∧ (v >>> 16).setWidth 16 = e.seq)
        (ok → ∃ t, exec (.sequenceClear req off v) s = .next t ∧ t.dev.event off = { e with flags := e.flags &&& ~~~v.setWidth 16 } ∧
          t.dev.regs.sqStale = d.regs.sqStale ∧ ∀ o, o ≠ off → t.dev.event o = d.event o) ∧
        (¬ok → ∃ t, exec (.sequenceClear req off v) s = .next t ∧ t.dev.regs.events = d.regs.events ∧ t.dev.regs.sqStale = d.regs.sqStale + 1))) ∧
    (Ready (.seqAdvancePending off) s → (e.pend = none → exec (.seqAdvancePending off) s = .next s) ∧
      (∀ m n, e.pend = some m → e.last = some n →
        (d.clk < n + 65536 → exec (.seqAdvancePending off) s = .next s) ∧
        (n + 65536 ≤ d.clk → ∃ t, exec (.seqAdvancePending off) s = .next t ∧
          t.dev.event off = { flags := e.flags ||| m, seq := e.seq + 1, last := some (n + 65536), pend := none })))

/-- The configuration check: a pass counts itself and its result; comparing, it matches or sets an event and freezes dispatch where asked; after a COMMIT
the first whole pass becomes the reference; HOLD admits a write of the reference (17 R442-R444). -/
def ConfigurationCheck : Prop :=
  ∀ (s : State), let d := s.dev; let g := d.regs
    (Ready .crcPass s → ∃ t, exec .crcPass s = .next t ∧ t.dev.regs.crcPasses = g.crcPasses + 1 ∧ t.dev.regs.crcCur = d.crcResult ∧
      (g.crcMode = .comparing → d.crcResult = d.word 0x10008 → t.dev.regs.crcMatch = true ∧ t.dev.regs.crcBad = false ∧ t.dev.regs.crcFrozen = false) ∧
      (g.crcMode = .comparing → d.crcResult ≠ d.word 0x10008 → t.dev.regs.crcMatch = false ∧ t.dev.regs.crcBad = true ∧
        (t.dev.event evCfg).flags.getLsbD 0 = true ∧ t.dev.regs.crcFrozen = (g.crcFrozen || fbit (d.word 0x10004) 1)) ∧
      (g.crcMode = .committing → g.crcArmed = false → t.dev.regs.crcArmed = true ∧ t.dev.regs.crcMode = .committing ∧ t.dev.word 0x10008 = d.word 0x10008) ∧
      (g.crcMode = .committing → g.crcArmed = true → t.dev.word 0x10008 = d.crcResult ∧ fbit (t.dev.word 0x10004) 2 = false ∧
        t.dev.regs.crcMode ≠ .committing ∧ (t.dev.event evCfg).flags.getLsbD 1 = true) ∧
      ((g.crcMode = .off ∨ g.crcMode = .holding) → t.dev.regs.crcMatch = g.crcMatch ∧ t.dev.regs.events = g.events ∧ t.dev.regs.crcMode = g.crcMode)) ∧
    (∀ req v, Ready (.crcHold req v) s → ∃ t, exec (.crcHold req v) s = .next t ∧ fbit (t.dev.word 0x10004) 2 = true ∧
      (fbit v 3 = false → fbit v 0 = true → t.dev.regs.crcMode = if g.crcMode = .comparing ∨ g.crcMode = .committing then g.crcMode else .holding)) ∧
    (∀ req v, Ready (.crcCommit req v) s → ∃ t, exec (.crcCommit req v) s = .next t ∧ t.dev.regs.crcMode = .committing ∧ t.dev.regs.crcArmed = false) ∧
    (∀ req v, Ready (.crcRefWrite req v) s → ∃ t, exec (.crcRefWrite req v) s = .next t ∧
      t.dev.word 0x10008 = if fbit (d.word 0x10004) 2 then v else d.word 0x10008)

/-- Registers, events and the check (17; what HOLD and COMMIT find under way: log 26). -/
def Obligations.RegistersAndCheck : Prop := RegisterAccesses ∧ SequenceClears ∧ ConfigurationCheck

/-! ## Power and clocks (18) -/

/-- Ceilings: a fall lowers the clocks at once, a rise first asks for the voltage and ends at its target or is given up; the voltage follows a fall; a rail
fails after three silent transactions and recovers after three good ones; a rise and a due warning assert the pin for its
width (18 R455-R460, R463). -/
def CeilingsAndRails : Prop :=
  ∀ (s : State) (q : Nat), let d := s.dev; let x := d.quad q; let w := d.ceilWanted q
    (Ready (.ceilingEvaluate q) s →
      (w < x.ceil → ∃ t, exec (.ceilingEvaluate q) s = .next t ∧ t.dev.quad q = { x with ceil := w, fell := some d.ft.now }) ∧
      (let may := x.rise = none ∧ d.passed x.lastRise (usFtu 10) = true ∧ d.boot.firmware = true ∧ (d.rail q).fault = false
       (x.ceil < w → may → ∃ t, exec (.ceilingEvaluate q) s = .next t ∧ (t.dev.quad q).ceil = x.ceil ∧ (t.dev.quad q).rise = some (w, d.ft.now) ∧
          (t.dev.quad q).lastRise = some d.ft.now ∧ (t.dev.quad q).fell = none) ∧
       ((x.ceil = w ∨ (x.ceil < w ∧ ¬may)) → exec (.ceilingEvaluate q) s = .next s))) ∧
    (Ready (.ceilingRise q) s → (x.rise = none → exec (.ceilingRise q) s = .next s) ∧
      (∀ r, x.rise = some r → ∃ t, exec (.ceilingRise q) s = .next t ∧ t.dev.quad q = { x with
        ceil := r.1, rise := none, gust := if d.pwrOn 1 then some (d.ft.now + BitVec.ofNat 64 d.gustWidth) else x.gust })) ∧
    (Ready (.riseTimeout q) s → ∃ t, exec (.riseTimeout q) s = .next t ∧ t.dev.quad q = { x with rise := none }) ∧
    (Ready (.voltageLower q) s → let may := x.fell.isSome = true ∧ (d.rail q).fault = false ∧ d.boot.firmware = true
      (¬may → exec (.voltageLower q) s = .next s) ∧
      (may → ∃ t, exec (.voltageLower q) s = .next t ∧ (t.dev.quad q).fell = none ∧ (t.dev.quad q).ceil = x.ceil ∧
        (3 ≤ d.boot.stage.toNat → d.boot.stage.toNat < 128 → (t.dev.quad q).volt = x.ceil ∧
          t.dev.out = .avs q (Config.avsMv q x.ceil x.temp) :: d.out))) ∧
    (∀ r reply, Ready (.avsPoll r reply) s → let o := d.rail r; ∃ t, exec (.avsPoll r reply) s = .next t ∧
      (reply = none → (t.dev.rail r).silent = o.silent + 1 ∧ (t.dev.rail r).mv = o.mv) ∧
      (reply = none → 2 ≤ o.silent → (t.dev.rail r).fault = true ∧ (o.fault = false → (t.dev.event evPwr).flags.getLsbD 5 = true)) ∧
      (∀ a, reply = some a → (t.dev.rail r).mv = a.mv ∧ (t.dev.rail r).status = a.status ∧ (t.dev.rail r).silent = 0) ∧
      (∀ a, reply = some a → a.fault = false → 2 ≤ o.good → (t.dev.rail r).fault = false)) ∧
    (Ready (.gustTrigger q) s → ((d.warnings q = [] ∨ d.pwrOn 1 = false) → exec (.gustTrigger q) s = .next s) ∧
      (d.warnings q ≠ [] → d.pwrOn 1 = true → ∃ t, exec (.gustTrigger q) s = .next t ∧
        (t.dev.quad q).gust = some (d.ft.now + BitVec.ofNat 64 d.gustWidth) ∧ ∀ y ∈ d.warnings q, y ∈ t.dev.pwr.warned)) ∧
    (Ready (.gustRelease q) s → exec (.gustRelease q) s = .next s ∨ ∃ n t, x.gust = some n ∧ 0 ≤ ftDiff d.ft.now n ∧
      exec (.gustRelease q) s = .next t ∧ (t.dev.quad q).gust = none) ∧
    (∀ n, Ready (.gustRelease q) s → x.gust = some n → 0 ≤ ftDiff d.ft.now n → ∃ t, exec (.gustRelease q) s = .next t ∧
      t.dev.quad q = { x with gust := none })

/-- Limits: a droop is counted; a current above the limit twice running lowers its ceiling, and its protection off holds none; a temperature is
noted, at the critical threshold the ceiling is 500 MHz, and below the warning a ceiling not held down returns to the highest; a trip stops
every clock; a lost lock, system reference or SerDes reference is reported, and its links retrain (18 R466-R471; 02 R36; 21 R516). -/
def LimitsAndClocks : Prop :=
  ∀ (s : State) (q : Nat), let d := s.dev; let x := d.quad q
    (∀ p n, Ready (.droop p n) s → ((d.pwrOn 2 = false ∨ n = 0) → exec (.droop p n) s = .next s) ∧
      (d.pwrOn 2 = true → 0 < n → ∃ t, exec (.droop p n) s = .next t ∧
        mapGet 0 t.dev.pwr.droops p = mapGet 0 d.pwr.droops p + BitVec.ofNat 16 n ∧ (t.dev.event evPwr).flags.getLsbD 4 = true)) ∧
    (∀ a, Ready (.currentEstimate q a) s → ∃ t, exec (.currentEstimate q a) s = .next t ∧ (t.dev.quad q).amps = a ∧
      (d.pwrOn 3 = false → (t.dev.quad q).current = 2100 ∧ (t.dev.quad q).limiting = false) ∧
      (d.pwrOn 3 = true → d.ilimit q < a → 1 ≤ x.overs → (t.dev.quad q).limiting = true ∧ (t.dev.event evPwr).flags.getLsbD 3 = true ∧
        (d.passed x.curStep (usFtu 1) = true → (t.dev.quad q).current = max 500 (x.current - 100))) ∧
      (d.pwrOn 3 = true → a ≤ d.ilimit q → x.limiting = false → d.passed x.curStep (usFtu 10) = true → x.current < 2100 →
        (t.dev.quad q).current = min 2100 (x.current + 50))) ∧
    (∀ c, Ready (.thermalResponse q c) s → ∃ t, exec (.thermalResponse q c) s = .next t ∧ (t.dev.quad q).temp = c ∧
      ((t.dev.quad q).warm = true ↔ d.thermWarn ≤ c) ∧ ((t.dev.quad q).hot = true ↔ d.thermHot ≤ c) ∧ ((t.dev.quad q).crit = true ↔ d.thermCrit ≤ c) ∧
      (d.thermCrit ≤ c → (t.dev.quad q).thermal = 500 ∧ (x.crit = false → (t.dev.event evPwr).flags.getLsbD 2 = true)) ∧
      (c < d.thermWarn → c < d.thermHot → c < d.thermCrit → 1750 ≤ x.thermal → (t.dev.quad q).thermal = 2100)) ∧
    (Ready .thermtrip s → ∃ t, exec .thermtrip s = .next t ∧ t.dev.alive = false ∧ t.dev.regs = d.regs) ∧
    (Ready (.pllUnlock q) s → ∃ t, exec (.pllUnlock q) s = .next t ∧ t.dev.quad q = { x with unlocked := true } ∧ t.dev.pwr.locks.getLsbD q = false ∧
      (t.dev.event evClk).flags.getLsbD 0 = true) ∧
    (Ready (.pllRelock q) s → ∃ t, exec (.pllRelock q) s = .next t ∧ t.dev.quad q = { x with unlocked := false } ∧ t.dev.pwr.locks.getLsbD q = true) ∧
    (Ready .refLost s → ∃ t, exec .refLost s = .next t ∧ t.dev.pwr.refLost = true ∧ t.dev.faultPin = true ∧ t.dev.pwr.locks.getLsbD 19 = false ∧
      (t.dev.event evClk).flags.getLsbD 1 = true ∧ (d.ft.mode = .locked → t.dev.ft.mode = .acquire) ∧ (d.ft.mode ≠ .locked → t.dev.ft = d.ft)) ∧
    (Ready (.sdrefLost q) s → ∃ t, exec (.sdrefLost q) s = .next t ∧ q ∈ t.dev.pwr.sdLost ∧ t.dev.pwr.locks.getLsbD (14 + q) = false ∧
      (t.dev.event evClk).flags.getLsbD 2 = true ∧ (∀ p, 8 * q ≤ p → p < 8 * q + 8 → ((d.port p).mode = .active ∨ (d.port p).mode = .drained) →
        (t.dev.port p).mode = .retrain) ∧ ∀ p, (p < 8 * q ∨ 8 * q + 8 ≤ p) → t.dev.port p = d.port p) ∧
    (∀ k c, Ready (.stackTemperature k c) s → ∃ t, exec (.stackTemperature k c) s = .next t ∧ t.dev.stack k = { d.stack k with temp := c } ∧
      ((d.stack k).temp ≤ 95 → 95 < c → (t.dev.event (evMem k)).flags.getLsbD 8 = true) ∧
      ((95 < (d.stack k).temp ∨ c ≤ 95) → t.dev.regs = d.regs))

/-- Power and clocks (18; which commands stand for the ends of intervals: log 22). -/
def Obligations.PowerAndClocks : Prop := CeilingsAndRails ∧ LimitsAndClocks
/-! ## Availability (19) -/

/-- The fault log: the oldest noted entry is written, its number last, and counted; with the log off it is dropped, and a refused write is not
counted (19 R479, R480). Bridges: a failed lane takes a spare while one of two is left, else the bridge is lost (01 R15; 19 R487). -/
def FaultLogAndBridges : Prop :=
  ∀ (s : State), let d := s.dev
    (Ready .faultLogCommit s → (d.ras.log = [] → exec .faultLogCommit s = .next s) ∧
      (∀ e rest, d.ras.log = e :: rest → let d1 := d.modRas (fun r => { r with log := rest })
        (fbit (d.word offRas) 0 = false → exec .faultLogCommit s = .next { s with dev := d1 }) ∧
        (fbit (d.word offRas) 0 = true → let base := (d.word64 (offRas + 0x10)).toNat % 2 ^ 44 / 4096 * 4096 + 64 * (d.ras.count.toNat % d.logSize)
          let who : Who := { kind := .engine, node := d.node, endpoint := 255, owner := 0xFF }
          let a := d1.memAccess who (base + 4) (.write e.bytes)
          let b := a.2.2.memAccess who base (.write (leBytes 4 (d.ras.count + 1).toNat))
          (a.1 = stOk → b.1 = stOk → ∃ t, exec .faultLogCommit s = .next t ∧ t.dev.ras.count = d.ras.count + 1 ∧ t.dev.mem = b.2.2.mem ∧
            (t.dev.event evRas).flags.getLsbD 0 = true ∧ (d.logFull = true → (t.dev.event evRas).flags.getLsbD 1 = true)) ∧
          (a.1 ≠ stOk → ∃ t, exec .faultLogCommit s = .next t ∧ t.dev.ras.count = d.ras.count ∧ (t.dev.event evRas).flags.getLsbD 1 = true)))) ∧
    (∀ b, let x := d.bridge b
      (∀ c ∈ [Instr.bridgeLaneSwap b, .bridgeLost b], Ready c s → x.lost = true → exec c s = .next s) ∧
      (Ready (.bridgeLaneSwap b) s → x.lost = false → x.spares < 2 → ∃ t, exec (.bridgeLaneSwap b) s = .next t ∧
        t.dev.bridge b = { x with spares := x.spares + 1 } ∧ (t.dev.event evRas).flags.getLsbD 6 = true) ∧
      (∀ c ∈ [Instr.bridgeLaneSwap b, .bridgeLost b], Ready c s → x.lost = false → 2 ≤ x.spares → ∃ t, exec c s = .next t ∧
        t.dev.bridge b = { x with lost := true } ∧ (t.dev.event evRas).flags.getLsbD 7 = true) ∧
      (Ready (.bridgeLost b) s → x.spares < 2 → exec (.bridgeLost b) s = .next s))

/-- Tile retirement: a command begins one on a spare, the named one or that of the nearest quadrant, or is refused; once both halves are quiet the copy
or the clear is made, then the map switches to the target, then the old tile is RETIRED and the command done; without a copy no task,
register or memory of the old tile is left (19 R482-R485; the results of refusals: log 23). -/
def TileRetirement : Prop :=
  ∀ (s : State), let d := s.dev; let r := d.ras
    (∀ req v, let c := Instr.tileRetire req v; let k := fld v 6 0; let g := fld v 13 7
      let began (t : State) (p : Nat) := t.dev.ras.status = 1 ∧ t.dev.ras.newPhys = p ∧ t.dev.physMode (d.physOf k) = .retiring ∧
        t.dev.ras.job = some { tile := k, old := d.physOf k, target := p, copy := fbit v 14, phase := .quiet } ∧
        (fbit v 15 = true → t.dev.half k 0 = (d.half k 0).askHalt ∧ t.dev.half k 1 = (d.half k 1).askHalt)
      Ready c s → ((r.status = 1 ∨ fld v 17 16 ≠ 0 ∨ 68 ≤ k) → ∃ t, exec c s = .next t ∧ t.dev.ras = r ∧ t.dev.tiles = d.tiles) ∧
      (r.status ≠ 1 → fld v 17 16 = 0 → k < 68 →
        (∀ p, g = 0x7F → d.chooseSpare (d.quadOf k) = some p → ∃ t, exec c s = .next t ∧ began t p) ∧
        (g = 0x7F → d.chooseSpare (d.quadOf k) = none → ∃ t, exec c s = .next t ∧ t.dev.ras.status = 3 ∧ t.dev.ras.result = 1 ∧
          (t.dev.event evRas).flags.getLsbD 4 = true ∧ (d.boot.firmware = true → fbit (t.dev.word (offTil k + 4)) 0 = false)) ∧
        (g < 72 → d.physMode g = .spare → ∃ t, exec c s = .next t ∧ began t g) ∧
        (g ≠ 0x7F → (72 ≤ g ∨ d.physMode g ≠ .spare) → ∃ t, exec c s = .next t ∧ t.dev.ras = { r with status := 3, result := 3 }))) ∧
    (∀ c ∈ [Instr.tileQuiesced, .tileCopyComplete, .oldTileCleared], Ready c s → r.job = none → exec c s = .next s) ∧
    (∀ j, r.job = some j → let u := d.tile j.tile
      (Ready .tileQuiesced s → ((j.phase ≠ .quiet ∨ u.h0.isQuiet = false ∨ u.h1.isQuiet = false) → exec .tileQuiesced s = .next s) ∧
        (j.phase = .quiet → u.h0.isQuiet = true → u.h1.isQuiet = true → ∃ t, exec .tileQuiesced s = .next t ∧
          t.dev.ras.job = some { j with phase := .copy } ∧ (t.dev.ras.result = 2 ↔ j.copy = true ∧ u.bad ≠ []) ∧
          (j.copy = true → u.bad = [] → (t.dev.tile j.tile).tmem = u.tmem ∧ (t.dev.tile j.tile).h0 = u.h0 ∧ (t.dev.tile j.tile).h1 = u.h1) ∧
          (j.copy = false → (t.dev.tile j.tile).tmem = [] ∧ (t.dev.half j.tile 0).sregs = [] ∧ (t.dev.half j.tile 0).mode = .idle))) ∧
      (Ready .tileCopyComplete s → (j.phase ≠ .copy → exec .tileCopyComplete s = .next s) ∧
        (j.phase = .copy → ∃ t, exec .tileCopyComplete s = .next t ∧ t.dev.physOf j.tile = j.target ∧ t.dev.physMode j.target = .active ∧
          (∀ k, k ≠ j.tile → t.dev.physOf k = d.physOf k) ∧ t.dev.ras.job = some { j with phase := .clear } ∧
          (r.result = 2 → (t.dev.event evRas).flags.getLsbD 5 = true))) ∧
      (Ready .oldTileCleared s → (j.phase ≠ .clear → exec .oldTileCleared s = .next s) ∧
        (j.phase = .clear → ∃ t, exec .oldTileCleared s = .next t ∧ t.dev.ras.job = none ∧ t.dev.ras.status = 2 ∧ t.dev.physMode j.old = .retired ∧
          (t.dev.event evRas).flags.getLsbD 3 = true ∧ t.dev.ras.tmap = r.tmap)))

/-- Availability (01, 19). -/
def Obligations.Availability : Prop := FaultLogAndBridges ∧ TileRetirement

/-! ## Start-up (20) -/

/-- Power and reset: power comes up with the resets low and everything but the fuses lost; a loss of power and a reset wipe the same, a reset keeping
an open debug port; none of them changes what is burnt (20 R494-R498, Table 2; 16 R426). -/
def PowerAndReset : Prop :=
  ∀ (s : State), let d := s.dev
    (d.boot.powered = true → exec .powerUp s = .next s) ∧
    (d.boot.powered = false → ∃ t, exec .powerUp s = .next t ∧ t.life = { s.life with debugOpen := false } ∧ t.dev.alive = false ∧
      t.dev.boot = { powered := true, resetHigh := false, perstLow := true } ∧ t.dev.regs = {} ∧ t.dev.mem = {} ∧ t.dev.tiles = [] ∧ t.dev.sec = {}) ∧
    (∃ t, exec .powerLoss s = .next t ∧ t.life = { s.life with debugOpen := false } ∧ t.dev.alive = false ∧ t.dev.boot.powered = false ∧
      t.dev.regs = {} ∧ t.dev.mem = {} ∧ t.dev.tiles = [] ∧ t.dev.sec = {} ∧ t.dev.fe = {} ∧ t.dev.pci = {}) ∧
    (d.boot.powered = true → ∃ t, exec .sysReset s = .next t ∧ t.life = s.life ∧ t.dev.alive = false ∧ t.dev.regs = {} ∧ t.dev.ft = {} ∧ t.dev.mem = {} ∧
      t.dev.tiles = [] ∧ t.dev.sec = {} ∧ t.dev.fe = {} ∧ t.dev.step = {} ∧ t.dev.boot.stage = 0 ∧ t.dev.boot.perstLow = d.boot.perstLow ∧
      t.dev.pwr.thermTrip = d.pwr.thermTrip) ∧
    (d.boot.powered = false → exec .sysReset s = .next s)

/-- The start: the boot ROM takes the first copy of the loader that passes, or the other, or stops with its stage; the loader trains the stacks and takes
firmware images; firmware derives its keys, does the repairs, locks its registers and starts the check; configuration then opens the host's
way, and the stage byte can be read throughout (16 R412-R416; 20 R499-R507, Tables 2, 5). -/
def StartUp : Prop :=
  ∀ (s : State), let d := s.dev; let l := s.life
    (∀ fuses flash a b, let c := Instr.sysResetRelease fuses flash a b; let go := d.boot.powered = true ∧ d.boot.stage = 0 ∧ d.pwr.thermTrip = false
      let pa := imageOk l 0 l.loaderSvn a; let pb := imageOk l 0 l.loaderSvn b
      (¬go → exec c s = .next s) ∧
      (go → ∃ t, exec c s = .next t ∧ t.life = l ∧ t.dev.alive = true ∧
        t.dev.boot.stage = (if !fuses then 0x83#8 else if !flash then 0x84#8 else if pa || pb then 2#8 else 0x80#8) ∧
        (fuses = true → t.dev.sec.udsLocked = true ∧ t.dev.meas 3 = measNext (d.meas 3) (shake 64 l.summary)) ∧
        (fuses = true → flash = true → (pa || pb) = true → let im := if pa then a else b
          t.dev.meas 0 = measNext (d.meas 0) (imDigest im) ∧ t.dev.boot.loaderCopy = (if pa then 0 else 1) ∧
          t.dev.sec.cdi = kdf Config.uds "gv-cdi" (t.dev.meas 0 ++ t.dev.meas 3) 64))) ∧
    (∀ st rp fw cfg, let c := Instr.loaderStart st rp fw cfg
      Ready c s → (d.boot.stage ≠ 2 → exec c s = .next s) ∧
      (d.boot.stage = 2 → ∃ t, exec c s = .next t ∧
        t.dev.boot.stage = (if !st || !rp then 0x82#8 else if (pickAll l fw).isSome then 3#8 else 0x81#8) ∧
        (st = true → rp = true → t.dev.mem.hbm = [] ∧ ∀ k < 8, (t.dev.stack k).present = true ∧ (t.dev.stack k).trained = true) ∧
        (st = true → rp = true → (pickAll l fw).isSome = true → t.dev.word offGc = 0x3F#32 ∧
          t.dev.meas 2 = measNext (d.meas 2) (shake 64 cfg)))) ∧
    (∀ reps grs, let c := Instr.firmwareStart reps grs
      Ready c s → (d.boot.stage ≠ 3 → exec c s = .next s) ∧
      (d.boot.stage = 3 → ∃ t, exec c s = .next t ∧ t.dev.boot.firmware = true ∧ t.dev.boot.stage = 6 ∧ t.dev.regs.crcMode = .comparing ∧
        t.dev.sec.aliasKey = kdf d.sec.cdi "gv-alias" [] 57 ∧ t.dev.sec.sealRoot = kdf d.sec.cdi "gv-seal" [] 32)) ∧
    (Ready .pcieConfigReady s → ((d.boot.firmware = false ∨ d.boot.perstLow = true) → exec .pcieConfigReady s = .next s) ∧
      (d.boot.firmware = true → d.boot.perstLow = false → ∃ t, exec .pcieConfigReady s = .next t ∧ t.dev.pci = { d.pci with cfgReady := true } ∧
        (d.boot.stage = 6 → t.dev.boot.stage = (if d.ft.mode = .locked ∨ d.ft.mode = .master then 8#8 else 7#8)) ∧
        (d.boot.stage ≠ 6 → t.dev.boot = d.boot))) ∧
    (Ready .smbusStageRead s → exec .smbusStageRead s = .next { s with dev := d.emit (.smbus d.boot.stage) })

/-- Power, reset and start-up (20). -/
def Obligations.PowerUpAndStart : Prop := PowerAndReset ∧ StartUp
end

