-- ==== Sys2Proof/Laws/State.lean ====
section
/-! SUPPORT. One lemma per block of the volatile state and update: an update of one block leaves every other block as it was. -/
namespace Sys2Proof.Machine

variable (d : Dev)

@[simp] theorem Dev.emit_regs (o : Out) : (d.emit o).regs = d.regs := rfl
@[simp] theorem Dev.emit_ft (o : Out) : (d.emit o).ft = d.ft := rfl
@[simp] theorem Dev.emit_lnk (o : Out) : (d.emit o).lnk = d.lnk := rfl
@[simp] theorem Dev.emit_pci (o : Out) : (d.emit o).pci = d.pci := rfl
@[simp] theorem Dev.emit_boot (o : Out) : (d.emit o).boot = d.boot := rfl
@[simp] theorem Dev.emit_sec (o : Out) : (d.emit o).sec = d.sec := rfl
@[simp] theorem Dev.emit_tiles (o : Out) : (d.emit o).tiles = d.tiles := rfl
@[simp] theorem Dev.emit_mem (o : Out) : (d.emit o).mem = d.mem := rfl
@[simp] theorem Dev.emit_sync (o : Out) : (d.emit o).sync = d.sync := rfl
@[simp] theorem Dev.emit_ras (o : Out) : (d.emit o).ras = d.ras := rfl
@[simp] theorem Dev.emit_eng (o : Out) : (d.emit o).eng = d.eng := rfl
@[simp] theorem Dev.emit_fe (o : Out) : (d.emit o).fe = d.fe := rfl
@[simp] theorem Dev.emit_step (o : Out) : (d.emit o).step = d.step := rfl
@[simp] theorem Dev.emit_gc (o : Out) : (d.emit o).gc = d.gc := rfl
@[simp] theorem Dev.emit_ing (o : Out) : (d.emit o).ing = d.ing := rfl
@[simp] theorem Dev.emit_pwr (o : Out) : (d.emit o).pwr = d.pwr := rfl
@[simp] theorem Dev.emit_wins (o : Out) : (d.emit o).wins = d.wins := rfl
@[simp] theorem Dev.emit_free (o : Out) : (d.emit o).free = d.free := rfl
@[simp] theorem Dev.emit_clk (o : Out) : (d.emit o).clk = d.clk := rfl
@[simp] theorem Dev.setWord_ft (a : Nat) (w : W32) : (d.setWord a w).ft = d.ft := rfl
@[simp] theorem Dev.setWord_lnk (a : Nat) (w : W32) : (d.setWord a w).lnk = d.lnk := rfl
@[simp] theorem Dev.setWord_pci (a : Nat) (w : W32) : (d.setWord a w).pci = d.pci := rfl
@[simp] theorem Dev.setWord_boot (a : Nat) (w : W32) : (d.setWord a w).boot = d.boot := rfl
@[simp] theorem Dev.setWord_sec (a : Nat) (w : W32) : (d.setWord a w).sec = d.sec := rfl
@[simp] theorem Dev.setWord_tiles (a : Nat) (w : W32) : (d.setWord a w).tiles = d.tiles := rfl
@[simp] theorem Dev.setWord_mem (a : Nat) (w : W32) : (d.setWord a w).mem = d.mem := rfl
@[simp] theorem Dev.setWord_sync (a : Nat) (w : W32) : (d.setWord a w).sync = d.sync := rfl
@[simp] theorem Dev.setWord_ras (a : Nat) (w : W32) : (d.setWord a w).ras = d.ras := rfl
@[simp] theorem Dev.setWord_eng (a : Nat) (w : W32) : (d.setWord a w).eng = d.eng := rfl
@[simp] theorem Dev.setWord_fe (a : Nat) (w : W32) : (d.setWord a w).fe = d.fe := rfl
@[simp] theorem Dev.setWord_step (a : Nat) (w : W32) : (d.setWord a w).step = d.step := rfl
@[simp] theorem Dev.setWord_gc (a : Nat) (w : W32) : (d.setWord a w).gc = d.gc := rfl
@[simp] theorem Dev.setWord_ing (a : Nat) (w : W32) : (d.setWord a w).ing = d.ing := rfl
@[simp] theorem Dev.setWord_pwr (a : Nat) (w : W32) : (d.setWord a w).pwr = d.pwr := rfl
@[simp] theorem Dev.setWord_wins (a : Nat) (w : W32) : (d.setWord a w).wins = d.wins := rfl
@[simp] theorem Dev.setWord_out (a : Nat) (w : W32) : (d.setWord a w).out = d.out := rfl
@[simp] theorem Dev.setWord_free (a : Nat) (w : W32) : (d.setWord a w).free = d.free := rfl
@[simp] theorem Dev.setWord_clk (a : Nat) (w : W32) : (d.setWord a w).clk = d.clk := rfl
@[simp] theorem Dev.putEvent_ft (a : Nat) (e : EventReg) : (d.putEvent a e).ft = d.ft := rfl
@[simp] theorem Dev.putEvent_lnk (a : Nat) (e : EventReg) : (d.putEvent a e).lnk = d.lnk := rfl
@[simp] theorem Dev.putEvent_pci (a : Nat) (e : EventReg) : (d.putEvent a e).pci = d.pci := rfl
@[simp] theorem Dev.putEvent_boot (a : Nat) (e : EventReg) : (d.putEvent a e).boot = d.boot := rfl
@[simp] theorem Dev.putEvent_sec (a : Nat) (e : EventReg) : (d.putEvent a e).sec = d.sec := rfl
@[simp] theorem Dev.putEvent_tiles (a : Nat) (e : EventReg) : (d.putEvent a e).tiles = d.tiles := rfl
@[simp] theorem Dev.putEvent_mem (a : Nat) (e : EventReg) : (d.putEvent a e).mem = d.mem := rfl
@[simp] theorem Dev.putEvent_sync (a : Nat) (e : EventReg) : (d.putEvent a e).sync = d.sync := rfl
@[simp] theorem Dev.putEvent_ras (a : Nat) (e : EventReg) : (d.putEvent a e).ras = d.ras := rfl
@[simp] theorem Dev.putEvent_eng (a : Nat) (e : EventReg) : (d.putEvent a e).eng = d.eng := rfl
@[simp] theorem Dev.putEvent_fe (a : Nat) (e : EventReg) : (d.putEvent a e).fe = d.fe := rfl
@[simp] theorem Dev.putEvent_step (a : Nat) (e : EventReg) : (d.putEvent a e).step = d.step := rfl
@[simp] theorem Dev.putEvent_gc (a : Nat) (e : EventReg) : (d.putEvent a e).gc = d.gc := rfl
@[simp] theorem Dev.putEvent_ing (a : Nat) (e : EventReg) : (d.putEvent a e).ing = d.ing := rfl
@[simp] theorem Dev.putEvent_pwr (a : Nat) (e : EventReg) : (d.putEvent a e).pwr = d.pwr := rfl
@[simp] theorem Dev.putEvent_wins (a : Nat) (e : EventReg) : (d.putEvent a e).wins = d.wins := rfl
@[simp] theorem Dev.putEvent_out (a : Nat) (e : EventReg) : (d.putEvent a e).out = d.out := rfl
@[simp] theorem Dev.putEvent_free (a : Nat) (e : EventReg) : (d.putEvent a e).free = d.free := rfl
@[simp] theorem Dev.putEvent_clk (a : Nat) (e : EventReg) : (d.putEvent a e).clk = d.clk := rfl
@[simp] theorem Dev.dropShadow_ft (r : Req) : (d.dropShadow r).ft = d.ft := rfl
@[simp] theorem Dev.dropShadow_lnk (r : Req) : (d.dropShadow r).lnk = d.lnk := rfl
@[simp] theorem Dev.dropShadow_pci (r : Req) : (d.dropShadow r).pci = d.pci := rfl
@[simp] theorem Dev.dropShadow_boot (r : Req) : (d.dropShadow r).boot = d.boot := rfl
@[simp] theorem Dev.dropShadow_sec (r : Req) : (d.dropShadow r).sec = d.sec := rfl
@[simp] theorem Dev.dropShadow_tiles (r : Req) : (d.dropShadow r).tiles = d.tiles := rfl
@[simp] theorem Dev.dropShadow_mem (r : Req) : (d.dropShadow r).mem = d.mem := rfl
@[simp] theorem Dev.dropShadow_sync (r : Req) : (d.dropShadow r).sync = d.sync := rfl
@[simp] theorem Dev.dropShadow_ras (r : Req) : (d.dropShadow r).ras = d.ras := rfl
@[simp] theorem Dev.dropShadow_eng (r : Req) : (d.dropShadow r).eng = d.eng := rfl
@[simp] theorem Dev.dropShadow_fe (r : Req) : (d.dropShadow r).fe = d.fe := rfl
@[simp] theorem Dev.dropShadow_step (r : Req) : (d.dropShadow r).step = d.step := rfl
@[simp] theorem Dev.dropShadow_gc (r : Req) : (d.dropShadow r).gc = d.gc := rfl
@[simp] theorem Dev.dropShadow_ing (r : Req) : (d.dropShadow r).ing = d.ing := rfl
@[simp] theorem Dev.dropShadow_pwr (r : Req) : (d.dropShadow r).pwr = d.pwr := rfl
@[simp] theorem Dev.dropShadow_wins (r : Req) : (d.dropShadow r).wins = d.wins := rfl
@[simp] theorem Dev.dropShadow_out (r : Req) : (d.dropShadow r).out = d.out := rfl
@[simp] theorem Dev.dropShadow_free (r : Req) : (d.dropShadow r).free = d.free := rfl
@[simp] theorem Dev.dropShadow_clk (r : Req) : (d.dropShadow r).clk = d.clk := rfl
@[simp] theorem Dev.setBit_ft (a i : Nat) (b : Bool) : (d.setBit a i b).ft = d.ft := rfl
@[simp] theorem Dev.setBit_lnk (a i : Nat) (b : Bool) : (d.setBit a i b).lnk = d.lnk := rfl
@[simp] theorem Dev.setBit_pci (a i : Nat) (b : Bool) : (d.setBit a i b).pci = d.pci := rfl
@[simp] theorem Dev.setBit_boot (a i : Nat) (b : Bool) : (d.setBit a i b).boot = d.boot := rfl
@[simp] theorem Dev.setBit_sec (a i : Nat) (b : Bool) : (d.setBit a i b).sec = d.sec := rfl
@[simp] theorem Dev.setBit_tiles (a i : Nat) (b : Bool) : (d.setBit a i b).tiles = d.tiles := rfl
@[simp] theorem Dev.setBit_mem (a i : Nat) (b : Bool) : (d.setBit a i b).mem = d.mem := rfl
@[simp] theorem Dev.setBit_sync (a i : Nat) (b : Bool) : (d.setBit a i b).sync = d.sync := rfl
@[simp] theorem Dev.setBit_ras (a i : Nat) (b : Bool) : (d.setBit a i b).ras = d.ras := rfl
@[simp] theorem Dev.setBit_eng (a i : Nat) (b : Bool) : (d.setBit a i b).eng = d.eng := rfl
@[simp] theorem Dev.setBit_fe (a i : Nat) (b : Bool) : (d.setBit a i b).fe = d.fe := rfl
@[simp] theorem Dev.setBit_step (a i : Nat) (b : Bool) : (d.setBit a i b).step = d.step := rfl
@[simp] theorem Dev.setBit_gc (a i : Nat) (b : Bool) : (d.setBit a i b).gc = d.gc := rfl
@[simp] theorem Dev.setBit_ing (a i : Nat) (b : Bool) : (d.setBit a i b).ing = d.ing := rfl
@[simp] theorem Dev.setBit_pwr (a i : Nat) (b : Bool) : (d.setBit a i b).pwr = d.pwr := rfl
@[simp] theorem Dev.setBit_wins (a i : Nat) (b : Bool) : (d.setBit a i b).wins = d.wins := rfl
@[simp] theorem Dev.setBit_out (a i : Nat) (b : Bool) : (d.setBit a i b).out = d.out := rfl
@[simp] theorem Dev.setBit_free (a i : Nat) (b : Bool) : (d.setBit a i b).free = d.free := rfl
@[simp] theorem Dev.setBit_clk (a i : Nat) (b : Bool) : (d.setBit a i b).clk = d.clk := rfl
@[simp] theorem Dev.modFt_regs (f : FtState → FtState) : (d.modFt f).regs = d.regs := rfl
@[simp] theorem Dev.modFt_lnk (f : FtState → FtState) : (d.modFt f).lnk = d.lnk := rfl
@[simp] theorem Dev.modFt_pci (f : FtState → FtState) : (d.modFt f).pci = d.pci := rfl
@[simp] theorem Dev.modFt_boot (f : FtState → FtState) : (d.modFt f).boot = d.boot := rfl
@[simp] theorem Dev.modFt_sec (f : FtState → FtState) : (d.modFt f).sec = d.sec := rfl
@[simp] theorem Dev.modFt_tiles (f : FtState → FtState) : (d.modFt f).tiles = d.tiles := rfl
@[simp] theorem Dev.modFt_mem (f : FtState → FtState) : (d.modFt f).mem = d.mem := rfl
@[simp] theorem Dev.modFt_sync (f : FtState → FtState) : (d.modFt f).sync = d.sync := rfl
@[simp] theorem Dev.modFt_ras (f : FtState → FtState) : (d.modFt f).ras = d.ras := rfl
@[simp] theorem Dev.modFt_eng (f : FtState → FtState) : (d.modFt f).eng = d.eng := rfl
@[simp] theorem Dev.modFt_fe (f : FtState → FtState) : (d.modFt f).fe = d.fe := rfl
@[simp] theorem Dev.modFt_step (f : FtState → FtState) : (d.modFt f).step = d.step := rfl
@[simp] theorem Dev.modFt_gc (f : FtState → FtState) : (d.modFt f).gc = d.gc := rfl
@[simp] theorem Dev.modFt_ing (f : FtState → FtState) : (d.modFt f).ing = d.ing := rfl
@[simp] theorem Dev.modFt_pwr (f : FtState → FtState) : (d.modFt f).pwr = d.pwr := rfl
@[simp] theorem Dev.modFt_wins (f : FtState → FtState) : (d.modFt f).wins = d.wins := rfl
@[simp] theorem Dev.modFt_out (f : FtState → FtState) : (d.modFt f).out = d.out := rfl
@[simp] theorem Dev.modFt_free (f : FtState → FtState) : (d.modFt f).free = d.free := rfl
@[simp] theorem Dev.modFt_clk (f : FtState → FtState) : (d.modFt f).clk = d.clk := rfl
@[simp] theorem Dev.modLnk_regs (f : LinkState → LinkState) : (d.modLnk f).regs = d.regs := rfl
@[simp] theorem Dev.modLnk_ft (f : LinkState → LinkState) : (d.modLnk f).ft = d.ft := rfl
@[simp] theorem Dev.modLnk_pci (f : LinkState → LinkState) : (d.modLnk f).pci = d.pci := rfl
@[simp] theorem Dev.modLnk_boot (f : LinkState → LinkState) : (d.modLnk f).boot = d.boot := rfl
@[simp] theorem Dev.modLnk_sec (f : LinkState → LinkState) : (d.modLnk f).sec = d.sec := rfl
@[simp] theorem Dev.modLnk_tiles (f : LinkState → LinkState) : (d.modLnk f).tiles = d.tiles := rfl
@[simp] theorem Dev.modLnk_mem (f : LinkState → LinkState) : (d.modLnk f).mem = d.mem := rfl
@[simp] theorem Dev.modLnk_sync (f : LinkState → LinkState) : (d.modLnk f).sync = d.sync := rfl
@[simp] theorem Dev.modLnk_ras (f : LinkState → LinkState) : (d.modLnk f).ras = d.ras := rfl
@[simp] theorem Dev.modLnk_eng (f : LinkState → LinkState) : (d.modLnk f).eng = d.eng := rfl
@[simp] theorem Dev.modLnk_fe (f : LinkState → LinkState) : (d.modLnk f).fe = d.fe := rfl
@[simp] theorem Dev.modLnk_step (f : LinkState → LinkState) : (d.modLnk f).step = d.step := rfl
@[simp] theorem Dev.modLnk_gc (f : LinkState → LinkState) : (d.modLnk f).gc = d.gc := rfl
@[simp] theorem Dev.modLnk_ing (f : LinkState → LinkState) : (d.modLnk f).ing = d.ing := rfl
@[simp] theorem Dev.modLnk_pwr (f : LinkState → LinkState) : (d.modLnk f).pwr = d.pwr := rfl
@[simp] theorem Dev.modLnk_wins (f : LinkState → LinkState) : (d.modLnk f).wins = d.wins := rfl
@[simp] theorem Dev.modLnk_out (f : LinkState → LinkState) : (d.modLnk f).out = d.out := rfl
@[simp] theorem Dev.modLnk_free (f : LinkState → LinkState) : (d.modLnk f).free = d.free := rfl
@[simp] theorem Dev.modLnk_clk (f : LinkState → LinkState) : (d.modLnk f).clk = d.clk := rfl
@[simp] theorem Dev.putPort_regs (p : Nat) (x : PortState) : (d.putPort p x).regs = d.regs := rfl
@[simp] theorem Dev.putPort_ft (p : Nat) (x : PortState) : (d.putPort p x).ft = d.ft := rfl
@[simp] theorem Dev.putPort_pci (p : Nat) (x : PortState) : (d.putPort p x).pci = d.pci := rfl
@[simp] theorem Dev.putPort_boot (p : Nat) (x : PortState) : (d.putPort p x).boot = d.boot := rfl
@[simp] theorem Dev.putPort_sec (p : Nat) (x : PortState) : (d.putPort p x).sec = d.sec := rfl
@[simp] theorem Dev.putPort_tiles (p : Nat) (x : PortState) : (d.putPort p x).tiles = d.tiles := rfl
@[simp] theorem Dev.putPort_mem (p : Nat) (x : PortState) : (d.putPort p x).mem = d.mem := rfl
@[simp] theorem Dev.putPort_sync (p : Nat) (x : PortState) : (d.putPort p x).sync = d.sync := rfl
@[simp] theorem Dev.putPort_ras (p : Nat) (x : PortState) : (d.putPort p x).ras = d.ras := rfl
@[simp] theorem Dev.putPort_eng (p : Nat) (x : PortState) : (d.putPort p x).eng = d.eng := rfl
@[simp] theorem Dev.putPort_fe (p : Nat) (x : PortState) : (d.putPort p x).fe = d.fe := rfl
@[simp] theorem Dev.putPort_step (p : Nat) (x : PortState) : (d.putPort p x).step = d.step := rfl
@[simp] theorem Dev.putPort_gc (p : Nat) (x : PortState) : (d.putPort p x).gc = d.gc := rfl
@[simp] theorem Dev.putPort_ing (p : Nat) (x : PortState) : (d.putPort p x).ing = d.ing := rfl
@[simp] theorem Dev.putPort_pwr (p : Nat) (x : PortState) : (d.putPort p x).pwr = d.pwr := rfl
@[simp] theorem Dev.putPort_wins (p : Nat) (x : PortState) : (d.putPort p x).wins = d.wins := rfl
@[simp] theorem Dev.putPort_out (p : Nat) (x : PortState) : (d.putPort p x).out = d.out := rfl
@[simp] theorem Dev.putPort_free (p : Nat) (x : PortState) : (d.putPort p x).free = d.free := rfl
@[simp] theorem Dev.putPort_clk (p : Nat) (x : PortState) : (d.putPort p x).clk = d.clk := rfl
@[simp] theorem Dev.modPort_regs (p : Nat) (f : PortState → PortState) : (d.modPort p f).regs = d.regs := rfl
@[simp] theorem Dev.modPort_ft (p : Nat) (f : PortState → PortState) : (d.modPort p f).ft = d.ft := rfl
@[simp] theorem Dev.modPort_pci (p : Nat) (f : PortState → PortState) : (d.modPort p f).pci = d.pci := rfl
@[simp] theorem Dev.modPort_boot (p : Nat) (f : PortState → PortState) : (d.modPort p f).boot = d.boot := rfl
@[simp] theorem Dev.modPort_sec (p : Nat) (f : PortState → PortState) : (d.modPort p f).sec = d.sec := rfl
@[simp] theorem Dev.modPort_tiles (p : Nat) (f : PortState → PortState) : (d.modPort p f).tiles = d.tiles := rfl
@[simp] theorem Dev.modPort_mem (p : Nat) (f : PortState → PortState) : (d.modPort p f).mem = d.mem := rfl
@[simp] theorem Dev.modPort_sync (p : Nat) (f : PortState → PortState) : (d.modPort p f).sync = d.sync := rfl
@[simp] theorem Dev.modPort_ras (p : Nat) (f : PortState → PortState) : (d.modPort p f).ras = d.ras := rfl
@[simp] theorem Dev.modPort_eng (p : Nat) (f : PortState → PortState) : (d.modPort p f).eng = d.eng := rfl
@[simp] theorem Dev.modPort_fe (p : Nat) (f : PortState → PortState) : (d.modPort p f).fe = d.fe := rfl
@[simp] theorem Dev.modPort_step (p : Nat) (f : PortState → PortState) : (d.modPort p f).step = d.step := rfl
@[simp] theorem Dev.modPort_gc (p : Nat) (f : PortState → PortState) : (d.modPort p f).gc = d.gc := rfl
@[simp] theorem Dev.modPort_ing (p : Nat) (f : PortState → PortState) : (d.modPort p f).ing = d.ing := rfl
@[simp] theorem Dev.modPort_pwr (p : Nat) (f : PortState → PortState) : (d.modPort p f).pwr = d.pwr := rfl
@[simp] theorem Dev.modPort_wins (p : Nat) (f : PortState → PortState) : (d.modPort p f).wins = d.wins := rfl
@[simp] theorem Dev.modPort_out (p : Nat) (f : PortState → PortState) : (d.modPort p f).out = d.out := rfl
@[simp] theorem Dev.modPort_free (p : Nat) (f : PortState → PortState) : (d.modPort p f).free = d.free := rfl
@[simp] theorem Dev.modPort_clk (p : Nat) (f : PortState → PortState) : (d.modPort p f).clk = d.clk := rfl
@[simp] theorem Dev.modPci_regs (f : PciState → PciState) : (d.modPci f).regs = d.regs := rfl
@[simp] theorem Dev.modPci_ft (f : PciState → PciState) : (d.modPci f).ft = d.ft := rfl
@[simp] theorem Dev.modPci_lnk (f : PciState → PciState) : (d.modPci f).lnk = d.lnk := rfl
@[simp] theorem Dev.modPci_boot (f : PciState → PciState) : (d.modPci f).boot = d.boot := rfl
@[simp] theorem Dev.modPci_sec (f : PciState → PciState) : (d.modPci f).sec = d.sec := rfl
@[simp] theorem Dev.modPci_tiles (f : PciState → PciState) : (d.modPci f).tiles = d.tiles := rfl
@[simp] theorem Dev.modPci_mem (f : PciState → PciState) : (d.modPci f).mem = d.mem := rfl
@[simp] theorem Dev.modPci_sync (f : PciState → PciState) : (d.modPci f).sync = d.sync := rfl
@[simp] theorem Dev.modPci_ras (f : PciState → PciState) : (d.modPci f).ras = d.ras := rfl
@[simp] theorem Dev.modPci_eng (f : PciState → PciState) : (d.modPci f).eng = d.eng := rfl
@[simp] theorem Dev.modPci_fe (f : PciState → PciState) : (d.modPci f).fe = d.fe := rfl
@[simp] theorem Dev.modPci_step (f : PciState → PciState) : (d.modPci f).step = d.step := rfl
@[simp] theorem Dev.modPci_gc (f : PciState → PciState) : (d.modPci f).gc = d.gc := rfl
@[simp] theorem Dev.modPci_ing (f : PciState → PciState) : (d.modPci f).ing = d.ing := rfl
@[simp] theorem Dev.modPci_pwr (f : PciState → PciState) : (d.modPci f).pwr = d.pwr := rfl
@[simp] theorem Dev.modPci_wins (f : PciState → PciState) : (d.modPci f).wins = d.wins := rfl
@[simp] theorem Dev.modPci_out (f : PciState → PciState) : (d.modPci f).out = d.out := rfl
@[simp] theorem Dev.modPci_free (f : PciState → PciState) : (d.modPci f).free = d.free := rfl
@[simp] theorem Dev.modPci_clk (f : PciState → PciState) : (d.modPci f).clk = d.clk := rfl
@[simp] theorem Dev.modFunc_regs (i : Nat) (f : FuncCfg → FuncCfg) : (d.modFunc i f).regs = d.regs := rfl
@[simp] theorem Dev.modFunc_ft (i : Nat) (f : FuncCfg → FuncCfg) : (d.modFunc i f).ft = d.ft := rfl
@[simp] theorem Dev.modFunc_lnk (i : Nat) (f : FuncCfg → FuncCfg) : (d.modFunc i f).lnk = d.lnk := rfl
@[simp] theorem Dev.modFunc_boot (i : Nat) (f : FuncCfg → FuncCfg) : (d.modFunc i f).boot = d.boot := rfl
@[simp] theorem Dev.modFunc_sec (i : Nat) (f : FuncCfg → FuncCfg) : (d.modFunc i f).sec = d.sec := rfl
@[simp] theorem Dev.modFunc_tiles (i : Nat) (f : FuncCfg → FuncCfg) : (d.modFunc i f).tiles = d.tiles := rfl
@[simp] theorem Dev.modFunc_mem (i : Nat) (f : FuncCfg → FuncCfg) : (d.modFunc i f).mem = d.mem := rfl
@[simp] theorem Dev.modFunc_sync (i : Nat) (f : FuncCfg → FuncCfg) : (d.modFunc i f).sync = d.sync := rfl
@[simp] theorem Dev.modFunc_ras (i : Nat) (f : FuncCfg → FuncCfg) : (d.modFunc i f).ras = d.ras := rfl
@[simp] theorem Dev.modFunc_eng (i : Nat) (f : FuncCfg → FuncCfg) : (d.modFunc i f).eng = d.eng := rfl
@[simp] theorem Dev.modFunc_fe (i : Nat) (f : FuncCfg → FuncCfg) : (d.modFunc i f).fe = d.fe := rfl
@[simp] theorem Dev.modFunc_step (i : Nat) (f : FuncCfg → FuncCfg) : (d.modFunc i f).step = d.step := rfl
@[simp] theorem Dev.modFunc_gc (i : Nat) (f : FuncCfg → FuncCfg) : (d.modFunc i f).gc = d.gc := rfl
@[simp] theorem Dev.modFunc_ing (i : Nat) (f : FuncCfg → FuncCfg) : (d.modFunc i f).ing = d.ing := rfl
@[simp] theorem Dev.modFunc_pwr (i : Nat) (f : FuncCfg → FuncCfg) : (d.modFunc i f).pwr = d.pwr := rfl
@[simp] theorem Dev.modFunc_wins (i : Nat) (f : FuncCfg → FuncCfg) : (d.modFunc i f).wins = d.wins := rfl
@[simp] theorem Dev.modFunc_out (i : Nat) (f : FuncCfg → FuncCfg) : (d.modFunc i f).out = d.out := rfl
@[simp] theorem Dev.modFunc_free (i : Nat) (f : FuncCfg → FuncCfg) : (d.modFunc i f).free = d.free := rfl
@[simp] theorem Dev.modFunc_clk (i : Nat) (f : FuncCfg → FuncCfg) : (d.modFunc i f).clk = d.clk := rfl
@[simp] theorem Dev.setTdi_regs (c : Nat) (x : Tdi) : (d.setTdi c x).regs = d.regs := rfl
@[simp] theorem Dev.setTdi_ft (c : Nat) (x : Tdi) : (d.setTdi c x).ft = d.ft := rfl
@[simp] theorem Dev.setTdi_lnk (c : Nat) (x : Tdi) : (d.setTdi c x).lnk = d.lnk := rfl
@[simp] theorem Dev.setTdi_boot (c : Nat) (x : Tdi) : (d.setTdi c x).boot = d.boot := rfl
@[simp] theorem Dev.setTdi_sec (c : Nat) (x : Tdi) : (d.setTdi c x).sec = d.sec := rfl
@[simp] theorem Dev.setTdi_tiles (c : Nat) (x : Tdi) : (d.setTdi c x).tiles = d.tiles := rfl
@[simp] theorem Dev.setTdi_mem (c : Nat) (x : Tdi) : (d.setTdi c x).mem = d.mem := rfl
@[simp] theorem Dev.setTdi_sync (c : Nat) (x : Tdi) : (d.setTdi c x).sync = d.sync := rfl
@[simp] theorem Dev.setTdi_ras (c : Nat) (x : Tdi) : (d.setTdi c x).ras = d.ras := rfl
@[simp] theorem Dev.setTdi_eng (c : Nat) (x : Tdi) : (d.setTdi c x).eng = d.eng := rfl
@[simp] theorem Dev.setTdi_fe (c : Nat) (x : Tdi) : (d.setTdi c x).fe = d.fe := rfl
@[simp] theorem Dev.setTdi_step (c : Nat) (x : Tdi) : (d.setTdi c x).step = d.step := rfl
@[simp] theorem Dev.setTdi_gc (c : Nat) (x : Tdi) : (d.setTdi c x).gc = d.gc := rfl
@[simp] theorem Dev.setTdi_ing (c : Nat) (x : Tdi) : (d.setTdi c x).ing = d.ing := rfl
@[simp] theorem Dev.setTdi_pwr (c : Nat) (x : Tdi) : (d.setTdi c x).pwr = d.pwr := rfl
@[simp] theorem Dev.setTdi_wins (c : Nat) (x : Tdi) : (d.setTdi c x).wins = d.wins := rfl
@[simp] theorem Dev.setTdi_out (c : Nat) (x : Tdi) : (d.setTdi c x).out = d.out := rfl
@[simp] theorem Dev.setTdi_free (c : Nat) (x : Tdi) : (d.setTdi c x).free = d.free := rfl
@[simp] theorem Dev.setTdi_clk (c : Nat) (x : Tdi) : (d.setTdi c x).clk = d.clk := rfl
@[simp] theorem Dev.aerSet_regs (i : Nat) : (d.aerSet i).regs = d.regs := rfl
@[simp] theorem Dev.aerSet_ft (i : Nat) : (d.aerSet i).ft = d.ft := rfl
@[simp] theorem Dev.aerSet_lnk (i : Nat) : (d.aerSet i).lnk = d.lnk := rfl
@[simp] theorem Dev.aerSet_boot (i : Nat) : (d.aerSet i).boot = d.boot := rfl
@[simp] theorem Dev.aerSet_sec (i : Nat) : (d.aerSet i).sec = d.sec := rfl
@[simp] theorem Dev.aerSet_tiles (i : Nat) : (d.aerSet i).tiles = d.tiles := rfl
@[simp] theorem Dev.aerSet_mem (i : Nat) : (d.aerSet i).mem = d.mem := rfl
@[simp] theorem Dev.aerSet_sync (i : Nat) : (d.aerSet i).sync = d.sync := rfl
@[simp] theorem Dev.aerSet_ras (i : Nat) : (d.aerSet i).ras = d.ras := rfl
@[simp] theorem Dev.aerSet_eng (i : Nat) : (d.aerSet i).eng = d.eng := rfl
@[simp] theorem Dev.aerSet_fe (i : Nat) : (d.aerSet i).fe = d.fe := rfl
@[simp] theorem Dev.aerSet_step (i : Nat) : (d.aerSet i).step = d.step := rfl
@[simp] theorem Dev.aerSet_gc (i : Nat) : (d.aerSet i).gc = d.gc := rfl
@[simp] theorem Dev.aerSet_ing (i : Nat) : (d.aerSet i).ing = d.ing := rfl
@[simp] theorem Dev.aerSet_pwr (i : Nat) : (d.aerSet i).pwr = d.pwr := rfl
@[simp] theorem Dev.aerSet_wins (i : Nat) : (d.aerSet i).wins = d.wins := rfl
@[simp] theorem Dev.aerSet_out (i : Nat) : (d.aerSet i).out = d.out := rfl
@[simp] theorem Dev.aerSet_free (i : Nat) : (d.aerSet i).free = d.free := rfl
@[simp] theorem Dev.aerSet_clk (i : Nat) : (d.aerSet i).clk = d.clk := rfl
@[simp] theorem Dev.setStage_regs (n : Nat) : (d.setStage n).regs = d.regs := rfl
@[simp] theorem Dev.setStage_ft (n : Nat) : (d.setStage n).ft = d.ft := rfl
@[simp] theorem Dev.setStage_lnk (n : Nat) : (d.setStage n).lnk = d.lnk := rfl
@[simp] theorem Dev.setStage_pci (n : Nat) : (d.setStage n).pci = d.pci := rfl
@[simp] theorem Dev.setStage_sec (n : Nat) : (d.setStage n).sec = d.sec := rfl
@[simp] theorem Dev.setStage_tiles (n : Nat) : (d.setStage n).tiles = d.tiles := rfl
@[simp] theorem Dev.setStage_mem (n : Nat) : (d.setStage n).mem = d.mem := rfl
@[simp] theorem Dev.setStage_sync (n : Nat) : (d.setStage n).sync = d.sync := rfl
@[simp] theorem Dev.setStage_ras (n : Nat) : (d.setStage n).ras = d.ras := rfl
@[simp] theorem Dev.setStage_eng (n : Nat) : (d.setStage n).eng = d.eng := rfl
@[simp] theorem Dev.setStage_fe (n : Nat) : (d.setStage n).fe = d.fe := rfl
@[simp] theorem Dev.setStage_step (n : Nat) : (d.setStage n).step = d.step := rfl
@[simp] theorem Dev.setStage_gc (n : Nat) : (d.setStage n).gc = d.gc := rfl
@[simp] theorem Dev.setStage_ing (n : Nat) : (d.setStage n).ing = d.ing := rfl
@[simp] theorem Dev.setStage_pwr (n : Nat) : (d.setStage n).pwr = d.pwr := rfl
@[simp] theorem Dev.setStage_wins (n : Nat) : (d.setStage n).wins = d.wins := rfl
@[simp] theorem Dev.setStage_out (n : Nat) : (d.setStage n).out = d.out := rfl
@[simp] theorem Dev.setStage_free (n : Nat) : (d.setStage n).free = d.free := rfl
@[simp] theorem Dev.setStage_clk (n : Nat) : (d.setStage n).clk = d.clk := rfl
@[simp] theorem Dev.modSec_regs (f : SecState → SecState) : (d.modSec f).regs = d.regs := rfl
@[simp] theorem Dev.modSec_ft (f : SecState → SecState) : (d.modSec f).ft = d.ft := rfl
@[simp] theorem Dev.modSec_lnk (f : SecState → SecState) : (d.modSec f).lnk = d.lnk := rfl
@[simp] theorem Dev.modSec_pci (f : SecState → SecState) : (d.modSec f).pci = d.pci := rfl
@[simp] theorem Dev.modSec_boot (f : SecState → SecState) : (d.modSec f).boot = d.boot := rfl
@[simp] theorem Dev.modSec_tiles (f : SecState → SecState) : (d.modSec f).tiles = d.tiles := rfl
@[simp] theorem Dev.modSec_mem (f : SecState → SecState) : (d.modSec f).mem = d.mem := rfl
@[simp] theorem Dev.modSec_sync (f : SecState → SecState) : (d.modSec f).sync = d.sync := rfl
@[simp] theorem Dev.modSec_ras (f : SecState → SecState) : (d.modSec f).ras = d.ras := rfl
@[simp] theorem Dev.modSec_eng (f : SecState → SecState) : (d.modSec f).eng = d.eng := rfl
@[simp] theorem Dev.modSec_fe (f : SecState → SecState) : (d.modSec f).fe = d.fe := rfl
@[simp] theorem Dev.modSec_step (f : SecState → SecState) : (d.modSec f).step = d.step := rfl
@[simp] theorem Dev.modSec_gc (f : SecState → SecState) : (d.modSec f).gc = d.gc := rfl
@[simp] theorem Dev.modSec_ing (f : SecState → SecState) : (d.modSec f).ing = d.ing := rfl
@[simp] theorem Dev.modSec_pwr (f : SecState → SecState) : (d.modSec f).pwr = d.pwr := rfl
@[simp] theorem Dev.modSec_wins (f : SecState → SecState) : (d.modSec f).wins = d.wins := rfl
@[simp] theorem Dev.modSec_out (f : SecState → SecState) : (d.modSec f).out = d.out := rfl
@[simp] theorem Dev.modSec_free (f : SecState → SecState) : (d.modSec f).free = d.free := rfl
@[simp] theorem Dev.modSec_clk (f : SecState → SecState) : (d.modSec f).clk = d.clk := rfl
@[simp] theorem Dev.putTile_regs (t : Nat) (x : TileState) : (d.putTile t x).regs = d.regs := rfl
@[simp] theorem Dev.putTile_ft (t : Nat) (x : TileState) : (d.putTile t x).ft = d.ft := rfl
@[simp] theorem Dev.putTile_lnk (t : Nat) (x : TileState) : (d.putTile t x).lnk = d.lnk := rfl
@[simp] theorem Dev.putTile_pci (t : Nat) (x : TileState) : (d.putTile t x).pci = d.pci := rfl
@[simp] theorem Dev.putTile_boot (t : Nat) (x : TileState) : (d.putTile t x).boot = d.boot := rfl
@[simp] theorem Dev.putTile_sec (t : Nat) (x : TileState) : (d.putTile t x).sec = d.sec := rfl
@[simp] theorem Dev.putTile_mem (t : Nat) (x : TileState) : (d.putTile t x).mem = d.mem := rfl
@[simp] theorem Dev.putTile_sync (t : Nat) (x : TileState) : (d.putTile t x).sync = d.sync := rfl
@[simp] theorem Dev.putTile_ras (t : Nat) (x : TileState) : (d.putTile t x).ras = d.ras := rfl
@[simp] theorem Dev.putTile_eng (t : Nat) (x : TileState) : (d.putTile t x).eng = d.eng := rfl
@[simp] theorem Dev.putTile_fe (t : Nat) (x : TileState) : (d.putTile t x).fe = d.fe := rfl
@[simp] theorem Dev.putTile_step (t : Nat) (x : TileState) : (d.putTile t x).step = d.step := rfl
@[simp] theorem Dev.putTile_gc (t : Nat) (x : TileState) : (d.putTile t x).gc = d.gc := rfl
@[simp] theorem Dev.putTile_ing (t : Nat) (x : TileState) : (d.putTile t x).ing = d.ing := rfl
@[simp] theorem Dev.putTile_pwr (t : Nat) (x : TileState) : (d.putTile t x).pwr = d.pwr := rfl
@[simp] theorem Dev.putTile_wins (t : Nat) (x : TileState) : (d.putTile t x).wins = d.wins := rfl
@[simp] theorem Dev.putTile_out (t : Nat) (x : TileState) : (d.putTile t x).out = d.out := rfl
@[simp] theorem Dev.putTile_free (t : Nat) (x : TileState) : (d.putTile t x).free = d.free := rfl
@[simp] theorem Dev.putTile_clk (t : Nat) (x : TileState) : (d.putTile t x).clk = d.clk := rfl
@[simp] theorem Dev.modTile_regs (t : Nat) (f : TileState → TileState) : (d.modTile t f).regs = d.regs := rfl
@[simp] theorem Dev.modTile_ft (t : Nat) (f : TileState → TileState) : (d.modTile t f).ft = d.ft := rfl
@[simp] theorem Dev.modTile_lnk (t : Nat) (f : TileState → TileState) : (d.modTile t f).lnk = d.lnk := rfl
@[simp] theorem Dev.modTile_pci (t : Nat) (f : TileState → TileState) : (d.modTile t f).pci = d.pci := rfl
@[simp] theorem Dev.modTile_boot (t : Nat) (f : TileState → TileState) : (d.modTile t f).boot = d.boot := rfl
@[simp] theorem Dev.modTile_sec (t : Nat) (f : TileState → TileState) : (d.modTile t f).sec = d.sec := rfl
@[simp] theorem Dev.modTile_mem (t : Nat) (f : TileState → TileState) : (d.modTile t f).mem = d.mem := rfl
@[simp] theorem Dev.modTile_sync (t : Nat) (f : TileState → TileState) : (d.modTile t f).sync = d.sync := rfl
@[simp] theorem Dev.modTile_ras (t : Nat) (f : TileState → TileState) : (d.modTile t f).ras = d.ras := rfl
@[simp] theorem Dev.modTile_eng (t : Nat) (f : TileState → TileState) : (d.modTile t f).eng = d.eng := rfl
@[simp] theorem Dev.modTile_fe (t : Nat) (f : TileState → TileState) : (d.modTile t f).fe = d.fe := rfl
@[simp] theorem Dev.modTile_step (t : Nat) (f : TileState → TileState) : (d.modTile t f).step = d.step := rfl
@[simp] theorem Dev.modTile_gc (t : Nat) (f : TileState → TileState) : (d.modTile t f).gc = d.gc := rfl
@[simp] theorem Dev.modTile_ing (t : Nat) (f : TileState → TileState) : (d.modTile t f).ing = d.ing := rfl
@[simp] theorem Dev.modTile_pwr (t : Nat) (f : TileState → TileState) : (d.modTile t f).pwr = d.pwr := rfl
@[simp] theorem Dev.modTile_wins (t : Nat) (f : TileState → TileState) : (d.modTile t f).wins = d.wins := rfl
@[simp] theorem Dev.modTile_out (t : Nat) (f : TileState → TileState) : (d.modTile t f).out = d.out := rfl
@[simp] theorem Dev.modTile_free (t : Nat) (f : TileState → TileState) : (d.modTile t f).free = d.free := rfl
@[simp] theorem Dev.modTile_clk (t : Nat) (f : TileState → TileState) : (d.modTile t f).clk = d.clk := rfl
@[simp] theorem Dev.putHalf_regs (t h : Nat) (x : HalfState) : (d.putHalf t h x).regs = d.regs := rfl
@[simp] theorem Dev.putHalf_ft (t h : Nat) (x : HalfState) : (d.putHalf t h x).ft = d.ft := rfl
@[simp] theorem Dev.putHalf_lnk (t h : Nat) (x : HalfState) : (d.putHalf t h x).lnk = d.lnk := rfl
@[simp] theorem Dev.putHalf_pci (t h : Nat) (x : HalfState) : (d.putHalf t h x).pci = d.pci := rfl
@[simp] theorem Dev.putHalf_boot (t h : Nat) (x : HalfState) : (d.putHalf t h x).boot = d.boot := rfl
@[simp] theorem Dev.putHalf_sec (t h : Nat) (x : HalfState) : (d.putHalf t h x).sec = d.sec := rfl
@[simp] theorem Dev.putHalf_mem (t h : Nat) (x : HalfState) : (d.putHalf t h x).mem = d.mem := rfl
@[simp] theorem Dev.putHalf_sync (t h : Nat) (x : HalfState) : (d.putHalf t h x).sync = d.sync := rfl
@[simp] theorem Dev.putHalf_ras (t h : Nat) (x : HalfState) : (d.putHalf t h x).ras = d.ras := rfl
@[simp] theorem Dev.putHalf_eng (t h : Nat) (x : HalfState) : (d.putHalf t h x).eng = d.eng := rfl
@[simp] theorem Dev.putHalf_fe (t h : Nat) (x : HalfState) : (d.putHalf t h x).fe = d.fe := rfl
@[simp] theorem Dev.putHalf_step (t h : Nat) (x : HalfState) : (d.putHalf t h x).step = d.step := rfl
@[simp] theorem Dev.putHalf_gc (t h : Nat) (x : HalfState) : (d.putHalf t h x).gc = d.gc := rfl
@[simp] theorem Dev.putHalf_ing (t h : Nat) (x : HalfState) : (d.putHalf t h x).ing = d.ing := rfl
@[simp] theorem Dev.putHalf_pwr (t h : Nat) (x : HalfState) : (d.putHalf t h x).pwr = d.pwr := rfl
@[simp] theorem Dev.putHalf_wins (t h : Nat) (x : HalfState) : (d.putHalf t h x).wins = d.wins := rfl
@[simp] theorem Dev.putHalf_out (t h : Nat) (x : HalfState) : (d.putHalf t h x).out = d.out := rfl
@[simp] theorem Dev.putHalf_free (t h : Nat) (x : HalfState) : (d.putHalf t h x).free = d.free := rfl
@[simp] theorem Dev.putHalf_clk (t h : Nat) (x : HalfState) : (d.putHalf t h x).clk = d.clk := rfl
@[simp] theorem Dev.modHalf_regs (t h : Nat) (f : HalfState → HalfState) : (d.modHalf t h f).regs = d.regs := rfl
@[simp] theorem Dev.modHalf_ft (t h : Nat) (f : HalfState → HalfState) : (d.modHalf t h f).ft = d.ft := rfl
@[simp] theorem Dev.modHalf_lnk (t h : Nat) (f : HalfState → HalfState) : (d.modHalf t h f).lnk = d.lnk := rfl
@[simp] theorem Dev.modHalf_pci (t h : Nat) (f : HalfState → HalfState) : (d.modHalf t h f).pci = d.pci := rfl
@[simp] theorem Dev.modHalf_boot (t h : Nat) (f : HalfState → HalfState) : (d.modHalf t h f).boot = d.boot := rfl
@[simp] theorem Dev.modHalf_sec (t h : Nat) (f : HalfState → HalfState) : (d.modHalf t h f).sec = d.sec := rfl
@[simp] theorem Dev.modHalf_mem (t h : Nat) (f : HalfState → HalfState) : (d.modHalf t h f).mem = d.mem := rfl
@[simp] theorem Dev.modHalf_sync (t h : Nat) (f : HalfState → HalfState) : (d.modHalf t h f).sync = d.sync := rfl
@[simp] theorem Dev.modHalf_ras (t h : Nat) (f : HalfState → HalfState) : (d.modHalf t h f).ras = d.ras := rfl
@[simp] theorem Dev.modHalf_eng (t h : Nat) (f : HalfState → HalfState) : (d.modHalf t h f).eng = d.eng := rfl
@[simp] theorem Dev.modHalf_fe (t h : Nat) (f : HalfState → HalfState) : (d.modHalf t h f).fe = d.fe := rfl
@[simp] theorem Dev.modHalf_step (t h : Nat) (f : HalfState → HalfState) : (d.modHalf t h f).step = d.step := rfl
@[simp] theorem Dev.modHalf_gc (t h : Nat) (f : HalfState → HalfState) : (d.modHalf t h f).gc = d.gc := rfl
@[simp] theorem Dev.modHalf_ing (t h : Nat) (f : HalfState → HalfState) : (d.modHalf t h f).ing = d.ing := rfl
@[simp] theorem Dev.modHalf_pwr (t h : Nat) (f : HalfState → HalfState) : (d.modHalf t h f).pwr = d.pwr := rfl
@[simp] theorem Dev.modHalf_wins (t h : Nat) (f : HalfState → HalfState) : (d.modHalf t h f).wins = d.wins := rfl
@[simp] theorem Dev.modHalf_out (t h : Nat) (f : HalfState → HalfState) : (d.modHalf t h f).out = d.out := rfl
@[simp] theorem Dev.modHalf_free (t h : Nat) (f : HalfState → HalfState) : (d.modHalf t h f).free = d.free := rfl
@[simp] theorem Dev.modHalf_clk (t h : Nat) (f : HalfState → HalfState) : (d.modHalf t h f).clk = d.clk := rfl
@[simp] theorem Dev.modMem_regs (f : MemState → MemState) : (d.modMem f).regs = d.regs := rfl
@[simp] theorem Dev.modMem_ft (f : MemState → MemState) : (d.modMem f).ft = d.ft := rfl
@[simp] theorem Dev.modMem_lnk (f : MemState → MemState) : (d.modMem f).lnk = d.lnk := rfl
@[simp] theorem Dev.modMem_pci (f : MemState → MemState) : (d.modMem f).pci = d.pci := rfl
@[simp] theorem Dev.modMem_boot (f : MemState → MemState) : (d.modMem f).boot = d.boot := rfl
@[simp] theorem Dev.modMem_sec (f : MemState → MemState) : (d.modMem f).sec = d.sec := rfl
@[simp] theorem Dev.modMem_tiles (f : MemState → MemState) : (d.modMem f).tiles = d.tiles := rfl
@[simp] theorem Dev.modMem_sync (f : MemState → MemState) : (d.modMem f).sync = d.sync := rfl
@[simp] theorem Dev.modMem_ras (f : MemState → MemState) : (d.modMem f).ras = d.ras := rfl
@[simp] theorem Dev.modMem_eng (f : MemState → MemState) : (d.modMem f).eng = d.eng := rfl
@[simp] theorem Dev.modMem_fe (f : MemState → MemState) : (d.modMem f).fe = d.fe := rfl
@[simp] theorem Dev.modMem_step (f : MemState → MemState) : (d.modMem f).step = d.step := rfl
@[simp] theorem Dev.modMem_gc (f : MemState → MemState) : (d.modMem f).gc = d.gc := rfl
@[simp] theorem Dev.modMem_ing (f : MemState → MemState) : (d.modMem f).ing = d.ing := rfl
@[simp] theorem Dev.modMem_pwr (f : MemState → MemState) : (d.modMem f).pwr = d.pwr := rfl
@[simp] theorem Dev.modMem_wins (f : MemState → MemState) : (d.modMem f).wins = d.wins := rfl
@[simp] theorem Dev.modMem_out (f : MemState → MemState) : (d.modMem f).out = d.out := rfl
@[simp] theorem Dev.modMem_free (f : MemState → MemState) : (d.modMem f).free = d.free := rfl
@[simp] theorem Dev.modMem_clk (f : MemState → MemState) : (d.modMem f).clk = d.clk := rfl
@[simp] theorem Dev.modStack_regs (i : Nat) (f : StackMem → StackMem) : (d.modStack i f).regs = d.regs := rfl
@[simp] theorem Dev.modStack_ft (i : Nat) (f : StackMem → StackMem) : (d.modStack i f).ft = d.ft := rfl
@[simp] theorem Dev.modStack_lnk (i : Nat) (f : StackMem → StackMem) : (d.modStack i f).lnk = d.lnk := rfl
@[simp] theorem Dev.modStack_pci (i : Nat) (f : StackMem → StackMem) : (d.modStack i f).pci = d.pci := rfl
@[simp] theorem Dev.modStack_boot (i : Nat) (f : StackMem → StackMem) : (d.modStack i f).boot = d.boot := rfl
@[simp] theorem Dev.modStack_sec (i : Nat) (f : StackMem → StackMem) : (d.modStack i f).sec = d.sec := rfl
@[simp] theorem Dev.modStack_tiles (i : Nat) (f : StackMem → StackMem) : (d.modStack i f).tiles = d.tiles := rfl
@[simp] theorem Dev.modStack_sync (i : Nat) (f : StackMem → StackMem) : (d.modStack i f).sync = d.sync := rfl
@[simp] theorem Dev.modStack_ras (i : Nat) (f : StackMem → StackMem) : (d.modStack i f).ras = d.ras := rfl
@[simp] theorem Dev.modStack_eng (i : Nat) (f : StackMem → StackMem) : (d.modStack i f).eng = d.eng := rfl
@[simp] theorem Dev.modStack_fe (i : Nat) (f : StackMem → StackMem) : (d.modStack i f).fe = d.fe := rfl
@[simp] theorem Dev.modStack_step (i : Nat) (f : StackMem → StackMem) : (d.modStack i f).step = d.step := rfl
@[simp] theorem Dev.modStack_gc (i : Nat) (f : StackMem → StackMem) : (d.modStack i f).gc = d.gc := rfl
@[simp] theorem Dev.modStack_ing (i : Nat) (f : StackMem → StackMem) : (d.modStack i f).ing = d.ing := rfl
@[simp] theorem Dev.modStack_pwr (i : Nat) (f : StackMem → StackMem) : (d.modStack i f).pwr = d.pwr := rfl
@[simp] theorem Dev.modStack_wins (i : Nat) (f : StackMem → StackMem) : (d.modStack i f).wins = d.wins := rfl
@[simp] theorem Dev.modStack_out (i : Nat) (f : StackMem → StackMem) : (d.modStack i f).out = d.out := rfl
@[simp] theorem Dev.modStack_free (i : Nat) (f : StackMem → StackMem) : (d.modStack i f).free = d.free := rfl
@[simp] theorem Dev.modStack_clk (i : Nat) (f : StackMem → StackMem) : (d.modStack i f).clk = d.clk := rfl
@[simp] theorem Dev.modSeal_regs (e : Nat) (f : SealEntry → SealEntry) : (d.modSeal e f).regs = d.regs := rfl
@[simp] theorem Dev.modSeal_ft (e : Nat) (f : SealEntry → SealEntry) : (d.modSeal e f).ft = d.ft := rfl
@[simp] theorem Dev.modSeal_lnk (e : Nat) (f : SealEntry → SealEntry) : (d.modSeal e f).lnk = d.lnk := rfl
@[simp] theorem Dev.modSeal_pci (e : Nat) (f : SealEntry → SealEntry) : (d.modSeal e f).pci = d.pci := rfl
@[simp] theorem Dev.modSeal_boot (e : Nat) (f : SealEntry → SealEntry) : (d.modSeal e f).boot = d.boot := rfl
@[simp] theorem Dev.modSeal_sec (e : Nat) (f : SealEntry → SealEntry) : (d.modSeal e f).sec = d.sec := rfl
@[simp] theorem Dev.modSeal_tiles (e : Nat) (f : SealEntry → SealEntry) : (d.modSeal e f).tiles = d.tiles := rfl
@[simp] theorem Dev.modSeal_sync (e : Nat) (f : SealEntry → SealEntry) : (d.modSeal e f).sync = d.sync := rfl
@[simp] theorem Dev.modSeal_ras (e : Nat) (f : SealEntry → SealEntry) : (d.modSeal e f).ras = d.ras := rfl
@[simp] theorem Dev.modSeal_eng (e : Nat) (f : SealEntry → SealEntry) : (d.modSeal e f).eng = d.eng := rfl
@[simp] theorem Dev.modSeal_fe (e : Nat) (f : SealEntry → SealEntry) : (d.modSeal e f).fe = d.fe := rfl
@[simp] theorem Dev.modSeal_step (e : Nat) (f : SealEntry → SealEntry) : (d.modSeal e f).step = d.step := rfl
@[simp] theorem Dev.modSeal_gc (e : Nat) (f : SealEntry → SealEntry) : (d.modSeal e f).gc = d.gc := rfl
@[simp] theorem Dev.modSeal_ing (e : Nat) (f : SealEntry → SealEntry) : (d.modSeal e f).ing = d.ing := rfl
@[simp] theorem Dev.modSeal_pwr (e : Nat) (f : SealEntry → SealEntry) : (d.modSeal e f).pwr = d.pwr := rfl
@[simp] theorem Dev.modSeal_wins (e : Nat) (f : SealEntry → SealEntry) : (d.modSeal e f).wins = d.wins := rfl
@[simp] theorem Dev.modSeal_out (e : Nat) (f : SealEntry → SealEntry) : (d.modSeal e f).out = d.out := rfl
@[simp] theorem Dev.modSeal_free (e : Nat) (f : SealEntry → SealEntry) : (d.modSeal e f).free = d.free := rfl
@[simp] theorem Dev.modSeal_clk (e : Nat) (f : SealEntry → SealEntry) : (d.modSeal e f).clk = d.clk := rfl
@[simp] theorem Dev.modSync_regs (f : SyncState → SyncState) : (d.modSync f).regs = d.regs := rfl
@[simp] theorem Dev.modSync_ft (f : SyncState → SyncState) : (d.modSync f).ft = d.ft := rfl
@[simp] theorem Dev.modSync_lnk (f : SyncState → SyncState) : (d.modSync f).lnk = d.lnk := rfl
@[simp] theorem Dev.modSync_pci (f : SyncState → SyncState) : (d.modSync f).pci = d.pci := rfl
@[simp] theorem Dev.modSync_boot (f : SyncState → SyncState) : (d.modSync f).boot = d.boot := rfl
@[simp] theorem Dev.modSync_sec (f : SyncState → SyncState) : (d.modSync f).sec = d.sec := rfl
@[simp] theorem Dev.modSync_tiles (f : SyncState → SyncState) : (d.modSync f).tiles = d.tiles := rfl
@[simp] theorem Dev.modSync_mem (f : SyncState → SyncState) : (d.modSync f).mem = d.mem := rfl
@[simp] theorem Dev.modSync_ras (f : SyncState → SyncState) : (d.modSync f).ras = d.ras := rfl
@[simp] theorem Dev.modSync_eng (f : SyncState → SyncState) : (d.modSync f).eng = d.eng := rfl
@[simp] theorem Dev.modSync_fe (f : SyncState → SyncState) : (d.modSync f).fe = d.fe := rfl
@[simp] theorem Dev.modSync_step (f : SyncState → SyncState) : (d.modSync f).step = d.step := rfl
@[simp] theorem Dev.modSync_gc (f : SyncState → SyncState) : (d.modSync f).gc = d.gc := rfl
@[simp] theorem Dev.modSync_ing (f : SyncState → SyncState) : (d.modSync f).ing = d.ing := rfl
@[simp] theorem Dev.modSync_pwr (f : SyncState → SyncState) : (d.modSync f).pwr = d.pwr := rfl
@[simp] theorem Dev.modSync_wins (f : SyncState → SyncState) : (d.modSync f).wins = d.wins := rfl
@[simp] theorem Dev.modSync_out (f : SyncState → SyncState) : (d.modSync f).out = d.out := rfl
@[simp] theorem Dev.modSync_free (f : SyncState → SyncState) : (d.modSync f).free = d.free := rfl
@[simp] theorem Dev.modSync_clk (f : SyncState → SyncState) : (d.modSync f).clk = d.clk := rfl
@[simp] theorem Dev.modVane_regs (n : Nat) (f : VaneState → VaneState) : (d.modVane n f).regs = d.regs := rfl
@[simp] theorem Dev.modVane_ft (n : Nat) (f : VaneState → VaneState) : (d.modVane n f).ft = d.ft := rfl
@[simp] theorem Dev.modVane_lnk (n : Nat) (f : VaneState → VaneState) : (d.modVane n f).lnk = d.lnk := rfl
@[simp] theorem Dev.modVane_pci (n : Nat) (f : VaneState → VaneState) : (d.modVane n f).pci = d.pci := rfl
@[simp] theorem Dev.modVane_boot (n : Nat) (f : VaneState → VaneState) : (d.modVane n f).boot = d.boot := rfl
@[simp] theorem Dev.modVane_sec (n : Nat) (f : VaneState → VaneState) : (d.modVane n f).sec = d.sec := rfl
@[simp] theorem Dev.modVane_tiles (n : Nat) (f : VaneState → VaneState) : (d.modVane n f).tiles = d.tiles := rfl
@[simp] theorem Dev.modVane_mem (n : Nat) (f : VaneState → VaneState) : (d.modVane n f).mem = d.mem := rfl
@[simp] theorem Dev.modVane_ras (n : Nat) (f : VaneState → VaneState) : (d.modVane n f).ras = d.ras := rfl
@[simp] theorem Dev.modVane_eng (n : Nat) (f : VaneState → VaneState) : (d.modVane n f).eng = d.eng := rfl
@[simp] theorem Dev.modVane_fe (n : Nat) (f : VaneState → VaneState) : (d.modVane n f).fe = d.fe := rfl
@[simp] theorem Dev.modVane_step (n : Nat) (f : VaneState → VaneState) : (d.modVane n f).step = d.step := rfl
@[simp] theorem Dev.modVane_gc (n : Nat) (f : VaneState → VaneState) : (d.modVane n f).gc = d.gc := rfl
@[simp] theorem Dev.modVane_ing (n : Nat) (f : VaneState → VaneState) : (d.modVane n f).ing = d.ing := rfl
@[simp] theorem Dev.modVane_pwr (n : Nat) (f : VaneState → VaneState) : (d.modVane n f).pwr = d.pwr := rfl
@[simp] theorem Dev.modVane_wins (n : Nat) (f : VaneState → VaneState) : (d.modVane n f).wins = d.wins := rfl
@[simp] theorem Dev.modVane_out (n : Nat) (f : VaneState → VaneState) : (d.modVane n f).out = d.out := rfl
@[simp] theorem Dev.modVane_free (n : Nat) (f : VaneState → VaneState) : (d.modVane n f).free = d.free := rfl
@[simp] theorem Dev.modVane_clk (n : Nat) (f : VaneState → VaneState) : (d.modVane n f).clk = d.clk := rfl
@[simp] theorem Dev.modRas_regs (f : RasState → RasState) : (d.modRas f).regs = d.regs := rfl
@[simp] theorem Dev.modRas_ft (f : RasState → RasState) : (d.modRas f).ft = d.ft := rfl
@[simp] theorem Dev.modRas_lnk (f : RasState → RasState) : (d.modRas f).lnk = d.lnk := rfl
@[simp] theorem Dev.modRas_pci (f : RasState → RasState) : (d.modRas f).pci = d.pci := rfl
@[simp] theorem Dev.modRas_boot (f : RasState → RasState) : (d.modRas f).boot = d.boot := rfl
@[simp] theorem Dev.modRas_sec (f : RasState → RasState) : (d.modRas f).sec = d.sec := rfl
@[simp] theorem Dev.modRas_tiles (f : RasState → RasState) : (d.modRas f).tiles = d.tiles := rfl
@[simp] theorem Dev.modRas_mem (f : RasState → RasState) : (d.modRas f).mem = d.mem := rfl
@[simp] theorem Dev.modRas_sync (f : RasState → RasState) : (d.modRas f).sync = d.sync := rfl
@[simp] theorem Dev.modRas_eng (f : RasState → RasState) : (d.modRas f).eng = d.eng := rfl
@[simp] theorem Dev.modRas_fe (f : RasState → RasState) : (d.modRas f).fe = d.fe := rfl
@[simp] theorem Dev.modRas_step (f : RasState → RasState) : (d.modRas f).step = d.step := rfl
@[simp] theorem Dev.modRas_gc (f : RasState → RasState) : (d.modRas f).gc = d.gc := rfl
@[simp] theorem Dev.modRas_ing (f : RasState → RasState) : (d.modRas f).ing = d.ing := rfl
@[simp] theorem Dev.modRas_pwr (f : RasState → RasState) : (d.modRas f).pwr = d.pwr := rfl
@[simp] theorem Dev.modRas_wins (f : RasState → RasState) : (d.modRas f).wins = d.wins := rfl
@[simp] theorem Dev.modRas_out (f : RasState → RasState) : (d.modRas f).out = d.out := rfl
@[simp] theorem Dev.modRas_free (f : RasState → RasState) : (d.modRas f).free = d.free := rfl
@[simp] theorem Dev.modRas_clk (f : RasState → RasState) : (d.modRas f).clk = d.clk := rfl
@[simp] theorem Dev.modBridge_regs (b : Nat) (f : BridgeState → BridgeState) : (d.modBridge b f).regs = d.regs := rfl
@[simp] theorem Dev.modBridge_ft (b : Nat) (f : BridgeState → BridgeState) : (d.modBridge b f).ft = d.ft := rfl
@[simp] theorem Dev.modBridge_lnk (b : Nat) (f : BridgeState → BridgeState) : (d.modBridge b f).lnk = d.lnk := rfl
@[simp] theorem Dev.modBridge_pci (b : Nat) (f : BridgeState → BridgeState) : (d.modBridge b f).pci = d.pci := rfl
@[simp] theorem Dev.modBridge_boot (b : Nat) (f : BridgeState → BridgeState) : (d.modBridge b f).boot = d.boot := rfl
@[simp] theorem Dev.modBridge_sec (b : Nat) (f : BridgeState → BridgeState) : (d.modBridge b f).sec = d.sec := rfl
@[simp] theorem Dev.modBridge_tiles (b : Nat) (f : BridgeState → BridgeState) : (d.modBridge b f).tiles = d.tiles := rfl
@[simp] theorem Dev.modBridge_mem (b : Nat) (f : BridgeState → BridgeState) : (d.modBridge b f).mem = d.mem := rfl
@[simp] theorem Dev.modBridge_sync (b : Nat) (f : BridgeState → BridgeState) : (d.modBridge b f).sync = d.sync := rfl
@[simp] theorem Dev.modBridge_eng (b : Nat) (f : BridgeState → BridgeState) : (d.modBridge b f).eng = d.eng := rfl
@[simp] theorem Dev.modBridge_fe (b : Nat) (f : BridgeState → BridgeState) : (d.modBridge b f).fe = d.fe := rfl
@[simp] theorem Dev.modBridge_step (b : Nat) (f : BridgeState → BridgeState) : (d.modBridge b f).step = d.step := rfl
@[simp] theorem Dev.modBridge_gc (b : Nat) (f : BridgeState → BridgeState) : (d.modBridge b f).gc = d.gc := rfl
@[simp] theorem Dev.modBridge_ing (b : Nat) (f : BridgeState → BridgeState) : (d.modBridge b f).ing = d.ing := rfl
@[simp] theorem Dev.modBridge_pwr (b : Nat) (f : BridgeState → BridgeState) : (d.modBridge b f).pwr = d.pwr := rfl
@[simp] theorem Dev.modBridge_wins (b : Nat) (f : BridgeState → BridgeState) : (d.modBridge b f).wins = d.wins := rfl
@[simp] theorem Dev.modBridge_out (b : Nat) (f : BridgeState → BridgeState) : (d.modBridge b f).out = d.out := rfl
@[simp] theorem Dev.modBridge_free (b : Nat) (f : BridgeState → BridgeState) : (d.modBridge b f).free = d.free := rfl
@[simp] theorem Dev.modBridge_clk (b : Nat) (f : BridgeState → BridgeState) : (d.modBridge b f).clk = d.clk := rfl
@[simp] theorem Dev.modEng_regs (f : EngState → EngState) : (d.modEng f).regs = d.regs := rfl
@[simp] theorem Dev.modEng_ft (f : EngState → EngState) : (d.modEng f).ft = d.ft := rfl
@[simp] theorem Dev.modEng_lnk (f : EngState → EngState) : (d.modEng f).lnk = d.lnk := rfl
@[simp] theorem Dev.modEng_pci (f : EngState → EngState) : (d.modEng f).pci = d.pci := rfl
@[simp] theorem Dev.modEng_boot (f : EngState → EngState) : (d.modEng f).boot = d.boot := rfl
@[simp] theorem Dev.modEng_sec (f : EngState → EngState) : (d.modEng f).sec = d.sec := rfl
@[simp] theorem Dev.modEng_tiles (f : EngState → EngState) : (d.modEng f).tiles = d.tiles := rfl
@[simp] theorem Dev.modEng_mem (f : EngState → EngState) : (d.modEng f).mem = d.mem := rfl
@[simp] theorem Dev.modEng_sync (f : EngState → EngState) : (d.modEng f).sync = d.sync := rfl
@[simp] theorem Dev.modEng_ras (f : EngState → EngState) : (d.modEng f).ras = d.ras := rfl
@[simp] theorem Dev.modEng_fe (f : EngState → EngState) : (d.modEng f).fe = d.fe := rfl
@[simp] theorem Dev.modEng_step (f : EngState → EngState) : (d.modEng f).step = d.step := rfl
@[simp] theorem Dev.modEng_gc (f : EngState → EngState) : (d.modEng f).gc = d.gc := rfl
@[simp] theorem Dev.modEng_ing (f : EngState → EngState) : (d.modEng f).ing = d.ing := rfl
@[simp] theorem Dev.modEng_pwr (f : EngState → EngState) : (d.modEng f).pwr = d.pwr := rfl
@[simp] theorem Dev.modEng_wins (f : EngState → EngState) : (d.modEng f).wins = d.wins := rfl
@[simp] theorem Dev.modEng_out (f : EngState → EngState) : (d.modEng f).out = d.out := rfl
@[simp] theorem Dev.modEng_free (f : EngState → EngState) : (d.modEng f).free = d.free := rfl
@[simp] theorem Dev.modEng_clk (f : EngState → EngState) : (d.modEng f).clk = d.clk := rfl
@[simp] theorem Dev.modVat_regs (i : Nat) (f : VatState → VatState) : (d.modVat i f).regs = d.regs := rfl
@[simp] theorem Dev.modVat_ft (i : Nat) (f : VatState → VatState) : (d.modVat i f).ft = d.ft := rfl
@[simp] theorem Dev.modVat_lnk (i : Nat) (f : VatState → VatState) : (d.modVat i f).lnk = d.lnk := rfl
@[simp] theorem Dev.modVat_pci (i : Nat) (f : VatState → VatState) : (d.modVat i f).pci = d.pci := rfl
@[simp] theorem Dev.modVat_boot (i : Nat) (f : VatState → VatState) : (d.modVat i f).boot = d.boot := rfl
@[simp] theorem Dev.modVat_sec (i : Nat) (f : VatState → VatState) : (d.modVat i f).sec = d.sec := rfl
@[simp] theorem Dev.modVat_tiles (i : Nat) (f : VatState → VatState) : (d.modVat i f).tiles = d.tiles := rfl
@[simp] theorem Dev.modVat_mem (i : Nat) (f : VatState → VatState) : (d.modVat i f).mem = d.mem := rfl
@[simp] theorem Dev.modVat_sync (i : Nat) (f : VatState → VatState) : (d.modVat i f).sync = d.sync := rfl
@[simp] theorem Dev.modVat_ras (i : Nat) (f : VatState → VatState) : (d.modVat i f).ras = d.ras := rfl
@[simp] theorem Dev.modVat_fe (i : Nat) (f : VatState → VatState) : (d.modVat i f).fe = d.fe := rfl
@[simp] theorem Dev.modVat_step (i : Nat) (f : VatState → VatState) : (d.modVat i f).step = d.step := rfl
@[simp] theorem Dev.modVat_gc (i : Nat) (f : VatState → VatState) : (d.modVat i f).gc = d.gc := rfl
@[simp] theorem Dev.modVat_ing (i : Nat) (f : VatState → VatState) : (d.modVat i f).ing = d.ing := rfl
@[simp] theorem Dev.modVat_pwr (i : Nat) (f : VatState → VatState) : (d.modVat i f).pwr = d.pwr := rfl
@[simp] theorem Dev.modVat_wins (i : Nat) (f : VatState → VatState) : (d.modVat i f).wins = d.wins := rfl
@[simp] theorem Dev.modVat_out (i : Nat) (f : VatState → VatState) : (d.modVat i f).out = d.out := rfl
@[simp] theorem Dev.modVat_free (i : Nat) (f : VatState → VatState) : (d.modVat i f).free = d.free := rfl
@[simp] theorem Dev.modVat_clk (i : Nat) (f : VatState → VatState) : (d.modVat i f).clk = d.clk := rfl
@[simp] theorem Dev.putBucket_regs (i b : Nat) (k : Bucket) : (d.putBucket i b k).regs = d.regs := rfl
@[simp] theorem Dev.putBucket_ft (i b : Nat) (k : Bucket) : (d.putBucket i b k).ft = d.ft := rfl
@[simp] theorem Dev.putBucket_lnk (i b : Nat) (k : Bucket) : (d.putBucket i b k).lnk = d.lnk := rfl
@[simp] theorem Dev.putBucket_pci (i b : Nat) (k : Bucket) : (d.putBucket i b k).pci = d.pci := rfl
@[simp] theorem Dev.putBucket_boot (i b : Nat) (k : Bucket) : (d.putBucket i b k).boot = d.boot := rfl
@[simp] theorem Dev.putBucket_sec (i b : Nat) (k : Bucket) : (d.putBucket i b k).sec = d.sec := rfl
@[simp] theorem Dev.putBucket_tiles (i b : Nat) (k : Bucket) : (d.putBucket i b k).tiles = d.tiles := rfl
@[simp] theorem Dev.putBucket_mem (i b : Nat) (k : Bucket) : (d.putBucket i b k).mem = d.mem := rfl
@[simp] theorem Dev.putBucket_sync (i b : Nat) (k : Bucket) : (d.putBucket i b k).sync = d.sync := rfl
@[simp] theorem Dev.putBucket_ras (i b : Nat) (k : Bucket) : (d.putBucket i b k).ras = d.ras := rfl
@[simp] theorem Dev.putBucket_fe (i b : Nat) (k : Bucket) : (d.putBucket i b k).fe = d.fe := rfl
@[simp] theorem Dev.putBucket_step (i b : Nat) (k : Bucket) : (d.putBucket i b k).step = d.step := rfl
@[simp] theorem Dev.putBucket_gc (i b : Nat) (k : Bucket) : (d.putBucket i b k).gc = d.gc := rfl
@[simp] theorem Dev.putBucket_ing (i b : Nat) (k : Bucket) : (d.putBucket i b k).ing = d.ing := rfl
@[simp] theorem Dev.putBucket_pwr (i b : Nat) (k : Bucket) : (d.putBucket i b k).pwr = d.pwr := rfl
@[simp] theorem Dev.putBucket_wins (i b : Nat) (k : Bucket) : (d.putBucket i b k).wins = d.wins := rfl
@[simp] theorem Dev.putBucket_out (i b : Nat) (k : Bucket) : (d.putBucket i b k).out = d.out := rfl
@[simp] theorem Dev.putBucket_free (i b : Nat) (k : Bucket) : (d.putBucket i b k).free = d.free := rfl
@[simp] theorem Dev.putBucket_clk (i b : Nat) (k : Bucket) : (d.putBucket i b k).clk = d.clk := rfl
@[simp] theorem Dev.modChurn_regs (i : Nat) (f : ChurnState → ChurnState) : (d.modChurn i f).regs = d.regs := rfl
@[simp] theorem Dev.modChurn_ft (i : Nat) (f : ChurnState → ChurnState) : (d.modChurn i f).ft = d.ft := rfl
@[simp] theorem Dev.modChurn_lnk (i : Nat) (f : ChurnState → ChurnState) : (d.modChurn i f).lnk = d.lnk := rfl
@[simp] theorem Dev.modChurn_pci (i : Nat) (f : ChurnState → ChurnState) : (d.modChurn i f).pci = d.pci := rfl
@[simp] theorem Dev.modChurn_boot (i : Nat) (f : ChurnState → ChurnState) : (d.modChurn i f).boot = d.boot := rfl
@[simp] theorem Dev.modChurn_sec (i : Nat) (f : ChurnState → ChurnState) : (d.modChurn i f).sec = d.sec := rfl
@[simp] theorem Dev.modChurn_tiles (i : Nat) (f : ChurnState → ChurnState) : (d.modChurn i f).tiles = d.tiles := rfl
@[simp] theorem Dev.modChurn_mem (i : Nat) (f : ChurnState → ChurnState) : (d.modChurn i f).mem = d.mem := rfl
@[simp] theorem Dev.modChurn_sync (i : Nat) (f : ChurnState → ChurnState) : (d.modChurn i f).sync = d.sync := rfl
@[simp] theorem Dev.modChurn_ras (i : Nat) (f : ChurnState → ChurnState) : (d.modChurn i f).ras = d.ras := rfl
@[simp] theorem Dev.modChurn_fe (i : Nat) (f : ChurnState → ChurnState) : (d.modChurn i f).fe = d.fe := rfl
@[simp] theorem Dev.modChurn_step (i : Nat) (f : ChurnState → ChurnState) : (d.modChurn i f).step = d.step := rfl
@[simp] theorem Dev.modChurn_gc (i : Nat) (f : ChurnState → ChurnState) : (d.modChurn i f).gc = d.gc := rfl
@[simp] theorem Dev.modChurn_ing (i : Nat) (f : ChurnState → ChurnState) : (d.modChurn i f).ing = d.ing := rfl
@[simp] theorem Dev.modChurn_pwr (i : Nat) (f : ChurnState → ChurnState) : (d.modChurn i f).pwr = d.pwr := rfl
@[simp] theorem Dev.modChurn_wins (i : Nat) (f : ChurnState → ChurnState) : (d.modChurn i f).wins = d.wins := rfl
@[simp] theorem Dev.modChurn_out (i : Nat) (f : ChurnState → ChurnState) : (d.modChurn i f).out = d.out := rfl
@[simp] theorem Dev.modChurn_free (i : Nat) (f : ChurnState → ChurnState) : (d.modChurn i f).free = d.free := rfl
@[simp] theorem Dev.modChurn_clk (i : Nat) (f : ChurnState → ChurnState) : (d.modChurn i f).clk = d.clk := rfl
@[simp] theorem Dev.modBreeze_regs (i : Nat) (f : BreezeState → BreezeState) : (d.modBreeze i f).regs = d.regs := rfl
@[simp] theorem Dev.modBreeze_ft (i : Nat) (f : BreezeState → BreezeState) : (d.modBreeze i f).ft = d.ft := rfl
@[simp] theorem Dev.modBreeze_lnk (i : Nat) (f : BreezeState → BreezeState) : (d.modBreeze i f).lnk = d.lnk := rfl
@[simp] theorem Dev.modBreeze_pci (i : Nat) (f : BreezeState → BreezeState) : (d.modBreeze i f).pci = d.pci := rfl
@[simp] theorem Dev.modBreeze_boot (i : Nat) (f : BreezeState → BreezeState) : (d.modBreeze i f).boot = d.boot := rfl
@[simp] theorem Dev.modBreeze_sec (i : Nat) (f : BreezeState → BreezeState) : (d.modBreeze i f).sec = d.sec := rfl
@[simp] theorem Dev.modBreeze_tiles (i : Nat) (f : BreezeState → BreezeState) : (d.modBreeze i f).tiles = d.tiles := rfl
@[simp] theorem Dev.modBreeze_mem (i : Nat) (f : BreezeState → BreezeState) : (d.modBreeze i f).mem = d.mem := rfl
@[simp] theorem Dev.modBreeze_sync (i : Nat) (f : BreezeState → BreezeState) : (d.modBreeze i f).sync = d.sync := rfl
@[simp] theorem Dev.modBreeze_ras (i : Nat) (f : BreezeState → BreezeState) : (d.modBreeze i f).ras = d.ras := rfl
@[simp] theorem Dev.modBreeze_fe (i : Nat) (f : BreezeState → BreezeState) : (d.modBreeze i f).fe = d.fe := rfl
@[simp] theorem Dev.modBreeze_step (i : Nat) (f : BreezeState → BreezeState) : (d.modBreeze i f).step = d.step := rfl
@[simp] theorem Dev.modBreeze_gc (i : Nat) (f : BreezeState → BreezeState) : (d.modBreeze i f).gc = d.gc := rfl
@[simp] theorem Dev.modBreeze_ing (i : Nat) (f : BreezeState → BreezeState) : (d.modBreeze i f).ing = d.ing := rfl
@[simp] theorem Dev.modBreeze_pwr (i : Nat) (f : BreezeState → BreezeState) : (d.modBreeze i f).pwr = d.pwr := rfl
@[simp] theorem Dev.modBreeze_wins (i : Nat) (f : BreezeState → BreezeState) : (d.modBreeze i f).wins = d.wins := rfl
@[simp] theorem Dev.modBreeze_out (i : Nat) (f : BreezeState → BreezeState) : (d.modBreeze i f).out = d.out := rfl
@[simp] theorem Dev.modBreeze_free (i : Nat) (f : BreezeState → BreezeState) : (d.modBreeze i f).free = d.free := rfl
@[simp] theorem Dev.modBreeze_clk (i : Nat) (f : BreezeState → BreezeState) : (d.modBreeze i f).clk = d.clk := rfl
@[simp] theorem Dev.vatEnd_regs (i st r : Nat) : (d.vatEnd i st r).regs = d.regs := rfl
@[simp] theorem Dev.vatEnd_ft (i st r : Nat) : (d.vatEnd i st r).ft = d.ft := rfl
@[simp] theorem Dev.vatEnd_lnk (i st r : Nat) : (d.vatEnd i st r).lnk = d.lnk := rfl
@[simp] theorem Dev.vatEnd_pci (i st r : Nat) : (d.vatEnd i st r).pci = d.pci := rfl
@[simp] theorem Dev.vatEnd_boot (i st r : Nat) : (d.vatEnd i st r).boot = d.boot := rfl
@[simp] theorem Dev.vatEnd_sec (i st r : Nat) : (d.vatEnd i st r).sec = d.sec := rfl
@[simp] theorem Dev.vatEnd_tiles (i st r : Nat) : (d.vatEnd i st r).tiles = d.tiles := rfl
@[simp] theorem Dev.vatEnd_mem (i st r : Nat) : (d.vatEnd i st r).mem = d.mem := rfl
@[simp] theorem Dev.vatEnd_sync (i st r : Nat) : (d.vatEnd i st r).sync = d.sync := rfl
@[simp] theorem Dev.vatEnd_ras (i st r : Nat) : (d.vatEnd i st r).ras = d.ras := rfl
@[simp] theorem Dev.vatEnd_fe (i st r : Nat) : (d.vatEnd i st r).fe = d.fe := rfl
@[simp] theorem Dev.vatEnd_step (i st r : Nat) : (d.vatEnd i st r).step = d.step := rfl
@[simp] theorem Dev.vatEnd_gc (i st r : Nat) : (d.vatEnd i st r).gc = d.gc := rfl
@[simp] theorem Dev.vatEnd_ing (i st r : Nat) : (d.vatEnd i st r).ing = d.ing := rfl
@[simp] theorem Dev.vatEnd_pwr (i st r : Nat) : (d.vatEnd i st r).pwr = d.pwr := rfl
@[simp] theorem Dev.vatEnd_wins (i st r : Nat) : (d.vatEnd i st r).wins = d.wins := rfl
@[simp] theorem Dev.vatEnd_out (i st r : Nat) : (d.vatEnd i st r).out = d.out := rfl
@[simp] theorem Dev.vatEnd_free (i st r : Nat) : (d.vatEnd i st r).free = d.free := rfl
@[simp] theorem Dev.vatEnd_clk (i st r : Nat) : (d.vatEnd i st r).clk = d.clk := rfl
@[simp] theorem Dev.modFe_regs (f : FeState → FeState) : (d.modFe f).regs = d.regs := rfl
@[simp] theorem Dev.modFe_ft (f : FeState → FeState) : (d.modFe f).ft = d.ft := rfl
@[simp] theorem Dev.modFe_lnk (f : FeState → FeState) : (d.modFe f).lnk = d.lnk := rfl
@[simp] theorem Dev.modFe_pci (f : FeState → FeState) : (d.modFe f).pci = d.pci := rfl
@[simp] theorem Dev.modFe_boot (f : FeState → FeState) : (d.modFe f).boot = d.boot := rfl
@[simp] theorem Dev.modFe_sec (f : FeState → FeState) : (d.modFe f).sec = d.sec := rfl
@[simp] theorem Dev.modFe_tiles (f : FeState → FeState) : (d.modFe f).tiles = d.tiles := rfl
@[simp] theorem Dev.modFe_mem (f : FeState → FeState) : (d.modFe f).mem = d.mem := rfl
@[simp] theorem Dev.modFe_sync (f : FeState → FeState) : (d.modFe f).sync = d.sync := rfl
@[simp] theorem Dev.modFe_ras (f : FeState → FeState) : (d.modFe f).ras = d.ras := rfl
@[simp] theorem Dev.modFe_eng (f : FeState → FeState) : (d.modFe f).eng = d.eng := rfl
@[simp] theorem Dev.modFe_step (f : FeState → FeState) : (d.modFe f).step = d.step := rfl
@[simp] theorem Dev.modFe_gc (f : FeState → FeState) : (d.modFe f).gc = d.gc := rfl
@[simp] theorem Dev.modFe_ing (f : FeState → FeState) : (d.modFe f).ing = d.ing := rfl
@[simp] theorem Dev.modFe_pwr (f : FeState → FeState) : (d.modFe f).pwr = d.pwr := rfl
@[simp] theorem Dev.modFe_wins (f : FeState → FeState) : (d.modFe f).wins = d.wins := rfl
@[simp] theorem Dev.modFe_out (f : FeState → FeState) : (d.modFe f).out = d.out := rfl
@[simp] theorem Dev.modFe_free (f : FeState → FeState) : (d.modFe f).free = d.free := rfl
@[simp] theorem Dev.modFe_clk (f : FeState → FeState) : (d.modFe f).clk = d.clk := rfl
@[simp] theorem Dev.putSq_regs (q : Nat) (x : SqState) : (d.putSq q x).regs = d.regs := rfl
@[simp] theorem Dev.putSq_ft (q : Nat) (x : SqState) : (d.putSq q x).ft = d.ft := rfl
@[simp] theorem Dev.putSq_lnk (q : Nat) (x : SqState) : (d.putSq q x).lnk = d.lnk := rfl
@[simp] theorem Dev.putSq_pci (q : Nat) (x : SqState) : (d.putSq q x).pci = d.pci := rfl
@[simp] theorem Dev.putSq_boot (q : Nat) (x : SqState) : (d.putSq q x).boot = d.boot := rfl
@[simp] theorem Dev.putSq_sec (q : Nat) (x : SqState) : (d.putSq q x).sec = d.sec := rfl
@[simp] theorem Dev.putSq_tiles (q : Nat) (x : SqState) : (d.putSq q x).tiles = d.tiles := rfl
@[simp] theorem Dev.putSq_mem (q : Nat) (x : SqState) : (d.putSq q x).mem = d.mem := rfl
@[simp] theorem Dev.putSq_sync (q : Nat) (x : SqState) : (d.putSq q x).sync = d.sync := rfl
@[simp] theorem Dev.putSq_ras (q : Nat) (x : SqState) : (d.putSq q x).ras = d.ras := rfl
@[simp] theorem Dev.putSq_eng (q : Nat) (x : SqState) : (d.putSq q x).eng = d.eng := rfl
@[simp] theorem Dev.putSq_step (q : Nat) (x : SqState) : (d.putSq q x).step = d.step := rfl
@[simp] theorem Dev.putSq_gc (q : Nat) (x : SqState) : (d.putSq q x).gc = d.gc := rfl
@[simp] theorem Dev.putSq_ing (q : Nat) (x : SqState) : (d.putSq q x).ing = d.ing := rfl
@[simp] theorem Dev.putSq_pwr (q : Nat) (x : SqState) : (d.putSq q x).pwr = d.pwr := rfl
@[simp] theorem Dev.putSq_wins (q : Nat) (x : SqState) : (d.putSq q x).wins = d.wins := rfl
@[simp] theorem Dev.putSq_out (q : Nat) (x : SqState) : (d.putSq q x).out = d.out := rfl
@[simp] theorem Dev.putSq_free (q : Nat) (x : SqState) : (d.putSq q x).free = d.free := rfl
@[simp] theorem Dev.putSq_clk (q : Nat) (x : SqState) : (d.putSq q x).clk = d.clk := rfl
@[simp] theorem Dev.putCq_regs (c : Nat) (x : CqState) : (d.putCq c x).regs = d.regs := rfl
@[simp] theorem Dev.putCq_ft (c : Nat) (x : CqState) : (d.putCq c x).ft = d.ft := rfl
@[simp] theorem Dev.putCq_lnk (c : Nat) (x : CqState) : (d.putCq c x).lnk = d.lnk := rfl
@[simp] theorem Dev.putCq_pci (c : Nat) (x : CqState) : (d.putCq c x).pci = d.pci := rfl
@[simp] theorem Dev.putCq_boot (c : Nat) (x : CqState) : (d.putCq c x).boot = d.boot := rfl
@[simp] theorem Dev.putCq_sec (c : Nat) (x : CqState) : (d.putCq c x).sec = d.sec := rfl
@[simp] theorem Dev.putCq_tiles (c : Nat) (x : CqState) : (d.putCq c x).tiles = d.tiles := rfl
@[simp] theorem Dev.putCq_mem (c : Nat) (x : CqState) : (d.putCq c x).mem = d.mem := rfl
@[simp] theorem Dev.putCq_sync (c : Nat) (x : CqState) : (d.putCq c x).sync = d.sync := rfl
@[simp] theorem Dev.putCq_ras (c : Nat) (x : CqState) : (d.putCq c x).ras = d.ras := rfl
@[simp] theorem Dev.putCq_eng (c : Nat) (x : CqState) : (d.putCq c x).eng = d.eng := rfl
@[simp] theorem Dev.putCq_step (c : Nat) (x : CqState) : (d.putCq c x).step = d.step := rfl
@[simp] theorem Dev.putCq_gc (c : Nat) (x : CqState) : (d.putCq c x).gc = d.gc := rfl
@[simp] theorem Dev.putCq_ing (c : Nat) (x : CqState) : (d.putCq c x).ing = d.ing := rfl
@[simp] theorem Dev.putCq_pwr (c : Nat) (x : CqState) : (d.putCq c x).pwr = d.pwr := rfl
@[simp] theorem Dev.putCq_wins (c : Nat) (x : CqState) : (d.putCq c x).wins = d.wins := rfl
@[simp] theorem Dev.putCq_out (c : Nat) (x : CqState) : (d.putCq c x).out = d.out := rfl
@[simp] theorem Dev.putCq_free (c : Nat) (x : CqState) : (d.putCq c x).free = d.free := rfl
@[simp] theorem Dev.putCq_clk (c : Nat) (x : CqState) : (d.putCq c x).clk = d.clk := rfl
@[simp] theorem Dev.modEngine_regs (k : Nat) (f : EngineFe → EngineFe) : (d.modEngine k f).regs = d.regs := rfl
@[simp] theorem Dev.modEngine_ft (k : Nat) (f : EngineFe → EngineFe) : (d.modEngine k f).ft = d.ft := rfl
@[simp] theorem Dev.modEngine_lnk (k : Nat) (f : EngineFe → EngineFe) : (d.modEngine k f).lnk = d.lnk := rfl
@[simp] theorem Dev.modEngine_pci (k : Nat) (f : EngineFe → EngineFe) : (d.modEngine k f).pci = d.pci := rfl
@[simp] theorem Dev.modEngine_boot (k : Nat) (f : EngineFe → EngineFe) : (d.modEngine k f).boot = d.boot := rfl
@[simp] theorem Dev.modEngine_sec (k : Nat) (f : EngineFe → EngineFe) : (d.modEngine k f).sec = d.sec := rfl
@[simp] theorem Dev.modEngine_tiles (k : Nat) (f : EngineFe → EngineFe) : (d.modEngine k f).tiles = d.tiles := rfl
@[simp] theorem Dev.modEngine_mem (k : Nat) (f : EngineFe → EngineFe) : (d.modEngine k f).mem = d.mem := rfl
@[simp] theorem Dev.modEngine_sync (k : Nat) (f : EngineFe → EngineFe) : (d.modEngine k f).sync = d.sync := rfl
@[simp] theorem Dev.modEngine_ras (k : Nat) (f : EngineFe → EngineFe) : (d.modEngine k f).ras = d.ras := rfl
@[simp] theorem Dev.modEngine_eng (k : Nat) (f : EngineFe → EngineFe) : (d.modEngine k f).eng = d.eng := rfl
@[simp] theorem Dev.modEngine_step (k : Nat) (f : EngineFe → EngineFe) : (d.modEngine k f).step = d.step := rfl
@[simp] theorem Dev.modEngine_gc (k : Nat) (f : EngineFe → EngineFe) : (d.modEngine k f).gc = d.gc := rfl
@[simp] theorem Dev.modEngine_ing (k : Nat) (f : EngineFe → EngineFe) : (d.modEngine k f).ing = d.ing := rfl
@[simp] theorem Dev.modEngine_pwr (k : Nat) (f : EngineFe → EngineFe) : (d.modEngine k f).pwr = d.pwr := rfl
@[simp] theorem Dev.modEngine_wins (k : Nat) (f : EngineFe → EngineFe) : (d.modEngine k f).wins = d.wins := rfl
@[simp] theorem Dev.modEngine_out (k : Nat) (f : EngineFe → EngineFe) : (d.modEngine k f).out = d.out := rfl
@[simp] theorem Dev.modEngine_free (k : Nat) (f : EngineFe → EngineFe) : (d.modEngine k f).free = d.free := rfl
@[simp] theorem Dev.modEngine_clk (k : Nat) (f : EngineFe → EngineFe) : (d.modEngine k f).clk = d.clk := rfl
@[simp] theorem Dev.modAdmin_regs (c : Nat) (f : AdminState → AdminState) : (d.modAdmin c f).regs = d.regs := rfl
@[simp] theorem Dev.modAdmin_ft (c : Nat) (f : AdminState → AdminState) : (d.modAdmin c f).ft = d.ft := rfl
@[simp] theorem Dev.modAdmin_lnk (c : Nat) (f : AdminState → AdminState) : (d.modAdmin c f).lnk = d.lnk := rfl
@[simp] theorem Dev.modAdmin_pci (c : Nat) (f : AdminState → AdminState) : (d.modAdmin c f).pci = d.pci := rfl
@[simp] theorem Dev.modAdmin_boot (c : Nat) (f : AdminState → AdminState) : (d.modAdmin c f).boot = d.boot := rfl
@[simp] theorem Dev.modAdmin_sec (c : Nat) (f : AdminState → AdminState) : (d.modAdmin c f).sec = d.sec := rfl
@[simp] theorem Dev.modAdmin_tiles (c : Nat) (f : AdminState → AdminState) : (d.modAdmin c f).tiles = d.tiles := rfl
@[simp] theorem Dev.modAdmin_mem (c : Nat) (f : AdminState → AdminState) : (d.modAdmin c f).mem = d.mem := rfl
@[simp] theorem Dev.modAdmin_sync (c : Nat) (f : AdminState → AdminState) : (d.modAdmin c f).sync = d.sync := rfl
@[simp] theorem Dev.modAdmin_ras (c : Nat) (f : AdminState → AdminState) : (d.modAdmin c f).ras = d.ras := rfl
@[simp] theorem Dev.modAdmin_eng (c : Nat) (f : AdminState → AdminState) : (d.modAdmin c f).eng = d.eng := rfl
@[simp] theorem Dev.modAdmin_step (c : Nat) (f : AdminState → AdminState) : (d.modAdmin c f).step = d.step := rfl
@[simp] theorem Dev.modAdmin_gc (c : Nat) (f : AdminState → AdminState) : (d.modAdmin c f).gc = d.gc := rfl
@[simp] theorem Dev.modAdmin_ing (c : Nat) (f : AdminState → AdminState) : (d.modAdmin c f).ing = d.ing := rfl
@[simp] theorem Dev.modAdmin_pwr (c : Nat) (f : AdminState → AdminState) : (d.modAdmin c f).pwr = d.pwr := rfl
@[simp] theorem Dev.modAdmin_wins (c : Nat) (f : AdminState → AdminState) : (d.modAdmin c f).wins = d.wins := rfl
@[simp] theorem Dev.modAdmin_out (c : Nat) (f : AdminState → AdminState) : (d.modAdmin c f).out = d.out := rfl
@[simp] theorem Dev.modAdmin_free (c : Nat) (f : AdminState → AdminState) : (d.modAdmin c f).free = d.free := rfl
@[simp] theorem Dev.modAdmin_clk (c : Nat) (f : AdminState → AdminState) : (d.modAdmin c f).clk = d.clk := rfl
@[simp] theorem Dev.modStep_regs (f : StepState → StepState) : (d.modStep f).regs = d.regs := rfl
@[simp] theorem Dev.modStep_ft (f : StepState → StepState) : (d.modStep f).ft = d.ft := rfl
@[simp] theorem Dev.modStep_lnk (f : StepState → StepState) : (d.modStep f).lnk = d.lnk := rfl
@[simp] theorem Dev.modStep_pci (f : StepState → StepState) : (d.modStep f).pci = d.pci := rfl
@[simp] theorem Dev.modStep_boot (f : StepState → StepState) : (d.modStep f).boot = d.boot := rfl
@[simp] theorem Dev.modStep_sec (f : StepState → StepState) : (d.modStep f).sec = d.sec := rfl
@[simp] theorem Dev.modStep_tiles (f : StepState → StepState) : (d.modStep f).tiles = d.tiles := rfl
@[simp] theorem Dev.modStep_mem (f : StepState → StepState) : (d.modStep f).mem = d.mem := rfl
@[simp] theorem Dev.modStep_sync (f : StepState → StepState) : (d.modStep f).sync = d.sync := rfl
@[simp] theorem Dev.modStep_ras (f : StepState → StepState) : (d.modStep f).ras = d.ras := rfl
@[simp] theorem Dev.modStep_eng (f : StepState → StepState) : (d.modStep f).eng = d.eng := rfl
@[simp] theorem Dev.modStep_fe (f : StepState → StepState) : (d.modStep f).fe = d.fe := rfl
@[simp] theorem Dev.modStep_gc (f : StepState → StepState) : (d.modStep f).gc = d.gc := rfl
@[simp] theorem Dev.modStep_ing (f : StepState → StepState) : (d.modStep f).ing = d.ing := rfl
@[simp] theorem Dev.modStep_pwr (f : StepState → StepState) : (d.modStep f).pwr = d.pwr := rfl
@[simp] theorem Dev.modStep_wins (f : StepState → StepState) : (d.modStep f).wins = d.wins := rfl
@[simp] theorem Dev.modStep_out (f : StepState → StepState) : (d.modStep f).out = d.out := rfl
@[simp] theorem Dev.modStep_free (f : StepState → StepState) : (d.modStep f).free = d.free := rfl
@[simp] theorem Dev.modStep_clk (f : StepState → StepState) : (d.modStep f).clk = d.clk := rfl
@[simp] theorem Dev.modGc_regs (f : GcState → GcState) : (d.modGc f).regs = d.regs := rfl
@[simp] theorem Dev.modGc_ft (f : GcState → GcState) : (d.modGc f).ft = d.ft := rfl
@[simp] theorem Dev.modGc_lnk (f : GcState → GcState) : (d.modGc f).lnk = d.lnk := rfl
@[simp] theorem Dev.modGc_pci (f : GcState → GcState) : (d.modGc f).pci = d.pci := rfl
@[simp] theorem Dev.modGc_boot (f : GcState → GcState) : (d.modGc f).boot = d.boot := rfl
@[simp] theorem Dev.modGc_sec (f : GcState → GcState) : (d.modGc f).sec = d.sec := rfl
@[simp] theorem Dev.modGc_tiles (f : GcState → GcState) : (d.modGc f).tiles = d.tiles := rfl
@[simp] theorem Dev.modGc_mem (f : GcState → GcState) : (d.modGc f).mem = d.mem := rfl
@[simp] theorem Dev.modGc_sync (f : GcState → GcState) : (d.modGc f).sync = d.sync := rfl
@[simp] theorem Dev.modGc_ras (f : GcState → GcState) : (d.modGc f).ras = d.ras := rfl
@[simp] theorem Dev.modGc_eng (f : GcState → GcState) : (d.modGc f).eng = d.eng := rfl
@[simp] theorem Dev.modGc_fe (f : GcState → GcState) : (d.modGc f).fe = d.fe := rfl
@[simp] theorem Dev.modGc_step (f : GcState → GcState) : (d.modGc f).step = d.step := rfl
@[simp] theorem Dev.modGc_ing (f : GcState → GcState) : (d.modGc f).ing = d.ing := rfl
@[simp] theorem Dev.modGc_pwr (f : GcState → GcState) : (d.modGc f).pwr = d.pwr := rfl
@[simp] theorem Dev.modGc_wins (f : GcState → GcState) : (d.modGc f).wins = d.wins := rfl
@[simp] theorem Dev.modGc_out (f : GcState → GcState) : (d.modGc f).out = d.out := rfl
@[simp] theorem Dev.modGc_free (f : GcState → GcState) : (d.modGc f).free = d.free := rfl
@[simp] theorem Dev.modGc_clk (f : GcState → GcState) : (d.modGc f).clk = d.clk := rfl
@[simp] theorem Dev.modIngest_regs (n : Nat) (f : IngEngine → IngEngine) : (d.modIngest n f).regs = d.regs := rfl
@[simp] theorem Dev.modIngest_ft (n : Nat) (f : IngEngine → IngEngine) : (d.modIngest n f).ft = d.ft := rfl
@[simp] theorem Dev.modIngest_lnk (n : Nat) (f : IngEngine → IngEngine) : (d.modIngest n f).lnk = d.lnk := rfl
@[simp] theorem Dev.modIngest_pci (n : Nat) (f : IngEngine → IngEngine) : (d.modIngest n f).pci = d.pci := rfl
@[simp] theorem Dev.modIngest_boot (n : Nat) (f : IngEngine → IngEngine) : (d.modIngest n f).boot = d.boot := rfl
@[simp] theorem Dev.modIngest_sec (n : Nat) (f : IngEngine → IngEngine) : (d.modIngest n f).sec = d.sec := rfl
@[simp] theorem Dev.modIngest_tiles (n : Nat) (f : IngEngine → IngEngine) : (d.modIngest n f).tiles = d.tiles := rfl
@[simp] theorem Dev.modIngest_mem (n : Nat) (f : IngEngine → IngEngine) : (d.modIngest n f).mem = d.mem := rfl
@[simp] theorem Dev.modIngest_sync (n : Nat) (f : IngEngine → IngEngine) : (d.modIngest n f).sync = d.sync := rfl
@[simp] theorem Dev.modIngest_ras (n : Nat) (f : IngEngine → IngEngine) : (d.modIngest n f).ras = d.ras := rfl
@[simp] theorem Dev.modIngest_eng (n : Nat) (f : IngEngine → IngEngine) : (d.modIngest n f).eng = d.eng := rfl
@[simp] theorem Dev.modIngest_fe (n : Nat) (f : IngEngine → IngEngine) : (d.modIngest n f).fe = d.fe := rfl
@[simp] theorem Dev.modIngest_step (n : Nat) (f : IngEngine → IngEngine) : (d.modIngest n f).step = d.step := rfl
@[simp] theorem Dev.modIngest_gc (n : Nat) (f : IngEngine → IngEngine) : (d.modIngest n f).gc = d.gc := rfl
@[simp] theorem Dev.modIngest_pwr (n : Nat) (f : IngEngine → IngEngine) : (d.modIngest n f).pwr = d.pwr := rfl
@[simp] theorem Dev.modIngest_wins (n : Nat) (f : IngEngine → IngEngine) : (d.modIngest n f).wins = d.wins := rfl
@[simp] theorem Dev.modIngest_out (n : Nat) (f : IngEngine → IngEngine) : (d.modIngest n f).out = d.out := rfl
@[simp] theorem Dev.modIngest_free (n : Nat) (f : IngEngine → IngEngine) : (d.modIngest n f).free = d.free := rfl
@[simp] theorem Dev.modIngest_clk (n : Nat) (f : IngEngine → IngEngine) : (d.modIngest n f).clk = d.clk := rfl
@[simp] theorem Dev.modPwr_regs (f : PwrState → PwrState) : (d.modPwr f).regs = d.regs := rfl
@[simp] theorem Dev.modPwr_ft (f : PwrState → PwrState) : (d.modPwr f).ft = d.ft := rfl
@[simp] theorem Dev.modPwr_lnk (f : PwrState → PwrState) : (d.modPwr f).lnk = d.lnk := rfl
@[simp] theorem Dev.modPwr_pci (f : PwrState → PwrState) : (d.modPwr f).pci = d.pci := rfl
@[simp] theorem Dev.modPwr_boot (f : PwrState → PwrState) : (d.modPwr f).boot = d.boot := rfl
@[simp] theorem Dev.modPwr_sec (f : PwrState → PwrState) : (d.modPwr f).sec = d.sec := rfl
@[simp] theorem Dev.modPwr_tiles (f : PwrState → PwrState) : (d.modPwr f).tiles = d.tiles := rfl
@[simp] theorem Dev.modPwr_mem (f : PwrState → PwrState) : (d.modPwr f).mem = d.mem := rfl
@[simp] theorem Dev.modPwr_sync (f : PwrState → PwrState) : (d.modPwr f).sync = d.sync := rfl
@[simp] theorem Dev.modPwr_ras (f : PwrState → PwrState) : (d.modPwr f).ras = d.ras := rfl
@[simp] theorem Dev.modPwr_eng (f : PwrState → PwrState) : (d.modPwr f).eng = d.eng := rfl
@[simp] theorem Dev.modPwr_fe (f : PwrState → PwrState) : (d.modPwr f).fe = d.fe := rfl
@[simp] theorem Dev.modPwr_step (f : PwrState → PwrState) : (d.modPwr f).step = d.step := rfl
@[simp] theorem Dev.modPwr_gc (f : PwrState → PwrState) : (d.modPwr f).gc = d.gc := rfl
@[simp] theorem Dev.modPwr_ing (f : PwrState → PwrState) : (d.modPwr f).ing = d.ing := rfl
@[simp] theorem Dev.modPwr_wins (f : PwrState → PwrState) : (d.modPwr f).wins = d.wins := rfl
@[simp] theorem Dev.modPwr_out (f : PwrState → PwrState) : (d.modPwr f).out = d.out := rfl
@[simp] theorem Dev.modPwr_free (f : PwrState → PwrState) : (d.modPwr f).free = d.free := rfl
@[simp] theorem Dev.modPwr_clk (f : PwrState → PwrState) : (d.modPwr f).clk = d.clk := rfl
@[simp] theorem Dev.modQuad_regs (q : Nat) (f : QuadPwr → QuadPwr) : (d.modQuad q f).regs = d.regs := rfl
@[simp] theorem Dev.modQuad_ft (q : Nat) (f : QuadPwr → QuadPwr) : (d.modQuad q f).ft = d.ft := rfl
@[simp] theorem Dev.modQuad_lnk (q : Nat) (f : QuadPwr → QuadPwr) : (d.modQuad q f).lnk = d.lnk := rfl
@[simp] theorem Dev.modQuad_pci (q : Nat) (f : QuadPwr → QuadPwr) : (d.modQuad q f).pci = d.pci := rfl
@[simp] theorem Dev.modQuad_boot (q : Nat) (f : QuadPwr → QuadPwr) : (d.modQuad q f).boot = d.boot := rfl
@[simp] theorem Dev.modQuad_sec (q : Nat) (f : QuadPwr → QuadPwr) : (d.modQuad q f).sec = d.sec := rfl
@[simp] theorem Dev.modQuad_tiles (q : Nat) (f : QuadPwr → QuadPwr) : (d.modQuad q f).tiles = d.tiles := rfl
@[simp] theorem Dev.modQuad_mem (q : Nat) (f : QuadPwr → QuadPwr) : (d.modQuad q f).mem = d.mem := rfl
@[simp] theorem Dev.modQuad_sync (q : Nat) (f : QuadPwr → QuadPwr) : (d.modQuad q f).sync = d.sync := rfl
@[simp] theorem Dev.modQuad_ras (q : Nat) (f : QuadPwr → QuadPwr) : (d.modQuad q f).ras = d.ras := rfl
@[simp] theorem Dev.modQuad_eng (q : Nat) (f : QuadPwr → QuadPwr) : (d.modQuad q f).eng = d.eng := rfl
@[simp] theorem Dev.modQuad_fe (q : Nat) (f : QuadPwr → QuadPwr) : (d.modQuad q f).fe = d.fe := rfl
@[simp] theorem Dev.modQuad_step (q : Nat) (f : QuadPwr → QuadPwr) : (d.modQuad q f).step = d.step := rfl
@[simp] theorem Dev.modQuad_gc (q : Nat) (f : QuadPwr → QuadPwr) : (d.modQuad q f).gc = d.gc := rfl
@[simp] theorem Dev.modQuad_ing (q : Nat) (f : QuadPwr → QuadPwr) : (d.modQuad q f).ing = d.ing := rfl
@[simp] theorem Dev.modQuad_wins (q : Nat) (f : QuadPwr → QuadPwr) : (d.modQuad q f).wins = d.wins := rfl
@[simp] theorem Dev.modQuad_out (q : Nat) (f : QuadPwr → QuadPwr) : (d.modQuad q f).out = d.out := rfl
@[simp] theorem Dev.modQuad_free (q : Nat) (f : QuadPwr → QuadPwr) : (d.modQuad q f).free = d.free := rfl
@[simp] theorem Dev.modQuad_clk (q : Nat) (f : QuadPwr → QuadPwr) : (d.modQuad q f).clk = d.clk := rfl
@[simp] theorem Dev.setLock_regs (i : Nat) (b : Bool) : (d.setLock i b).regs = d.regs := rfl
@[simp] theorem Dev.setLock_ft (i : Nat) (b : Bool) : (d.setLock i b).ft = d.ft := rfl
@[simp] theorem Dev.setLock_lnk (i : Nat) (b : Bool) : (d.setLock i b).lnk = d.lnk := rfl
@[simp] theorem Dev.setLock_pci (i : Nat) (b : Bool) : (d.setLock i b).pci = d.pci := rfl
@[simp] theorem Dev.setLock_boot (i : Nat) (b : Bool) : (d.setLock i b).boot = d.boot := rfl
@[simp] theorem Dev.setLock_sec (i : Nat) (b : Bool) : (d.setLock i b).sec = d.sec := rfl
@[simp] theorem Dev.setLock_tiles (i : Nat) (b : Bool) : (d.setLock i b).tiles = d.tiles := rfl
@[simp] theorem Dev.setLock_mem (i : Nat) (b : Bool) : (d.setLock i b).mem = d.mem := rfl
@[simp] theorem Dev.setLock_sync (i : Nat) (b : Bool) : (d.setLock i b).sync = d.sync := rfl
@[simp] theorem Dev.setLock_ras (i : Nat) (b : Bool) : (d.setLock i b).ras = d.ras := rfl
@[simp] theorem Dev.setLock_eng (i : Nat) (b : Bool) : (d.setLock i b).eng = d.eng := rfl
@[simp] theorem Dev.setLock_fe (i : Nat) (b : Bool) : (d.setLock i b).fe = d.fe := rfl
@[simp] theorem Dev.setLock_step (i : Nat) (b : Bool) : (d.setLock i b).step = d.step := rfl
@[simp] theorem Dev.setLock_gc (i : Nat) (b : Bool) : (d.setLock i b).gc = d.gc := rfl
@[simp] theorem Dev.setLock_ing (i : Nat) (b : Bool) : (d.setLock i b).ing = d.ing := rfl
@[simp] theorem Dev.setLock_wins (i : Nat) (b : Bool) : (d.setLock i b).wins = d.wins := rfl
@[simp] theorem Dev.setLock_out (i : Nat) (b : Bool) : (d.setLock i b).out = d.out := rfl
@[simp] theorem Dev.setLock_free (i : Nat) (b : Bool) : (d.setLock i b).free = d.free := rfl
@[simp] theorem Dev.setLock_clk (i : Nat) (b : Bool) : (d.setLock i b).clk = d.clk := rfl
@[simp] theorem Dev.takeFree_fst : d.takeFree.1 = Config.freeWord d.free := rfl
@[simp] theorem Dev.takeFree_regs : d.takeFree.2.regs = d.regs := rfl
@[simp] theorem Dev.takeFree_ft : d.takeFree.2.ft = d.ft := rfl
@[simp] theorem Dev.takeFree_lnk : d.takeFree.2.lnk = d.lnk := rfl
@[simp] theorem Dev.takeFree_pci : d.takeFree.2.pci = d.pci := rfl
@[simp] theorem Dev.takeFree_boot : d.takeFree.2.boot = d.boot := rfl
@[simp] theorem Dev.takeFree_sec : d.takeFree.2.sec = d.sec := rfl
@[simp] theorem Dev.takeFree_tiles : d.takeFree.2.tiles = d.tiles := rfl
@[simp] theorem Dev.takeFree_mem : d.takeFree.2.mem = d.mem := rfl
@[simp] theorem Dev.takeFree_sync : d.takeFree.2.sync = d.sync := rfl
@[simp] theorem Dev.takeFree_ras : d.takeFree.2.ras = d.ras := rfl
@[simp] theorem Dev.takeFree_eng : d.takeFree.2.eng = d.eng := rfl
@[simp] theorem Dev.takeFree_fe : d.takeFree.2.fe = d.fe := rfl
@[simp] theorem Dev.takeFree_step : d.takeFree.2.step = d.step := rfl
@[simp] theorem Dev.takeFree_gc : d.takeFree.2.gc = d.gc := rfl
@[simp] theorem Dev.takeFree_ing : d.takeFree.2.ing = d.ing := rfl
@[simp] theorem Dev.takeFree_pwr : d.takeFree.2.pwr = d.pwr := rfl
@[simp] theorem Dev.takeFree_wins : d.takeFree.2.wins = d.wins := rfl
@[simp] theorem Dev.takeFree_out : d.takeFree.2.out = d.out := rfl
@[simp] theorem Dev.takeFree_clk : d.takeFree.2.clk = d.clk := rfl

/-! What an update of a block leaves in it. -/
@[simp] theorem Dev.emit_out (o : Out) : (d.emit o).out = o :: d.out := rfl
@[simp] theorem Dev.takeFree_free : d.takeFree.2.free = d.free + 1 := rfl
@[simp] theorem Dev.modFt_ft (f : FtState → FtState) : (d.modFt f).ft = f d.ft := rfl
@[simp] theorem Dev.modPci_pci (f : PciState → PciState) : (d.modPci f).pci = f d.pci := rfl
@[simp] theorem Dev.modSec_sec (f : SecState → SecState) : (d.modSec f).sec = f d.sec := rfl
@[simp] theorem Dev.modMem_mem (f : MemState → MemState) : (d.modMem f).mem = f d.mem := rfl
@[simp] theorem Dev.modSync_sync (f : SyncState → SyncState) : (d.modSync f).sync = f d.sync := rfl
@[simp] theorem Dev.modRas_ras (f : RasState → RasState) : (d.modRas f).ras = f d.ras := rfl
@[simp] theorem Dev.modEng_eng (f : EngState → EngState) : (d.modEng f).eng = f d.eng := rfl
@[simp] theorem Dev.modFe_fe (f : FeState → FeState) : (d.modFe f).fe = f d.fe := rfl
@[simp] theorem Dev.modStep_step (f : StepState → StepState) : (d.modStep f).step = f d.step := rfl
@[simp] theorem Dev.modGc_gc (f : GcState → GcState) : (d.modGc f).gc = f d.gc := rfl
@[simp] theorem Dev.modPwr_pwr (f : PwrState → PwrState) : (d.modPwr f).pwr = f d.pwr := rfl
@[simp] theorem Dev.modLnk_lnk (f : LinkState → LinkState) : (d.modLnk f).lnk = f d.lnk := rfl

end Sys2Proof.Machine
end

