-- ==== Sys2Proof/Laws/Perform.lean ====
section
/-! SUPPORT. All that a command can do: what each of the three ways of performing one leaves, and when it has its effect. -/
namespace Sys2Proof.Machine

variable {wf : Bool} {s t : State}

/-- On a part that runs, a well-formed command has its effect. -/
theorem perform_next (f : Life → Dev → Dev) (hw : wf = true) (ha : s.dev.alive = true) :
    perform wf s f = .next { s with dev := f s.life s.dev } := by simp [perform, hw, ha]
theorem performLife_next (f : Life → Dev → Life × Dev) (hw : wf = true) (ha : s.dev.alive = true) :
    performLife wf s f = .next { s with life := (f s.life s.dev).1, dev := (f s.life s.dev).2 } := by simp [performLife, hw, ha]
theorem performPins_next (f : Life → Dev → Life × Dev) (hw : wf = true) :
    performPins wf s f = .next { s with life := (f s.life s.dev).1, dev := (f s.life s.dev).2 } := by simp [performPins, hw]

/-- While no pseudo-channel is under repair, a command that reaches memory acts as any other; while one is, a command whose
access it holds changes nothing (07 R210). -/
theorem performMem_eq (f : Life → Dev → Dev) (h : s.dev.repairing = false) : performMem wf s f = perform wf s f := by
  simp [performMem, perform, Dev.orWait, h]
theorem performMem_held (f : Life → Dev → Dev) (h : s.dev.repairing = true) (hs : (f s.life s.dev).mem.stall = true) :
    performMem wf s f = .next s := by
  have e : s.dev.orWait id (f s.life) = s.dev := by simp [Dev.orWait, h, hs]
  simp [performMem, perform, e]

/-- A part that does not run takes no command of these two kinds. -/
theorem perform_dead (f : Life → Dev → Dev) (ha : s.dev.alive = false) : perform wf s f = .next s := by simp [perform, ha]
theorem performLife_dead (f : Life → Dev → Life × Dev) (ha : s.dev.alive = false) : performLife wf s f = .next s := by
  simp [performLife, ha]
/-- An ill-formed command changes nothing. -/
theorem perform_ill (f : Life → Dev → Dev) : perform false s f = .next s := by simp [perform]

/-- What survives a reset, and the queue, are no business of `perform`. -/
theorem perform_frame (f : Life → Dev → Dev) (h : perform wf s f = .next t) : t.life = s.life ∧ t.pending = s.pending := by
  simp only [perform] at h
  injection h with h
  subst h
  split <;> simp
theorem performLife_pending (f : Life → Dev → Life × Dev) (h : performLife wf s f = .next t) : t.pending = s.pending := by
  simp only [performLife] at h
  injection h with h
  subst h
  split <;> simp
theorem performPins_pending (f : Life → Dev → Life × Dev) (h : performPins wf s f = .next t) : t.pending = s.pending := by
  simp only [performPins] at h
  injection h with h
  subst h
  split <;> simp

/-- What survives a reset after a command that may act on it: what its effect says, or what it was. -/
theorem performLife_life (f : Life → Dev → Life × Dev) (h : performLife wf s f = .next t) :
    t.life = s.life ∨ t.life = (f s.life s.dev).1 := by
  simp only [performLife] at h
  injection h with h
  subst h
  split <;> simp
theorem performPins_life (f : Life → Dev → Life × Dev) (h : performPins wf s f = .next t) :
    t.life = s.life ∨ t.life = (f s.life s.dev).1 := by
  simp only [performPins] at h
  injection h with h
  subst h
  split <;> simp

end Sys2Proof.Machine
end

