-- ==== Sys2Proof/Laws/Dispatch.lean ====
section
/-! SUPPORT. All that the dispatch can do: every command but seven acts on the volatile state alone, and only where it is well-formed and the part runs. -/
namespace Sys2Proof.Machine

variable (s : State)

/-! The arm of each command. -/
theorem exec_beatBoundary : exec .beatBoundary s = execBeatBoundary s := rfl
theorem exec_noticeExpiry (requester : Nat) (number : W16) : exec (.noticeExpiry requester number) s = execNoticeExpiry requester number s := rfl
theorem exec_beatReceived (port : Nat) (body : BeatBody) : exec (.beatReceived port body) s = execBeatReceived port body s := rfl
theorem exec_masterElected : exec .masterElected s = execMasterElected s := rfl
theorem exec_lockAcquired : exec .lockAcquired s = execLockAcquired s := rfl
theorem exec_parentLost : exec .parentLost s = execParentLost s := rfl
theorem exec_probeExchange (port : Nat) : exec (.probeExchange port) s = execProbeExchange port s := rfl
theorem exec_probe (port : Nat) (reply : Bool) (t1 t2 t3 : W64) : exec (.probe port reply t1 t2 t3) s = execProbe port reply t1 t2 t3 s := rfl
theorem exec_ftPpsEdge : exec .ftPpsEdge s = execFtPpsEdge s := rfl
theorem exec_ppsMissing : exec .ppsMissing s = execPpsMissing s := rfl
theorem exec_ftEpochArm (req : Req) (hi : W32) : exec (.ftEpochArm req hi) s = execFtEpochArm req hi s := rfl
theorem exec_ftDisable (req : Req) (val : W32) : exec (.ftDisable req val) s = execFtDisable req val s := rfl
theorem exec_slipRequest (req : Req) (val : W32) : exec (.slipRequest req val) s = execSlipRequest req val s := rfl
theorem exec_slip (port : Nat) (notice : SlipNotice) : exec (.slip port notice) s = execSlip port notice s := rfl
theorem exec_nop (t h : Nat) (w : W64) : exec (.nop t h w) s = execNop t h w s := rfl
theorem exec_alu (t h : Nat) (w : W64) : exec (.alu t h w) s = execAlu t h w s := rfl
theorem exec_addi (t h : Nat) (w : W64) : exec (.addi t h w) s = execAddi t h w s := rfl
theorem exec_andi (t h : Nat) (w : W64) : exec (.andi t h w) s = execAndi t h w s := rfl
theorem exec_ori (t h : Nat) (w : W64) : exec (.ori t h w) s = execOri t h w s := rfl
theorem exec_xori (t h : Nat) (w : W64) : exec (.xori t h w) s = execXori t h w s := rfl
theorem exec_shi (t h : Nat) (w : W64) : exec (.shi t h w) s = execShi t h w s := rfl
theorem exec_liLo (t h : Nat) (w : W64) : exec (.liLo t h w) s = execLiLo t h w s := rfl
theorem exec_liHi (t h : Nat) (w : W64) : exec (.liHi t h w) s = execLiHi t h w s := rfl
theorem exec_ld (t h : Nat) (w : W64) : exec (.ld t h w) s = execLd t h w s := rfl
theorem exec_st (t h : Nat) (w : W64) : exec (.st t h w) s = execSt t h w s := rfl
theorem exec_cmp (t h : Nat) (w : W64) : exec (.cmp t h w) s = execCmp t h w s := rfl
theorem exec_cmpi (t h : Nat) (w : W64) : exec (.cmpi t h w) s = execCmpi t h w s := rfl
theorem exec_pop (t h : Nat) (w : W64) : exec (.pop t h w) s = execPop t h w s := rfl
theorem exec_br (t h : Nat) (w : W64) : exec (.br t h w) s = execBr t h w s := rfl
theorem exec_bdec (t h : Nat) (w : W64) : exec (.bdec t h w) s = execBdec t h w s := rfl
theorem exec_brr (t h : Nat) (w : W64) : exec (.brr t h w) s = execBrr t h w s := rfl
theorem exec_rdsr (t h : Nat) (w : W64) : exec (.rdsr t h w) s = execRdsr t h w s := rfl
theorem exec_tokSig (t h : Nat) (w : W64) : exec (.tokSig t h w) s = execTokSig t h w s := rfl
theorem exec_tokWait (t h : Nat) (w : W64) : exec (.tokWait t h w) s = execTokWait t h w s := rfl
theorem exec_tokWaitRelease (t h : Nat) : exec (.tokWaitRelease t h) s = execTokWaitRelease t h s := rfl
theorem exec_fenceRel (t h : Nat) (w : W64) : exec (.fenceRel t h w) s = execFenceRel t h w s := rfl
theorem exec_fenceAcq (t h : Nat) (w : W64) : exec (.fenceAcq t h w) s = execFenceAcq t h w s := rfl
theorem exec_fenceAll (t h : Nat) (w : W64) : exec (.fenceAll t h w) s = execFenceAll t h w s := rfl
theorem exec_fenceRelease (t h : Nat) : exec (.fenceRelease t h) s = execFenceRelease t h s := rfl
theorem exec_waitFt (t h : Nat) (w : W64) : exec (.waitFt t h w) s = execWaitFt t h w s := rfl
theorem exec_waitFtRelease (t h : Nat) : exec (.waitFtRelease t h) s = execWaitFtRelease t h s := rfl
theorem exec_waitW (t h : Nat) (w : W64) : exec (.waitW t h w) s = execWaitW t h w s := rfl
theorem exec_waitWDeadline (t h : Nat) : exec (.waitWDeadline t h) s = execWaitWDeadline t h s := rfl
theorem exec_endTask (t h : Nat) (w : W64) : exec (.endTask t h w) s = execEndTask t h w s := rfl
theorem exec_taskFinish (t h : Nat) : exec (.taskFinish t h) s = execTaskFinish t h s := rfl
theorem exec_mv (t h : Nat) (w : W64) : exec (.mv t h w) s = execMv t h w s := rfl
theorem exec_ldg (t h : Nat) (w : W64) : exec (.ldg t h w) s = execLdg t h w s := rfl
theorem exec_stg (t h : Nat) (w : W64) : exec (.stg t h w) s = execStg t h w s := rfl
theorem exec_atom (t h : Nat) (w : W64) : exec (.atom t h w) s = execAtom t h w s := rfl
theorem exec_atomSig (t h : Nat) (w : W64) : exec (.atomSig t h w) s = execAtomSig t h w s := rfl
theorem exec_reservedOpcode (t h : Nat) (w : W64) : exec (.reservedOpcode t h w) s = execReservedOpcode t h w s := rfl
theorem exec_mma (t h : Nat) (w : W64) : exec (.mma t h w) s = execMma t h w s := rfl
theorem exec_mmaX2 (t h : Nat) (w : W64) : exec (.mmaX2 t h w) s = execMmaX2 t h w s := rfl
theorem exec_mmaX3 (t h : Nat) (w : W64) : exec (.mmaX3 t h w) s = execMmaX3 t h w s := rfl
theorem exec_mmaS (t h : Nat) (w : W64) : exec (.mmaS t h w) s = execMmaS t h w s := rfl
theorem exec_mmaM (t h : Nat) (w : W64) : exec (.mmaM t h w) s = execMmaM t h w s := rfl
theorem exec_dist (t h : Nat) (w : W64) : exec (.dist t h w) s = execDist t h w s := rfl
theorem exec_wl (t h : Nat) (w : W64) : exec (.wl t h w) s = execWl t h w s := rfl
theorem exec_wld (t h : Nat) (w : W64) : exec (.wld t h w) s = execWld t h w s := rfl
theorem exec_vop (t h : Nat) (w : W64) : exec (.vop t h w) s = execVop t h w s := rfl
theorem exec_vfn (t h : Nat) (w : W64) : exec (.vfn t h w) s = execVfn t h w s := rfl
theorem exec_vcmp (t h : Nat) (w : W64) : exec (.vcmp t h w) s = execVcmp t h w s := rfl
theorem exec_vsel (t h : Nat) (w : W64) : exec (.vsel t h w) s = execVsel t h w s := rfl
theorem exec_vmov (t h : Nat) (w : W64) : exec (.vmov t h w) s = execVmov t h w s := rfl
theorem exec_vld (t h : Nat) (w : W64) : exec (.vld t h w) s = execVld t h w s := rfl
theorem exec_vst (t h : Nat) (w : W64) : exec (.vst t h w) s = execVst t h w s := rfl
theorem exec_epRd (t h : Nat) (w : W64) : exec (.epRd t h w) s = execEpRd t h w s := rfl
theorem exec_epWr (t h : Nat) (w : W64) : exec (.epWr t h w) s = execEpWr t h w s := rfl
theorem exec_epCvt (t h : Nat) (w : W64) : exec (.epCvt t h w) s = execEpCvt t h w s := rfl
theorem exec_epL2 (t h : Nat) (w : W64) : exec (.epL2 t h w) s = execEpL2 t h w s := rfl
theorem exec_vtag (t h : Nat) (w : W64) : exec (.vtag t h w) s = execVtag t h w s := rfl
theorem exec_vred (t h : Nat) (w : W64) : exec (.vred t h w) s = execVred t h w s := rfl
theorem exec_vmv (t h : Nat) (w : W64) : exec (.vmv t h w) s = execVmv t h w s := rfl
theorem exec_vtopk (t h : Nat) (w : W64) : exec (.vtopk t h w) s = execVtopk t h w s := rfl
theorem exec_queuedInstructionStart (t h : Nat) (q : QueueId) : exec (.queuedInstructionStart t h q) s = execQueuedInstructionStart t h q s := rfl
theorem exec_instructionComplete (t h : Nat) (u : ExecUnit) : exec (.instructionComplete t h u) s = execInstructionComplete t h u s := rfl
theorem exec_tokenSignal (t h tok : Nat) : exec (.tokenSignal t h tok) s = execTokenSignal t h tok s := rfl
theorem exec_moveDescriptor (t ch : Nat) : exec (.moveDescriptor t ch) s = execMoveDescriptor t ch s := rfl
theorem exec_moveDescriptorComplete (t ch : Nat) : exec (.moveDescriptorComplete t ch) s = execMoveDescriptorComplete t ch s := rfl
theorem exec_halfFrozen (t h : Nat) (cut : CutAt) : exec (.halfFrozen t h cut) s = execHalfFrozen t h cut s := rfl
theorem exec_tilHalt (req : Req) (t : Nat) (val : W32) : exec (.tilHalt req t val) s = execTilHalt req t val s := rfl
theorem exec_halfStopped (t h : Nat) (cut : CutAt) : exec (.halfStopped t h cut) s = execHalfStopped t h cut s := rfl
theorem exec_tilRelease (req : Req) (t h : Nat) (val : W32) : exec (.tilRelease req t h val) s = execTilRelease req t h val s := rfl
theorem exec_tilDoorbell (req : Req) (t h : Nat) (val : W32) : exec (.tilDoorbell req t h val) s = execTilDoorbell req t h val s := rfl
theorem exec_tileWindowAccess (who : Who) (t off : Nat) (op : MemOp) : exec (.tileWindowAccess who t off op) s = execTileWindowAccess who t off op s := rfl
theorem exec_taskStart (t h : Nat) : exec (.taskStart t h) s = execTaskStart t h s := rfl
theorem exec_bankExchange (t h : Nat) : exec (.bankExchange t h) s = execBankExchange t h s := rfl
theorem exec_modeChange (t : Nat) (twin : Bool) : exec (.modeChange t twin) s = execModeChange t twin s := rfl
theorem exec_memoryAccess (who : Who) (addr : W64) (op : MemOp) (ecc : Ecc) : exec (.memoryAccess who addr op ecc) s = execMemoryAccess who addr op ecc s := rfl
theorem exec_syncWordCommit (who : Who) (word : Nat) (op : MemOp) : exec (.syncWordCommit who word op) s = execSyncWordCommit who word op s := rfl
theorem exec_patrolScrub (stack : Nat) (part : ScrubPart) : exec (.patrolScrub stack part) s = execPatrolScrub stack part s := rfl
theorem exec_retire (req : Req) (stack : Nat) (val : W32) : exec (.retire req stack val) s = execRetire req stack val s := rfl
theorem exec_release (req : Req) (stack : Nat) (val : W32) : exec (.release req stack val) s = execRelease req stack val s := rfl
theorem exec_sppr (req : Req) (stack : Nat) (val : W32) : exec (.sppr req stack val) s = execSppr req stack val s := rfl
theorem exec_retirementComplete (stack : Nat) : exec (.retirementComplete stack) s = execRetirementComplete stack s := rfl
theorem exec_pprComplete (stack : Nat) (ok : Bool) : exec (.pprComplete stack ok) s = execPprComplete stack ok s := rfl
theorem exec_lostFirst (req : Req) (stack : Nat) : exec (.lostFirst req stack) s = execLostFirst req stack s := rfl
theorem exec_lostNext (req : Req) (stack : Nat) : exec (.lostNext req stack) s = execLostNext req stack s := rfl
theorem exec_bucketOpen (req : Req) (stack bucket : Nat) : exec (.bucketOpen req stack bucket) s = execBucketOpen req stack bucket s := rfl
theorem exec_bucketClose (req : Req) (stack bucket : Nat) : exec (.bucketClose req stack bucket) s = execBucketClose req stack bucket s := rfl
theorem exec_bucketRelease (req : Req) (stack bucket : Nat) : exec (.bucketRelease req stack bucket) s = execBucketRelease req stack bucket s := rfl
theorem exec_bucketCmdReserved (req : Req) (stack bucket : Nat) : exec (.bucketCmdReserved req stack bucket) s = execBucketCmdReserved req stack bucket s := rfl
theorem exec_zeroingDone (stack bucket : Nat) : exec (.zeroingDone stack bucket) s = execZeroingDone stack bucket s := rfl
theorem exec_contributionData (who : Who) (stack off : Nat) (data : List Byte) : exec (.contributionData who stack off data) s = execContributionData who stack off data s := rfl
theorem exec_endMarker (who : Who) (stack off : Nat) (val : W64) : exec (.endMarker who stack off val) s = execEndMarker who stack off val s := rfl
theorem exec_bucketDeadline (stack bucket : Nat) : exec (.bucketDeadline stack bucket) s = execBucketDeadline stack bucket s := rfl
theorem exec_bucketFinal (stack bucket : Nat) : exec (.bucketFinal stack bucket) s = execBucketFinal stack bucket s := rfl
theorem exec_churnDescriptorStart (stack : Nat) : exec (.churnDescriptorStart stack) s = execChurnDescriptorStart stack s := rfl
theorem exec_churnNormReady (stack : Nat) : exec (.churnNormReady stack) s = execChurnNormReady stack s := rfl
theorem exec_churnNoNorm (stack : Nat) : exec (.churnNoNorm stack) s = execChurnNoNorm stack s := rfl
theorem exec_churnBlock (stack : Nat) : exec (.churnBlock stack) s = execChurnBlock stack s := rfl
theorem exec_mirrorAck (stack : Nat) : exec (.mirrorAck stack) s = execMirrorAck stack s := rfl
theorem exec_mirrorFail (stack : Nat) : exec (.mirrorFail stack) s = execMirrorFail stack s := rfl
theorem exec_lambPairAck (stack : Nat) : exec (.lambPairAck stack) s = execLambPairAck stack s := rfl
theorem exec_churnDescriptorEnd (stack : Nat) : exec (.churnDescriptorEnd stack) s = execChurnDescriptorEnd stack s := rfl
theorem exec_breezeDescriptor (stack : Nat) : exec (.breezeDescriptor stack) s = execBreezeDescriptor stack s := rfl
theorem exec_breezeEnd (cut : RowCut) : exec (.breezeEnd cut) s = execBreezeEnd cut s := rfl
theorem exec_stepAttemptStart : exec .stepAttemptStart s = execStepAttemptStart s := rfl
theorem exec_drainVane : exec .drainVane s = execDrainVane s := rfl
theorem exec_reReduction : exec .reReduction s = execReReduction s := rfl
theorem exec_normPartial : exec .normPartial s = execNormPartial s := rfl
theorem exec_normWordPublish : exec .normWordPublish s = execNormWordPublish s := rfl
theorem exec_normWordForward : exec .normWordForward s = execNormWordForward s := rfl
theorem exec_trustPairPublish (plan : Nat) : exec (.trustPairPublish plan) s = execTrustPairPublish plan s := rfl
theorem exec_lambMarker (plan : Nat) : exec (.lambMarker plan) s = execLambMarker plan s := rfl
theorem exec_ownerLockLost : exec .ownerLockLost s = execOwnerLockLost s := rfl
theorem exec_crossDomainTimeout (stack bucket : Nat) : exec (.crossDomainTimeout stack bucket) s = execCrossDomainTimeout stack bucket s := rfl
theorem exec_vote : exec .vote s = execVote s := rfl
theorem exec_verdictPublish : exec .verdictPublish s = execVerdictPublish s := rfl
theorem exec_verdictDeadline : exec .verdictDeadline s = execVerdictDeadline s := rfl
theorem exec_verdictApply : exec .verdictApply s = execVerdictApply s := rfl
theorem exec_topologyChange (change : Topology) : exec (.topologyChange change) s = execTopologyChange change s := rfl
theorem exec_stepReplay : exec .stepReplay s = execStepReplay s := rfl
theorem exec_ledgerOpen (node endpoint : Nat) : exec (.ledgerOpen node endpoint) s = execLedgerOpen node endpoint s := rfl
theorem exec_ledgerClose (node endpoint : Nat) : exec (.ledgerClose node endpoint) s = execLedgerClose node endpoint s := rfl
theorem exec_writeLanded (node endpoint count : Nat) : exec (.writeLanded node endpoint count) s = execWriteLanded node endpoint count s := rfl
theorem exec_releaseSignal (who : Who) (addr : Nat) (val : W64) (count : W32) (rtag : W16) : exec (.releaseSignal who addr val count rtag) s = execReleaseSignal who addr val count rtag s := rfl
theorem exec_signalRetry (index : Nat) : exec (.signalRetry index) s = execSignalRetry index s := rfl
theorem exec_holdTimeout (index : Nat) : exec (.holdTimeout index) s = execHoldTimeout index s := rfl
theorem exec_watchArm (req : Req) (n : Nat) (val : W32) : exec (.watchArm req n val) s = execWatchArm req n val s := rfl
theorem exec_vaneBreak (req : Req) (n : Nat) : exec (.vaneBreak req n) s = execVaneBreak req n s := rfl
theorem exec_vaneReset (req : Req) (n : Nat) : exec (.vaneReset req n) s = execVaneReset req n s := rfl
theorem exec_lullEnter (t : Nat) : exec (.lullEnter t) s = execLullEnter t s := rfl
theorem exec_lullWake (t : Nat) : exec (.lullWake t) s = execLullWake t s := rfl
theorem exec_lullLeadAdapt : exec .lullLeadAdapt s = execLullLeadAdapt s := rfl
theorem exec_sqDoorbell (func q : Nat) (val : W32) : exec (.sqDoorbell func q val) s = execSqDoorbell func q val s := rfl
theorem exec_descriptorFetch (q : Nat) (data : Option (List Byte)) : exec (.descriptorFetch q data) s = execDescriptorFetch q data s := rfl
theorem exec_dispatch (e : Engine) : exec (.dispatch e) s = execDispatch e s := rfl
theorem exec_draughtPreloadDone (e : Engine) : exec (.draughtPreloadDone e) s = execDraughtPreloadDone e s := rfl
theorem exec_draughtDiscard (e : Engine) : exec (.draughtDiscard e) s = execDraughtDiscard e s := rfl
theorem exec_taskTimeout (e : Engine) : exec (.taskTimeout e) s = execTaskTimeout e s := rfl
theorem exec_windowClose (q : Nat) : exec (.windowClose q) s = execWindowClose q s := rfl
theorem exec_completionSeqWrite (cq : Nat) : exec (.completionSeqWrite cq) s = execCompletionSeqWrite cq s := rfl
theorem exec_cqDoorbell (req : Req) (cq : Nat) (val : W32) : exec (.cqDoorbell req cq val) s = execCqDoorbell req cq val s := rfl
theorem exec_cqResume (req : Req) (cq : Nat) (val : W32) : exec (.cqResume req cq val) s = execCqResume req cq val s := rfl
theorem exec_stopAck (q : Nat) (e : Engine) : exec (.stopAck q e) s = execStopAck q e s := rfl
theorem exec_allotmentWrite (req : Req) (off : Nat) (val : W32) : exec (.allotmentWrite req off val) s = execAllotmentWrite req off val s := rfl
theorem exec_adminDoorbell (req : Req) (ctx : Nat) (val : W32) : exec (.adminDoorbell req ctx val) s = execAdminDoorbell req ctx val s := rfl
theorem exec_adminCqDoorbell (req : Req) (ctx : Nat) (val : W32) : exec (.adminCqDoorbell req ctx val) s = execAdminCqDoorbell req ctx val s := rfl
theorem exec_adminResume (req : Req) (ctx : Nat) (val : W32) : exec (.adminResume req ctx val) s = execAdminResume req ctx val s := rfl
theorem exec_createCq (ctx : Nat) (cmd : List Byte) : exec (.createCq ctx cmd) s = execCreateCq ctx cmd s := rfl
theorem exec_destroyCq (ctx : Nat) (cmd : List Byte) : exec (.destroyCq ctx cmd) s = execDestroyCq ctx cmd s := rfl
theorem exec_createSq (ctx : Nat) (cmd : List Byte) : exec (.createSq ctx cmd) s = execCreateSq ctx cmd s := rfl
theorem exec_destroySq (ctx : Nat) (cmd : List Byte) : exec (.destroySq ctx cmd) s = execDestroySq ctx cmd s := rfl
theorem exec_pauseSq (ctx : Nat) (cmd : List Byte) : exec (.pauseSq ctx cmd) s = execPauseSq ctx cmd s := rfl
theorem exec_stopSq (ctx : Nat) (cmd : List Byte) : exec (.stopSq ctx cmd) s = execStopSq ctx cmd s := rfl
theorem exec_resumeSq (ctx : Nat) (cmd : List Byte) : exec (.resumeSq ctx cmd) s = execResumeSq ctx cmd s := rfl
theorem exec_setWindow (ctx : Nat) (cmd : List Byte) : exec (.setWindow ctx cmd) s = execSetWindow ctx cmd s := rfl
theorem exec_clearWindow (ctx : Nat) (cmd : List Byte) : exec (.clearWindow ctx cmd) s = execClearWindow ctx cmd s := rfl
theorem exec_resumeCq (ctx : Nat) (cmd : List Byte) : exec (.resumeCq ctx cmd) s = execResumeCq ctx cmd s := rfl
theorem exec_invalidOpcode (ctx : Nat) (cmd : List Byte) : exec (.invalidOpcode ctx cmd) s = execInvalidOpcode ctx cmd s := rfl
theorem exec_feSqPause (req : Req) (q : Nat) : exec (.feSqPause req q) s = execFeSqPause req q s := rfl
theorem exec_feSqStop (req : Req) (q : Nat) : exec (.feSqStop req q) s = execFeSqStop req q s := rfl
theorem exec_feSqResume (req : Req) (q : Nat) : exec (.feSqResume req q) s = execFeSqResume req q s := rfl
theorem exec_svcDoorbell (req : Req) (ctx : Nat) (val : W32) : exec (.svcDoorbell req ctx val) s = execSvcDoorbell req ctx val s := rfl
theorem exec_portEnable (p : Nat) : exec (.portEnable p) s = execPortEnable p s := rfl
theorem exec_portDisable (p : Nat) : exec (.portDisable p) s = execPortDisable p s := rfl
theorem exec_signalDetect (p : Nat) : exec (.signalDetect p) s = execSignalDetect p s := rfl
theorem exec_trainComplete (p : Nat) : exec (.trainComplete p) s = execTrainComplete p s := rfl
theorem exec_alignComplete (p : Nat) (found : Training) : exec (.alignComplete p found) s = execAlignComplete p found s := rfl
theorem exec_capabilityRecord (p : Nat) (rec : List Byte) : exec (.capabilityRecord p rec) s = execCapabilityRecord p rec s := rfl
theorem exec_portActive (p : Nat) : exec (.portActive p) s = execPortActive p s := rfl
theorem exec_flitReceived (p : Nat) (flit : RxFlit) (fecOk tagOk : Bool) : exec (.flitReceived p flit fecOk tagOk) s = execFlitReceived p flit fecOk tagOk s := rfl
theorem exec_linkControlFlit (p : Nat) (body : List Byte) : exec (.linkControlFlit p body) s = execLinkControlFlit p body s := rfl
theorem exec_linkControlSend (p : Nat) : exec (.linkControlSend p) s = execLinkControlSend p s := rfl
theorem exec_replayTimeout (p : Nat) : exec (.replayTimeout p) s = execReplayTimeout p s := rfl
theorem exec_swapReq (p lane : Nat) : exec (.swapReq p lane) s = execSwapReq p lane s := rfl
theorem exec_swapAck (p : Nat) (swapSeq : W32) : exec (.swapAck p swapSeq) s = execSwapAck p swapSeq s := rfl
theorem exec_swapDone (p : Nat) : exec (.swapDone p) s = execSwapDone p s := rfl
theorem exec_retrainReq (p : Nat) : exec (.retrainReq p) s = execRetrainReq p s := rfl
theorem exec_retrainAck (p : Nat) : exec (.retrainAck p) s = execRetrainAck p s := rfl
theorem exec_retrainComplete (p : Nat) (found : Training) : exec (.retrainComplete p found) s = execRetrainComplete p found s := rfl
theorem exec_retrainMaxExpiry (p : Nat) : exec (.retrainMaxExpiry p) s = execRetrainMaxExpiry p s := rfl
theorem exec_laneErrorCheck (p : Nat) (counts : List Nat) : exec (.laneErrorCheck p counts) s = execLaneErrorCheck p counts s := rfl
theorem exec_laneSwapCmd (req : Req) (p : Nat) (val : W32) : exec (.laneSwapCmd req p val) s = execLaneSwapCmd req p val s := rfl
theorem exec_partnerLost (p : Nat) : exec (.partnerLost p) s = execPartnerLost p s := rfl
theorem exec_portRejoin (req : Req) (p : Nat) : exec (.portRejoin req p) s = execPortRejoin req p s := rfl
theorem exec_retrainRequest (req : Req) (p : Nat) : exec (.retrainRequest req p) s = execRetrainRequest req p s := rfl
theorem exec_portDrain (p : Nat) : exec (.portDrain p) s = execPortDrain p s := rfl
theorem exec_portUndrain (p : Nat) : exec (.portUndrain p) s = execPortUndrain p s := rfl
theorem exec_portDrained (p : Nat) : exec (.portDrained p) s = execPortDrained p s := rfl
theorem exec_packetForward (p : Nat) (pk : Packet) : exec (.packetForward p pk) s = execPacketForward p pk s := rfl
theorem exec_write (p : Nat) (pk : Packet) : exec (.write p pk) s = execWrite p pk s := rfl
theorem exec_read (p : Nat) (pk : Packet) : exec (.read p pk) s = execRead p pk s := rfl
theorem exec_atomic (p : Nat) (pk : Packet) : exec (.atomic p pk) s = execAtomic p pk s := rfl
theorem exec_signal (p : Nat) (pk : Packet) : exec (.signal p pk) s = execSignal p pk s := rfl
theorem exec_openReq (p : Nat) (pk : Packet) : exec (.openReq p pk) s = execOpenReq p pk s := rfl
theorem exec_close (p : Nat) (pk : Packet) : exec (.close p pk) s = execClose p pk s := rfl
theorem exec_readResp (p : Nat) (pk : Packet) : exec (.readResp p pk) s = execReadResp p pk s := rfl
theorem exec_ack (p : Nat) (pk : Packet) : exec (.ack p pk) s = execAck p pk s := rfl
theorem exec_atomicResp (p : Nat) (pk : Packet) : exec (.atomicResp p pk) s = execAtomicResp p pk s := rfl
theorem exec_control (p : Nat) (pk : Packet) : exec (.control p pk) s = execControl p pk s := rfl
theorem exec_sealMsg (p : Nat) (pk : Packet) (chainOk : Bool) : exec (.sealMsg p pk chainOk) s = execSealMsg p pk chainOk s := rfl
theorem exec_packetReservedType (p : Nat) (pk : Packet) : exec (.packetReservedType p pk) s = execPacketReservedType p pk s := rfl
theorem exec_responseTimeout (rtag : W16) : exec (.responseTimeout rtag) s = execResponseTimeout rtag s := rfl
theorem exec_controlPacketSend (req : Req) (val : W32) : exec (.controlPacketSend req val) s = execControlPacketSend req val s := rfl
theorem exec_ctrlStopSq (q : Nat) : exec (.ctrlStopSq q) s = execCtrlStopSq q s := rfl
theorem exec_ctrlPauseSq (q : Nat) : exec (.ctrlPauseSq q) s = execCtrlPauseSq q s := rfl
theorem exec_drainPort (p : Nat) : exec (.drainPort p) s = execDrainPort p s := rfl
theorem exec_undrainPort (p : Nat) : exec (.undrainPort p) s = execUndrainPort p s := rfl
theorem exec_quiesceTile (t : Nat) : exec (.quiesceTile t) s = execQuiesceTile t s := rfl
theorem exec_breakVane (n : Nat) : exec (.breakVane n) s = execBreakVane n s := rfl
theorem exec_controlOther (p : Nat) (pk : Packet) : exec (.controlOther p pk) s = execControlOther p pk s := rfl
theorem exec_linkRekey (p : Nat) : exec (.linkRekey p) s = execLinkRekey p s := rfl
theorem exec_pcieLinkTrain (rate width : Nat) (mode : FlitMode) : exec (.pcieLinkTrain rate width mode) s = execPcieLinkTrain rate width mode s := rfl
theorem exec_bar0Access (func off len : Nat) (wr : Option PostedWrite) : exec (.bar0Access func off len wr) s = execBar0Access func off len wr s := rfl
theorem exec_bar4Access (off : Nat) (op : MemOp) (how : HostAttr) : exec (.bar4Access off op how) s = execBar4Access off op how s := rfl
theorem exec_vfBar4Access (ctx off : Nat) (op : MemOp) (how : HostAttr) : exec (.vfBar4Access ctx off op how) s = execVfBar4Access ctx off op how s := rfl
theorem exec_vfFlr (ctx : Nat) : exec (.vfFlr ctx) s = execVfFlr ctx s := rfl
theorem exec_hotReset : exec .hotReset s = execHotReset s := rfl
theorem exec_atsInvalidate (func : Nat) (page : Nat) : exec (.atsInvalidate func page) s = execAtsInvalidate func page s := rfl
theorem exec_dlDown : exec .dlDown s = execDlDown s := rfl
theorem exec_msixUnmask (func entry : Nat) : exec (.msixUnmask func entry) s = execMsixUnmask func entry s := rfl
theorem exec_poisonedTlp (what : HostRead) : exec (.poisonedTlp what) s = execPoisonedTlp what s := rfl
theorem exec_completionTimeout (what : HostRead) : exec (.completionTimeout what) s = execCompletionTimeout what s := rfl
theorem exec_lockInterface (ctx : Nat) : exec (.lockInterface ctx) s = execLockInterface ctx s := rfl
theorem exec_startInterface (ctx : Nat) : exec (.startInterface ctx) s = execStartInterface ctx s := rfl
theorem exec_stopInterface (ctx : Nat) : exec (.stopInterface ctx) s = execStopInterface ctx s := rfl
theorem exec_tdiError (ctx : Nat) : exec (.tdiError ctx) s = execTdiError ctx s := rfl
theorem exec_getMeasurements (nonce : List Byte) : exec (.getMeasurements nonce) s = execGetMeasurements nonce s := rfl
theorem exec_openRegion (expect : Expect) (entry base rows owner access : Nat) (secret : List Byte) : exec (.openRegion expect entry base rows owner access secret) s = execOpenRegion expect entry base rows owner access secret s := rfl
theorem exec_closeRegion (expect : Expect) (entry : Nat) : exec (.closeRegion expect entry) s = execCloseRegion expect entry s := rfl
theorem exec_bindIngestKey (expect : Expect) (slot owner : Nat) (key : List Byte) : exec (.bindIngestKey expect slot owner key) s = execBindIngestKey expect slot owner key s := rfl
theorem exec_unbindIngestKey (expect : Expect) (slot : Nat) : exec (.unbindIngestKey expect slot) s = execUnbindIngestKey expect slot s := rfl
theorem exec_confine (expect : Expect) (ctx : Nat) : exec (.confine expect ctx) s = execConfine expect ctx s := rfl
theorem exec_wrap (expect : Expect) (blob : List Byte) : exec (.wrap expect blob) s = execWrap expect blob s := rfl
theorem exec_unwrap (expect : Expect) (blob : List Byte) : exec (.unwrap expect blob) s = execUnwrap expect blob s := rfl
theorem exec_measurementExtend (slot : Nat) (digest : List Byte) : exec (.measurementExtend slot digest) s = execMeasurementExtend slot digest s := rfl
theorem exec_confinedTileClear (t : Nat) : exec (.confinedTileClear t) s = execConfinedTileClear t s := rfl
theorem exec_debugOpening (nonce token : List Byte) (scope : W32) (keyIndex : Nat) : exec (.debugOpening nonce token scope keyIndex) s = execDebugOpening nonce token scope keyIndex s := rfl
theorem exec_svnCommit : exec .svnCommit s = execSvnCommit s := rfl
theorem exec_svcAttach (ctx : Nat) (seq vec : W32) : exec (.svcAttach ctx seq vec) s = execSvcAttach ctx seq vec s := rfl
theorem exec_groupSet (ctx : Nat) (seq : W32) (group record : W64) (schedule : Schedule) : exec (.groupSet ctx seq group record schedule) s = execGroupSet ctx seq group record schedule s := rfl
theorem exec_stepRun (ctx : Nat) (seq : W32) (steps : W64) : exec (.stepRun ctx seq steps) s = execStepRun ctx seq steps s := rfl
theorem exec_fallback (ctx : Nat) (seq : W32) : exec (.fallback ctx seq) s = execFallback ctx seq s := rfl
theorem exec_lscalePolicy (ctx : Nat) (seq : W32) (interval cap : W64) : exec (.lscalePolicy ctx seq interval cap) s = execLscalePolicy ctx seq interval cap s := rfl
theorem exec_stepReport (ctx : Nat) (seq : W32) : exec (.stepReport ctx seq) s = execStepReport ctx seq s := rfl
theorem exec_checkpoint (ctx : Nat) (seq : W32) (step : W64) (place : SavePlace) (sealed : Bool) : exec (.checkpoint ctx seq step place sealed) s = execCheckpoint ctx seq step place sealed s := rfl
theorem exec_partLoad (ctx : Nat) (seq : W32) (part : Nat) (image : List Byte) : exec (.partLoad ctx seq part image) s = execPartLoad ctx seq part image s := rfl
theorem exec_fwUpdate (ctx : Nat) (seq : W32) (cluster : Nat) (image : List Byte) : exec (.fwUpdate ctx seq cluster image) s = execFwUpdate ctx seq cluster image s := rfl
theorem exec_clusterFailover (cluster : Nat) : exec (.clusterFailover cluster) s = execClusterFailover cluster s := rfl
theorem exec_gcAccess (core : Nat) (mOrHs : Bool) (pa : W64) (op : MemOp) : exec (.gcAccess core mOrHs pa op) s = execGcAccess core mOrHs pa op s := rfl
theorem exec_amoRelease (core : Nat) (pa : W64) (val : W64) : exec (.amoRelease core pa val) s = execAmoRelease core pa val s := rfl
theorem exec_ingRingTail (req : Req) (n r : Nat) (val : W32) : exec (.ingRingTail req n r val) s = execIngRingTail req n r val s := rfl
theorem exec_ingestDescriptor (n r : Nat) (loads : List (Nat × List Byte)) : exec (.ingestDescriptor n r loads) s = execIngestDescriptor n r loads s := rfl
theorem exec_ingestEnd (n : Nat) : exec (.ingestEnd n) s = execIngestEnd n s := rfl
theorem exec_ingRingDisable (req : Req) (n r : Nat) (val : W32) : exec (.ingRingDisable req n r val) s = execIngRingDisable req n r val s := rfl
theorem exec_registerWrite (req : Req) (off : Nat) (val : W32) : exec (.registerWrite req off val) s = execRegisterWrite req off val s := rfl
theorem exec_shadowReadLo (req : Req) (off : Nat) : exec (.shadowReadLo req off) s = execShadowReadLo req off s := rfl
theorem exec_stagedWriteLo (req : Req) (off : Nat) (val : W32) : exec (.stagedWriteLo req off val) s = execStagedWriteLo req off val s := rfl
theorem exec_stagedWriteHi (req : Req) (off : Nat) (val : W32) : exec (.stagedWriteHi req off val) s = execStagedWriteHi req off val s := rfl
theorem exec_sequenceClear (req : Req) (off : Nat) (val : W32) : exec (.sequenceClear req off val) s = execSequenceClear req off val s := rfl
theorem exec_seqAdvancePending (off : Nat) : exec (.seqAdvancePending off) s = execSeqAdvancePending off s := rfl
theorem exec_crcPass : exec .crcPass s = execCrcPass s := rfl
theorem exec_crcHold (req : Req) (val : W32) : exec (.crcHold req val) s = execCrcHold req val s := rfl
theorem exec_crcCommit (req : Req) (val : W32) : exec (.crcCommit req val) s = execCrcCommit req val s := rfl
theorem exec_crcRefWrite (req : Req) (val : W32) : exec (.crcRefWrite req val) s = execCrcRefWrite req val s := rfl
theorem exec_ceilingEvaluate (q : Nat) : exec (.ceilingEvaluate q) s = execCeilingEvaluate q s := rfl
theorem exec_ceilingRise (q : Nat) : exec (.ceilingRise q) s = execCeilingRise q s := rfl
theorem exec_riseTimeout (q : Nat) : exec (.riseTimeout q) s = execRiseTimeout q s := rfl
theorem exec_voltageLower (q : Nat) : exec (.voltageLower q) s = execVoltageLower q s := rfl
theorem exec_avsPoll (rail : Nat) (reply : Option AvsReply) : exec (.avsPoll rail reply) s = execAvsPoll rail reply s := rfl
theorem exec_gustTrigger (q : Nat) : exec (.gustTrigger q) s = execGustTrigger q s := rfl
theorem exec_gustRelease (q : Nat) : exec (.gustRelease q) s = execGustRelease q s := rfl
theorem exec_droop (phys cycles : Nat) : exec (.droop phys cycles) s = execDroop phys cycles s := rfl
theorem exec_currentEstimate (q amps : Nat) : exec (.currentEstimate q amps) s = execCurrentEstimate q amps s := rfl
theorem exec_thermalResponse (q temp : Nat) : exec (.thermalResponse q temp) s = execThermalResponse q temp s := rfl
theorem exec_thermtrip : exec .thermtrip s = execThermtrip s := rfl
theorem exec_pllUnlock (q : Nat) : exec (.pllUnlock q) s = execPllUnlock q s := rfl
theorem exec_pllRelock (q : Nat) : exec (.pllRelock q) s = execPllRelock q s := rfl
theorem exec_refLost : exec .refLost s = execRefLost s := rfl
theorem exec_sdrefLost (q : Nat) : exec (.sdrefLost q) s = execSdrefLost q s := rfl
theorem exec_faultLogCommit : exec .faultLogCommit s = execFaultLogCommit s := rfl
theorem exec_tileRetire (req : Req) (val : W32) : exec (.tileRetire req val) s = execTileRetire req val s := rfl
theorem exec_tileQuiesced : exec .tileQuiesced s = execTileQuiesced s := rfl
theorem exec_tileCopyComplete : exec .tileCopyComplete s = execTileCopyComplete s := rfl
theorem exec_oldTileCleared : exec .oldTileCleared s = execOldTileCleared s := rfl
theorem exec_bridgeLaneSwap (b : Nat) : exec (.bridgeLaneSwap b) s = execBridgeLaneSwap b s := rfl
theorem exec_bridgeLost (b : Nat) : exec (.bridgeLost b) s = execBridgeLost b s := rfl
theorem exec_powerUp : exec .powerUp s = execPowerUp s := rfl
theorem exec_powerLoss : exec .powerLoss s = execPowerLoss s := rfl
theorem exec_sysReset : exec .sysReset s = execSysReset s := rfl
theorem exec_sysResetRelease (fusesOk flashOk : Bool) (loaderA loaderB : List Byte) : exec (.sysResetRelease fusesOk flashOk loaderA loaderB) s = execSysResetRelease fusesOk flashOk loaderA loaderB s := rfl
theorem exec_loaderStart (stacksOk repairsOk : Bool) (fw : List (List Byte × List Byte)) (config : List Byte) : exec (.loaderStart stacksOk repairsOk fw config) s = execLoaderStart stacksOk repairsOk fw config s := rfl
theorem exec_firmwareStart (repairs : List (Nat × Nat)) (granules : List (Nat × Nat × Nat)) : exec (.firmwareStart repairs granules) s = execFirmwareStart repairs granules s := rfl
theorem exec_perst (low : Bool) : exec (.perst low) s = execPerst low s := rfl
theorem exec_pcieConfigReady : exec .pcieConfigReady s = execPcieConfigReady s := rfl
theorem exec_smbusStageRead : exec .smbusStageRead s = execSmbusStageRead s := rfl
theorem exec_laneLockLoss (p lane : Nat) : exec (.laneLockLoss p lane) s = execLaneLockLoss p lane s := rfl
theorem exec_signalLoss (p : Nat) : exec (.signalLoss p) s = execSignalLoss p s := rfl
theorem exec_configurationRequest (what : CfgReq) : exec (.configurationRequest what) s = execConfigurationRequest what s := rfl
theorem exec_spdmKeyExchange (session : Nat) : exec (.spdmKeyExchange session) s = execSpdmKeyExchange session s := rfl
theorem exec_ideKm (func : Nat) (key : List Byte) : exec (.ideKm func key) s = execIdeKm func key s := rfl
theorem exec_pldmFirmwareUpdate (cluster : Nat) (image : List Byte) : exec (.pldmFirmwareUpdate cluster image) s = execPldmFirmwareUpdate cluster image s := rfl
theorem exec_sealPacketLimit (p : Nat) : exec (.sealPacketLimit p) s = execSealPacketLimit p s := rfl
theorem exec_stackTemperature (stack temp : Nat) : exec (.stackTemperature stack temp) s = execStackTemperature stack temp s := rfl
theorem exec_windowOpen (q : Nat) : exec (.windowOpen q) s = execWindowOpen q s := rfl
theorem exec_wakeComplete (t latencyNs : Nat) : exec (.wakeComplete t latencyNs) s = execWakeComplete t latencyNs s := rfl
theorem exec_regionZeroed (entry : Nat) : exec (.regionZeroed entry) s = execRegionZeroed entry s := rfl
theorem exec_atsTranslation (cq : Nat) (writable : Bool) : exec (.atsTranslation cq writable) s = execAtsTranslation cq writable s := rfl
theorem exec_malformedTlp : exec .malformedTlp s = execMalformedTlp s := rfl

/-- A command acts by `perform`, under its own well-formedness. -/
def Acts (c : Instr) : Prop := ∀ s, ∃ f, exec c s = perform c.wf s f

theorem acts_beatBoundary : Acts .beatBoundary := by
  intro s; show ∃ f, execBeatBoundary s = _; unfold execBeatBoundary; exact ⟨_, rfl⟩
theorem acts_noticeExpiry {requester number} : Acts (.noticeExpiry requester number) := by
  intro s; show ∃ f, execNoticeExpiry requester number s = _; unfold execNoticeExpiry; exact ⟨_, rfl⟩
theorem acts_beatReceived {port body} : Acts (.beatReceived port body) := by
  intro s; show ∃ f, execBeatReceived port body s = _; unfold execBeatReceived; exact ⟨_, rfl⟩
theorem acts_masterElected : Acts .masterElected := by
  intro s; show ∃ f, execMasterElected s = _; unfold execMasterElected; exact ⟨_, rfl⟩
theorem acts_lockAcquired : Acts .lockAcquired := by
  intro s; show ∃ f, execLockAcquired s = _; unfold execLockAcquired; exact ⟨_, rfl⟩
theorem acts_parentLost : Acts .parentLost := by
  intro s; show ∃ f, execParentLost s = _; unfold execParentLost; exact ⟨_, rfl⟩
theorem acts_probeExchange {port} : Acts (.probeExchange port) := by
  intro s; show ∃ f, execProbeExchange port s = _; unfold execProbeExchange; exact ⟨_, rfl⟩
theorem acts_probe {port reply t1 t2 t3} : Acts (.probe port reply t1 t2 t3) := by
  intro s; show ∃ f, execProbe port reply t1 t2 t3 s = _; unfold execProbe; exact ⟨_, rfl⟩
theorem acts_ftPpsEdge : Acts .ftPpsEdge := by
  intro s; show ∃ f, execFtPpsEdge s = _; unfold execFtPpsEdge; exact ⟨_, rfl⟩
theorem acts_ppsMissing : Acts .ppsMissing := by
  intro s; show ∃ f, execPpsMissing s = _; unfold execPpsMissing; exact ⟨_, rfl⟩
theorem acts_ftEpochArm {req hi} : Acts (.ftEpochArm req hi) := by
  intro s; show ∃ f, execFtEpochArm req hi s = _; unfold execFtEpochArm; exact ⟨_, rfl⟩
theorem acts_ftDisable {req val} : Acts (.ftDisable req val) := by
  intro s; show ∃ f, execFtDisable req val s = _; unfold execFtDisable; exact ⟨_, rfl⟩
theorem acts_slipRequest {req val} : Acts (.slipRequest req val) := by
  intro s; show ∃ f, execSlipRequest req val s = _; unfold execSlipRequest; exact ⟨_, rfl⟩
theorem acts_slip {port notice} : Acts (.slip port notice) := by
  intro s; show ∃ f, execSlip port notice s = _; unfold execSlip; exact ⟨_, rfl⟩
theorem acts_nop {t h w} : Acts (.nop t h w) := by
  intro s; show ∃ f, execNop t h w s = _; unfold execNop; exact ⟨_, rfl⟩
theorem acts_alu {t h w} : Acts (.alu t h w) := by
  intro s; show ∃ f, execAlu t h w s = _; unfold execAlu; exact ⟨_, rfl⟩
theorem acts_addi {t h w} : Acts (.addi t h w) := by
  intro s; show ∃ f, execAddi t h w s = _; unfold execAddi; exact ⟨_, rfl⟩
theorem acts_andi {t h w} : Acts (.andi t h w) := by
  intro s; show ∃ f, execAndi t h w s = _; unfold execAndi; exact ⟨_, rfl⟩
theorem acts_ori {t h w} : Acts (.ori t h w) := by
  intro s; show ∃ f, execOri t h w s = _; unfold execOri; exact ⟨_, rfl⟩
theorem acts_xori {t h w} : Acts (.xori t h w) := by
  intro s; show ∃ f, execXori t h w s = _; unfold execXori; exact ⟨_, rfl⟩
theorem acts_shi {t h w} : Acts (.shi t h w) := by
  intro s; show ∃ f, execShi t h w s = _; unfold execShi; exact ⟨_, rfl⟩
theorem acts_liLo {t h w} : Acts (.liLo t h w) := by
  intro s; show ∃ f, execLiLo t h w s = _; unfold execLiLo; exact ⟨_, rfl⟩
theorem acts_liHi {t h w} : Acts (.liHi t h w) := by
  intro s; show ∃ f, execLiHi t h w s = _; unfold execLiHi; exact ⟨_, rfl⟩
theorem acts_ld {t h w} : Acts (.ld t h w) := by
  intro s; show ∃ f, execLd t h w s = _; unfold execLd; exact ⟨_, rfl⟩
theorem acts_st {t h w} : Acts (.st t h w) := by
  intro s; show ∃ f, execSt t h w s = _; unfold execSt; exact ⟨_, rfl⟩
theorem acts_cmp {t h w} : Acts (.cmp t h w) := by
  intro s; show ∃ f, execCmp t h w s = _; unfold execCmp; exact ⟨_, rfl⟩
theorem acts_cmpi {t h w} : Acts (.cmpi t h w) := by
  intro s; show ∃ f, execCmpi t h w s = _; unfold execCmpi; exact ⟨_, rfl⟩
theorem acts_pop {t h w} : Acts (.pop t h w) := by
  intro s; show ∃ f, execPop t h w s = _; unfold execPop; exact ⟨_, rfl⟩
theorem acts_br {t h w} : Acts (.br t h w) := by
  intro s; show ∃ f, execBr t h w s = _; unfold execBr; exact ⟨_, rfl⟩
theorem acts_bdec {t h w} : Acts (.bdec t h w) := by
  intro s; show ∃ f, execBdec t h w s = _; unfold execBdec; exact ⟨_, rfl⟩
theorem acts_brr {t h w} : Acts (.brr t h w) := by
  intro s; show ∃ f, execBrr t h w s = _; unfold execBrr; exact ⟨_, rfl⟩
theorem acts_rdsr {t h w} : Acts (.rdsr t h w) := by
  intro s; show ∃ f, execRdsr t h w s = _; unfold execRdsr; exact ⟨_, rfl⟩
theorem acts_tokSig {t h w} : Acts (.tokSig t h w) := by
  intro s; show ∃ f, execTokSig t h w s = _; unfold execTokSig; exact ⟨_, rfl⟩
theorem acts_tokWait {t h w} : Acts (.tokWait t h w) := by
  intro s; show ∃ f, execTokWait t h w s = _; unfold execTokWait; exact ⟨_, rfl⟩
theorem acts_tokWaitRelease {t h} : Acts (.tokWaitRelease t h) := by
  intro s; show ∃ f, execTokWaitRelease t h s = _; unfold execTokWaitRelease; exact ⟨_, rfl⟩
theorem acts_fenceRel {t h w} : Acts (.fenceRel t h w) := by
  intro s; show ∃ f, execFenceRel t h w s = _; unfold execFenceRel; exact ⟨_, rfl⟩
theorem acts_fenceAcq {t h w} : Acts (.fenceAcq t h w) := by
  intro s; show ∃ f, execFenceAcq t h w s = _; unfold execFenceAcq; exact ⟨_, rfl⟩
theorem acts_fenceAll {t h w} : Acts (.fenceAll t h w) := by
  intro s; show ∃ f, execFenceAll t h w s = _; unfold execFenceAll; exact ⟨_, rfl⟩
theorem acts_fenceRelease {t h} : Acts (.fenceRelease t h) := by
  intro s; show ∃ f, execFenceRelease t h s = _; unfold execFenceRelease; exact ⟨_, rfl⟩
theorem acts_waitFt {t h w} : Acts (.waitFt t h w) := by
  intro s; show ∃ f, execWaitFt t h w s = _; unfold execWaitFt; exact ⟨_, rfl⟩
theorem acts_waitFtRelease {t h} : Acts (.waitFtRelease t h) := by
  intro s; show ∃ f, execWaitFtRelease t h s = _; unfold execWaitFtRelease; exact ⟨_, rfl⟩
theorem acts_waitW {t h w} : Acts (.waitW t h w) := by
  intro s; show ∃ f, execWaitW t h w s = _; unfold execWaitW; exact ⟨_, rfl⟩
theorem acts_waitWDeadline {t h} : Acts (.waitWDeadline t h) := by
  intro s; show ∃ f, execWaitWDeadline t h s = _; unfold execWaitWDeadline; exact ⟨_, rfl⟩
theorem acts_endTask {t h w} : Acts (.endTask t h w) := by
  intro s; show ∃ f, execEndTask t h w s = _; unfold execEndTask; exact ⟨_, rfl⟩
theorem acts_taskFinish {t h} : Acts (.taskFinish t h) := by
  intro s; show ∃ f, execTaskFinish t h s = _; unfold execTaskFinish; exact ⟨_, rfl⟩
theorem acts_mv {t h w} : Acts (.mv t h w) := by
  intro s; show ∃ f, execMv t h w s = _; unfold execMv; exact ⟨_, rfl⟩
theorem acts_ldg {t h w} : Acts (.ldg t h w) := by
  intro s; show ∃ f, execLdg t h w s = _; unfold execLdg; exact ⟨_, rfl⟩
theorem acts_stg {t h w} : Acts (.stg t h w) := by
  intro s; show ∃ f, execStg t h w s = _; unfold execStg; exact ⟨_, rfl⟩
theorem acts_atom {t h w} : Acts (.atom t h w) := by
  intro s; show ∃ f, execAtom t h w s = _; unfold execAtom; exact ⟨_, rfl⟩
theorem acts_atomSig {t h w} : Acts (.atomSig t h w) := by
  intro s; show ∃ f, execAtomSig t h w s = _; unfold execAtomSig; exact ⟨_, rfl⟩
theorem acts_reservedOpcode {t h w} : Acts (.reservedOpcode t h w) := by
  intro s; show ∃ f, execReservedOpcode t h w s = _; unfold execReservedOpcode; exact ⟨_, rfl⟩
theorem acts_mma {t h w} : Acts (.mma t h w) := by
  intro s; show ∃ f, execMma t h w s = _; unfold execMma; exact ⟨_, rfl⟩
theorem acts_mmaX2 {t h w} : Acts (.mmaX2 t h w) := by
  intro s; show ∃ f, execMmaX2 t h w s = _; unfold execMmaX2; exact ⟨_, rfl⟩
theorem acts_mmaX3 {t h w} : Acts (.mmaX3 t h w) := by
  intro s; show ∃ f, execMmaX3 t h w s = _; unfold execMmaX3; exact ⟨_, rfl⟩
theorem acts_mmaS {t h w} : Acts (.mmaS t h w) := by
  intro s; show ∃ f, execMmaS t h w s = _; unfold execMmaS; exact ⟨_, rfl⟩
theorem acts_mmaM {t h w} : Acts (.mmaM t h w) := by
  intro s; show ∃ f, execMmaM t h w s = _; unfold execMmaM; exact ⟨_, rfl⟩
theorem acts_dist {t h w} : Acts (.dist t h w) := by
  intro s; show ∃ f, execDist t h w s = _; unfold execDist; exact ⟨_, rfl⟩
theorem acts_wl {t h w} : Acts (.wl t h w) := by
  intro s; show ∃ f, execWl t h w s = _; unfold execWl; exact ⟨_, rfl⟩
theorem acts_wld {t h w} : Acts (.wld t h w) := by
  intro s; show ∃ f, execWld t h w s = _; unfold execWld; exact ⟨_, rfl⟩
theorem acts_vop {t h w} : Acts (.vop t h w) := by
  intro s; show ∃ f, execVop t h w s = _; unfold execVop; exact ⟨_, rfl⟩
theorem acts_vfn {t h w} : Acts (.vfn t h w) := by
  intro s; show ∃ f, execVfn t h w s = _; unfold execVfn; exact ⟨_, rfl⟩
theorem acts_vcmp {t h w} : Acts (.vcmp t h w) := by
  intro s; show ∃ f, execVcmp t h w s = _; unfold execVcmp; exact ⟨_, rfl⟩
theorem acts_vsel {t h w} : Acts (.vsel t h w) := by
  intro s; show ∃ f, execVsel t h w s = _; unfold execVsel; exact ⟨_, rfl⟩
theorem acts_vmov {t h w} : Acts (.vmov t h w) := by
  intro s; show ∃ f, execVmov t h w s = _; unfold execVmov; exact ⟨_, rfl⟩
theorem acts_vld {t h w} : Acts (.vld t h w) := by
  intro s; show ∃ f, execVld t h w s = _; unfold execVld; exact ⟨_, rfl⟩
theorem acts_vst {t h w} : Acts (.vst t h w) := by
  intro s; show ∃ f, execVst t h w s = _; unfold execVst; exact ⟨_, rfl⟩
theorem acts_epRd {t h w} : Acts (.epRd t h w) := by
  intro s; show ∃ f, execEpRd t h w s = _; unfold execEpRd; exact ⟨_, rfl⟩
theorem acts_epWr {t h w} : Acts (.epWr t h w) := by
  intro s; show ∃ f, execEpWr t h w s = _; unfold execEpWr; exact ⟨_, rfl⟩
theorem acts_epCvt {t h w} : Acts (.epCvt t h w) := by
  intro s; show ∃ f, execEpCvt t h w s = _; unfold execEpCvt; exact ⟨_, rfl⟩
theorem acts_epL2 {t h w} : Acts (.epL2 t h w) := by
  intro s; show ∃ f, execEpL2 t h w s = _; unfold execEpL2; exact ⟨_, rfl⟩
theorem acts_vtag {t h w} : Acts (.vtag t h w) := by
  intro s; show ∃ f, execVtag t h w s = _; unfold execVtag; exact ⟨_, rfl⟩
theorem acts_vred {t h w} : Acts (.vred t h w) := by
  intro s; show ∃ f, execVred t h w s = _; unfold execVred; exact ⟨_, rfl⟩
theorem acts_vmv {t h w} : Acts (.vmv t h w) := by
  intro s; show ∃ f, execVmv t h w s = _; unfold execVmv; exact ⟨_, rfl⟩
theorem acts_vtopk {t h w} : Acts (.vtopk t h w) := by
  intro s; show ∃ f, execVtopk t h w s = _; unfold execVtopk; exact ⟨_, rfl⟩
theorem acts_queuedInstructionStart {t h q} : Acts (.queuedInstructionStart t h q) := by
  intro s; show ∃ f, execQueuedInstructionStart t h q s = _; unfold execQueuedInstructionStart; exact ⟨_, rfl⟩
theorem acts_instructionComplete {t h u} : Acts (.instructionComplete t h u) := by
  intro s; show ∃ f, execInstructionComplete t h u s = _; unfold execInstructionComplete; exact ⟨_, rfl⟩
theorem acts_tokenSignal {t h tok} : Acts (.tokenSignal t h tok) := by
  intro s; show ∃ f, execTokenSignal t h tok s = _; unfold execTokenSignal; exact ⟨_, rfl⟩
theorem acts_moveDescriptor {t ch} : Acts (.moveDescriptor t ch) := by
  intro s; show ∃ f, execMoveDescriptor t ch s = _; unfold execMoveDescriptor; exact ⟨_, rfl⟩
theorem acts_moveDescriptorComplete {t ch} : Acts (.moveDescriptorComplete t ch) := by
  intro s; show ∃ f, execMoveDescriptorComplete t ch s = _; unfold execMoveDescriptorComplete; exact ⟨_, rfl⟩
theorem acts_halfFrozen {t h cut} : Acts (.halfFrozen t h cut) := by
  intro s; show ∃ f, execHalfFrozen t h cut s = _; unfold execHalfFrozen; exact ⟨_, rfl⟩
theorem acts_tilHalt {req t val} : Acts (.tilHalt req t val) := by
  intro s; show ∃ f, execTilHalt req t val s = _; unfold execTilHalt; exact ⟨_, rfl⟩
theorem acts_halfStopped {t h cut} : Acts (.halfStopped t h cut) := by
  intro s; show ∃ f, execHalfStopped t h cut s = _; unfold execHalfStopped; exact ⟨_, rfl⟩
theorem acts_tilRelease {req t h val} : Acts (.tilRelease req t h val) := by
  intro s; show ∃ f, execTilRelease req t h val s = _; unfold execTilRelease; exact ⟨_, rfl⟩
theorem acts_tilDoorbell {req t h val} : Acts (.tilDoorbell req t h val) := by
  intro s; show ∃ f, execTilDoorbell req t h val s = _; unfold execTilDoorbell; exact ⟨_, rfl⟩
theorem acts_tileWindowAccess {who t off op} : Acts (.tileWindowAccess who t off op) := by
  intro s; show ∃ f, execTileWindowAccess who t off op s = _; unfold execTileWindowAccess; exact ⟨_, rfl⟩
theorem acts_taskStart {t h} : Acts (.taskStart t h) := by
  intro s; show ∃ f, execTaskStart t h s = _; unfold execTaskStart; exact ⟨_, rfl⟩
theorem acts_bankExchange {t h} : Acts (.bankExchange t h) := by
  intro s; show ∃ f, execBankExchange t h s = _; unfold execBankExchange; exact ⟨_, rfl⟩
theorem acts_modeChange {t twin} : Acts (.modeChange t twin) := by
  intro s; show ∃ f, execModeChange t twin s = _; unfold execModeChange; exact ⟨_, rfl⟩
theorem acts_memoryAccess {who addr op ecc} : Acts (.memoryAccess who addr op ecc) := by
  intro s; show ∃ f, execMemoryAccess who addr op ecc s = _; unfold execMemoryAccess; exact ⟨_, rfl⟩
theorem acts_syncWordCommit {who word op} : Acts (.syncWordCommit who word op) := by
  intro s; show ∃ f, execSyncWordCommit who word op s = _; unfold execSyncWordCommit; exact ⟨_, rfl⟩
theorem acts_patrolScrub {stack part} : Acts (.patrolScrub stack part) := by
  intro s; show ∃ f, execPatrolScrub stack part s = _; unfold execPatrolScrub; exact ⟨_, rfl⟩
theorem acts_retire {req stack val} : Acts (.retire req stack val) := by
  intro s; show ∃ f, execRetire req stack val s = _; unfold execRetire; exact ⟨_, rfl⟩
theorem acts_release {req stack val} : Acts (.release req stack val) := by
  intro s; show ∃ f, execRelease req stack val s = _; unfold execRelease; exact ⟨_, rfl⟩
theorem acts_sppr {req stack val} : Acts (.sppr req stack val) := by
  intro s; show ∃ f, execSppr req stack val s = _; unfold execSppr; exact ⟨_, rfl⟩
theorem acts_retirementComplete {stack} : Acts (.retirementComplete stack) := by
  intro s; show ∃ f, execRetirementComplete stack s = _; unfold execRetirementComplete; exact ⟨_, rfl⟩
theorem acts_pprComplete {stack ok} : Acts (.pprComplete stack ok) := by
  intro s; show ∃ f, execPprComplete stack ok s = _; unfold execPprComplete; exact ⟨_, rfl⟩
theorem acts_lostFirst {req stack} : Acts (.lostFirst req stack) := by
  intro s; show ∃ f, execLostFirst req stack s = _; unfold execLostFirst; exact ⟨_, rfl⟩
theorem acts_lostNext {req stack} : Acts (.lostNext req stack) := by
  intro s; show ∃ f, execLostNext req stack s = _; unfold execLostNext; exact ⟨_, rfl⟩
theorem acts_bucketOpen {req stack bucket} : Acts (.bucketOpen req stack bucket) := by
  intro s; show ∃ f, execBucketOpen req stack bucket s = _; unfold execBucketOpen; exact ⟨_, rfl⟩
theorem acts_bucketClose {req stack bucket} : Acts (.bucketClose req stack bucket) := by
  intro s; show ∃ f, execBucketClose req stack bucket s = _; unfold execBucketClose; exact ⟨_, rfl⟩
theorem acts_bucketRelease {req stack bucket} : Acts (.bucketRelease req stack bucket) := by
  intro s; show ∃ f, execBucketRelease req stack bucket s = _; unfold execBucketRelease; exact ⟨_, rfl⟩
theorem acts_bucketCmdReserved {req stack bucket} : Acts (.bucketCmdReserved req stack bucket) := by
  intro s; show ∃ f, execBucketCmdReserved req stack bucket s = _; unfold execBucketCmdReserved; exact ⟨_, rfl⟩
theorem acts_zeroingDone {stack bucket} : Acts (.zeroingDone stack bucket) := by
  intro s; show ∃ f, execZeroingDone stack bucket s = _; unfold execZeroingDone; exact ⟨_, rfl⟩
theorem acts_contributionData {who stack off data} : Acts (.contributionData who stack off data) := by
  intro s; show ∃ f, execContributionData who stack off data s = _; unfold execContributionData; exact ⟨_, rfl⟩
theorem acts_endMarker {who stack off val} : Acts (.endMarker who stack off val) := by
  intro s; show ∃ f, execEndMarker who stack off val s = _; unfold execEndMarker; exact ⟨_, rfl⟩
theorem acts_bucketDeadline {stack bucket} : Acts (.bucketDeadline stack bucket) := by
  intro s; show ∃ f, execBucketDeadline stack bucket s = _; unfold execBucketDeadline; exact ⟨_, rfl⟩
theorem acts_bucketFinal {stack bucket} : Acts (.bucketFinal stack bucket) := by
  intro s; show ∃ f, execBucketFinal stack bucket s = _; unfold execBucketFinal; exact ⟨_, rfl⟩
theorem acts_churnDescriptorStart {stack} : Acts (.churnDescriptorStart stack) := by
  intro s; show ∃ f, execChurnDescriptorStart stack s = _; unfold execChurnDescriptorStart; exact ⟨_, rfl⟩
theorem acts_churnNormReady {stack} : Acts (.churnNormReady stack) := by
  intro s; show ∃ f, execChurnNormReady stack s = _; unfold execChurnNormReady; exact ⟨_, rfl⟩
theorem acts_churnNoNorm {stack} : Acts (.churnNoNorm stack) := by
  intro s; show ∃ f, execChurnNoNorm stack s = _; unfold execChurnNoNorm; exact ⟨_, rfl⟩
theorem acts_churnBlock {stack} : Acts (.churnBlock stack) := by
  intro s; show ∃ f, execChurnBlock stack s = _; unfold execChurnBlock; exact ⟨_, rfl⟩
theorem acts_mirrorAck {stack} : Acts (.mirrorAck stack) := by
  intro s; show ∃ f, execMirrorAck stack s = _; unfold execMirrorAck; exact ⟨_, rfl⟩
theorem acts_mirrorFail {stack} : Acts (.mirrorFail stack) := by
  intro s; show ∃ f, execMirrorFail stack s = _; unfold execMirrorFail; exact ⟨_, rfl⟩
theorem acts_lambPairAck {stack} : Acts (.lambPairAck stack) := by
  intro s; show ∃ f, execLambPairAck stack s = _; unfold execLambPairAck; exact ⟨_, rfl⟩
theorem acts_churnDescriptorEnd {stack} : Acts (.churnDescriptorEnd stack) := by
  intro s; show ∃ f, execChurnDescriptorEnd stack s = _; unfold execChurnDescriptorEnd; exact ⟨_, rfl⟩
theorem acts_breezeDescriptor {stack} : Acts (.breezeDescriptor stack) := by
  intro s; show ∃ f, execBreezeDescriptor stack s = _; unfold execBreezeDescriptor; exact ⟨_, rfl⟩
theorem acts_breezeEnd {cut} : Acts (.breezeEnd cut) := by
  intro s; show ∃ f, execBreezeEnd cut s = _; unfold execBreezeEnd; exact ⟨_, rfl⟩
theorem acts_stepAttemptStart : Acts .stepAttemptStart := by
  intro s; show ∃ f, execStepAttemptStart s = _; unfold execStepAttemptStart; exact ⟨_, rfl⟩
theorem acts_drainVane : Acts .drainVane := by
  intro s; show ∃ f, execDrainVane s = _; unfold execDrainVane; exact ⟨_, rfl⟩
theorem acts_reReduction : Acts .reReduction := by
  intro s; show ∃ f, execReReduction s = _; unfold execReReduction; exact ⟨_, rfl⟩
theorem acts_normPartial : Acts .normPartial := by
  intro s; show ∃ f, execNormPartial s = _; unfold execNormPartial; exact ⟨_, rfl⟩
theorem acts_normWordPublish : Acts .normWordPublish := by
  intro s; show ∃ f, execNormWordPublish s = _; unfold execNormWordPublish; exact ⟨_, rfl⟩
theorem acts_normWordForward : Acts .normWordForward := by
  intro s; show ∃ f, execNormWordForward s = _; unfold execNormWordForward; exact ⟨_, rfl⟩
theorem acts_trustPairPublish {plan} : Acts (.trustPairPublish plan) := by
  intro s; show ∃ f, execTrustPairPublish plan s = _; unfold execTrustPairPublish; exact ⟨_, rfl⟩
theorem acts_lambMarker {plan} : Acts (.lambMarker plan) := by
  intro s; show ∃ f, execLambMarker plan s = _; unfold execLambMarker; exact ⟨_, rfl⟩
theorem acts_ownerLockLost : Acts .ownerLockLost := by
  intro s; show ∃ f, execOwnerLockLost s = _; unfold execOwnerLockLost; exact ⟨_, rfl⟩
theorem acts_crossDomainTimeout {stack bucket} : Acts (.crossDomainTimeout stack bucket) := by
  intro s; show ∃ f, execCrossDomainTimeout stack bucket s = _; unfold execCrossDomainTimeout; exact ⟨_, rfl⟩
theorem acts_vote : Acts .vote := by
  intro s; show ∃ f, execVote s = _; unfold execVote; exact ⟨_, rfl⟩
theorem acts_verdictPublish : Acts .verdictPublish := by
  intro s; show ∃ f, execVerdictPublish s = _; unfold execVerdictPublish; exact ⟨_, rfl⟩
theorem acts_verdictDeadline : Acts .verdictDeadline := by
  intro s; show ∃ f, execVerdictDeadline s = _; unfold execVerdictDeadline; exact ⟨_, rfl⟩
theorem acts_verdictApply : Acts .verdictApply := by
  intro s; show ∃ f, execVerdictApply s = _; unfold execVerdictApply; exact ⟨_, rfl⟩
theorem acts_topologyChange {change} : Acts (.topologyChange change) := by
  intro s; show ∃ f, execTopologyChange change s = _; unfold execTopologyChange; exact ⟨_, rfl⟩
theorem acts_stepReplay : Acts .stepReplay := by
  intro s; show ∃ f, execStepReplay s = _; unfold execStepReplay; exact ⟨_, rfl⟩
theorem acts_ledgerOpen {node endpoint} : Acts (.ledgerOpen node endpoint) := by
  intro s; show ∃ f, execLedgerOpen node endpoint s = _; unfold execLedgerOpen; exact ⟨_, rfl⟩
theorem acts_ledgerClose {node endpoint} : Acts (.ledgerClose node endpoint) := by
  intro s; show ∃ f, execLedgerClose node endpoint s = _; unfold execLedgerClose; exact ⟨_, rfl⟩
theorem acts_writeLanded {node endpoint count} : Acts (.writeLanded node endpoint count) := by
  intro s; show ∃ f, execWriteLanded node endpoint count s = _; unfold execWriteLanded; exact ⟨_, rfl⟩
theorem acts_releaseSignal {who addr val count rtag} : Acts (.releaseSignal who addr val count rtag) := by
  intro s; show ∃ f, execReleaseSignal who addr val count rtag s = _; unfold execReleaseSignal; exact ⟨_, rfl⟩
theorem acts_signalRetry {index} : Acts (.signalRetry index) := by
  intro s; show ∃ f, execSignalRetry index s = _; unfold execSignalRetry; exact ⟨_, rfl⟩
theorem acts_holdTimeout {index} : Acts (.holdTimeout index) := by
  intro s; show ∃ f, execHoldTimeout index s = _; unfold execHoldTimeout; exact ⟨_, rfl⟩
theorem acts_watchArm {req n val} : Acts (.watchArm req n val) := by
  intro s; show ∃ f, execWatchArm req n val s = _; unfold execWatchArm; exact ⟨_, rfl⟩
theorem acts_vaneBreak {req n} : Acts (.vaneBreak req n) := by
  intro s; show ∃ f, execVaneBreak req n s = _; unfold execVaneBreak; exact ⟨_, rfl⟩
theorem acts_vaneReset {req n} : Acts (.vaneReset req n) := by
  intro s; show ∃ f, execVaneReset req n s = _; unfold execVaneReset; exact ⟨_, rfl⟩
theorem acts_lullEnter {t} : Acts (.lullEnter t) := by
  intro s; show ∃ f, execLullEnter t s = _; unfold execLullEnter; exact ⟨_, rfl⟩
theorem acts_lullWake {t} : Acts (.lullWake t) := by
  intro s; show ∃ f, execLullWake t s = _; unfold execLullWake; exact ⟨_, rfl⟩
theorem acts_lullLeadAdapt : Acts .lullLeadAdapt := by
  intro s; show ∃ f, execLullLeadAdapt s = _; unfold execLullLeadAdapt; exact ⟨_, rfl⟩
theorem acts_sqDoorbell {func q val} : Acts (.sqDoorbell func q val) := by
  intro s; show ∃ f, execSqDoorbell func q val s = _; unfold execSqDoorbell; exact ⟨_, rfl⟩
theorem acts_descriptorFetch {q data} : Acts (.descriptorFetch q data) := by
  intro s; show ∃ f, execDescriptorFetch q data s = _; unfold execDescriptorFetch; exact ⟨_, rfl⟩
theorem acts_dispatch {e} : Acts (.dispatch e) := by
  intro s; show ∃ f, execDispatch e s = _; unfold execDispatch; exact ⟨_, rfl⟩
theorem acts_draughtPreloadDone {e} : Acts (.draughtPreloadDone e) := by
  intro s; show ∃ f, execDraughtPreloadDone e s = _; unfold execDraughtPreloadDone; exact ⟨_, rfl⟩
theorem acts_draughtDiscard {e} : Acts (.draughtDiscard e) := by
  intro s; show ∃ f, execDraughtDiscard e s = _; unfold execDraughtDiscard; exact ⟨_, rfl⟩
theorem acts_taskTimeout {e} : Acts (.taskTimeout e) := by
  intro s; show ∃ f, execTaskTimeout e s = _; unfold execTaskTimeout; exact ⟨_, rfl⟩
theorem acts_windowClose {q} : Acts (.windowClose q) := by
  intro s; show ∃ f, execWindowClose q s = _; unfold execWindowClose; exact ⟨_, rfl⟩
theorem acts_completionSeqWrite {cq} : Acts (.completionSeqWrite cq) := by
  intro s; show ∃ f, execCompletionSeqWrite cq s = _; unfold execCompletionSeqWrite; exact ⟨_, rfl⟩
theorem acts_cqDoorbell {req cq val} : Acts (.cqDoorbell req cq val) := by
  intro s; show ∃ f, execCqDoorbell req cq val s = _; unfold execCqDoorbell; exact ⟨_, rfl⟩
theorem acts_cqResume {req cq val} : Acts (.cqResume req cq val) := by
  intro s; show ∃ f, execCqResume req cq val s = _; unfold execCqResume; exact ⟨_, rfl⟩
theorem acts_stopAck {q e} : Acts (.stopAck q e) := by
  intro s; show ∃ f, execStopAck q e s = _; unfold execStopAck; exact ⟨_, rfl⟩
theorem acts_allotmentWrite {req off val} : Acts (.allotmentWrite req off val) := by
  intro s; show ∃ f, execAllotmentWrite req off val s = _; unfold execAllotmentWrite; exact ⟨_, rfl⟩
theorem acts_adminDoorbell {req ctx val} : Acts (.adminDoorbell req ctx val) := by
  intro s; show ∃ f, execAdminDoorbell req ctx val s = _; unfold execAdminDoorbell; exact ⟨_, rfl⟩
theorem acts_adminCqDoorbell {req ctx val} : Acts (.adminCqDoorbell req ctx val) := by
  intro s; show ∃ f, execAdminCqDoorbell req ctx val s = _; unfold execAdminCqDoorbell; exact ⟨_, rfl⟩
theorem acts_adminResume {req ctx val} : Acts (.adminResume req ctx val) := by
  intro s; show ∃ f, execAdminResume req ctx val s = _; unfold execAdminResume; exact ⟨_, rfl⟩
theorem acts_createCq {ctx cmd} : Acts (.createCq ctx cmd) := by
  intro s; show ∃ f, execCreateCq ctx cmd s = _; unfold execCreateCq; exact ⟨_, rfl⟩
theorem acts_destroyCq {ctx cmd} : Acts (.destroyCq ctx cmd) := by
  intro s; show ∃ f, execDestroyCq ctx cmd s = _; unfold execDestroyCq; exact ⟨_, rfl⟩
theorem acts_createSq {ctx cmd} : Acts (.createSq ctx cmd) := by
  intro s; show ∃ f, execCreateSq ctx cmd s = _; unfold execCreateSq; exact ⟨_, rfl⟩
theorem acts_destroySq {ctx cmd} : Acts (.destroySq ctx cmd) := by
  intro s; show ∃ f, execDestroySq ctx cmd s = _; unfold execDestroySq; exact ⟨_, rfl⟩
theorem acts_pauseSq {ctx cmd} : Acts (.pauseSq ctx cmd) := by
  intro s; show ∃ f, execPauseSq ctx cmd s = _; unfold execPauseSq; exact ⟨_, rfl⟩
theorem acts_stopSq {ctx cmd} : Acts (.stopSq ctx cmd) := by
  intro s; show ∃ f, execStopSq ctx cmd s = _; unfold execStopSq; exact ⟨_, rfl⟩
theorem acts_resumeSq {ctx cmd} : Acts (.resumeSq ctx cmd) := by
  intro s; show ∃ f, execResumeSq ctx cmd s = _; unfold execResumeSq; exact ⟨_, rfl⟩
theorem acts_setWindow {ctx cmd} : Acts (.setWindow ctx cmd) := by
  intro s; show ∃ f, execSetWindow ctx cmd s = _; unfold execSetWindow; exact ⟨_, rfl⟩
theorem acts_clearWindow {ctx cmd} : Acts (.clearWindow ctx cmd) := by
  intro s; show ∃ f, execClearWindow ctx cmd s = _; unfold execClearWindow; exact ⟨_, rfl⟩
theorem acts_resumeCq {ctx cmd} : Acts (.resumeCq ctx cmd) := by
  intro s; show ∃ f, execResumeCq ctx cmd s = _; unfold execResumeCq; exact ⟨_, rfl⟩
theorem acts_invalidOpcode {ctx cmd} : Acts (.invalidOpcode ctx cmd) := by
  intro s; show ∃ f, execInvalidOpcode ctx cmd s = _; unfold execInvalidOpcode; exact ⟨_, rfl⟩
theorem acts_feSqPause {req q} : Acts (.feSqPause req q) := by
  intro s; show ∃ f, execFeSqPause req q s = _; unfold execFeSqPause; exact ⟨_, rfl⟩
theorem acts_feSqStop {req q} : Acts (.feSqStop req q) := by
  intro s; show ∃ f, execFeSqStop req q s = _; unfold execFeSqStop; exact ⟨_, rfl⟩
theorem acts_feSqResume {req q} : Acts (.feSqResume req q) := by
  intro s; show ∃ f, execFeSqResume req q s = _; unfold execFeSqResume; exact ⟨_, rfl⟩
theorem acts_svcDoorbell {req ctx val} : Acts (.svcDoorbell req ctx val) := by
  intro s; show ∃ f, execSvcDoorbell req ctx val s = _; unfold execSvcDoorbell; exact ⟨_, rfl⟩
theorem acts_portEnable {p} : Acts (.portEnable p) := by
  intro s; show ∃ f, execPortEnable p s = _; unfold execPortEnable; exact ⟨_, rfl⟩
theorem acts_portDisable {p} : Acts (.portDisable p) := by
  intro s; show ∃ f, execPortDisable p s = _; unfold execPortDisable; exact ⟨_, rfl⟩
theorem acts_signalDetect {p} : Acts (.signalDetect p) := by
  intro s; show ∃ f, execSignalDetect p s = _; unfold execSignalDetect; exact ⟨_, rfl⟩
theorem acts_trainComplete {p} : Acts (.trainComplete p) := by
  intro s; show ∃ f, execTrainComplete p s = _; unfold execTrainComplete; exact ⟨_, rfl⟩
theorem acts_alignComplete {p found} : Acts (.alignComplete p found) := by
  intro s; show ∃ f, execAlignComplete p found s = _; unfold execAlignComplete; exact ⟨_, rfl⟩
theorem acts_capabilityRecord {p rec} : Acts (.capabilityRecord p rec) := by
  intro s; show ∃ f, execCapabilityRecord p rec s = _; unfold execCapabilityRecord; exact ⟨_, rfl⟩
theorem acts_portActive {p} : Acts (.portActive p) := by
  intro s; show ∃ f, execPortActive p s = _; unfold execPortActive; exact ⟨_, rfl⟩
theorem acts_flitReceived {p flit fecOk tagOk} : Acts (.flitReceived p flit fecOk tagOk) := by
  intro s; show ∃ f, execFlitReceived p flit fecOk tagOk s = _; unfold execFlitReceived; exact ⟨_, rfl⟩
theorem acts_linkControlFlit {p body} : Acts (.linkControlFlit p body) := by
  intro s; show ∃ f, execLinkControlFlit p body s = _; unfold execLinkControlFlit; exact ⟨_, rfl⟩
theorem acts_linkControlSend {p} : Acts (.linkControlSend p) := by
  intro s; show ∃ f, execLinkControlSend p s = _; unfold execLinkControlSend; exact ⟨_, rfl⟩
theorem acts_replayTimeout {p} : Acts (.replayTimeout p) := by
  intro s; show ∃ f, execReplayTimeout p s = _; unfold execReplayTimeout; exact ⟨_, rfl⟩
theorem acts_swapReq {p lane} : Acts (.swapReq p lane) := by
  intro s; show ∃ f, execSwapReq p lane s = _; unfold execSwapReq; exact ⟨_, rfl⟩
theorem acts_swapAck {p swapSeq} : Acts (.swapAck p swapSeq) := by
  intro s; show ∃ f, execSwapAck p swapSeq s = _; unfold execSwapAck; exact ⟨_, rfl⟩
theorem acts_swapDone {p} : Acts (.swapDone p) := by
  intro s; show ∃ f, execSwapDone p s = _; unfold execSwapDone; exact ⟨_, rfl⟩
theorem acts_retrainReq {p} : Acts (.retrainReq p) := by
  intro s; show ∃ f, execRetrainReq p s = _; unfold execRetrainReq; exact ⟨_, rfl⟩
theorem acts_retrainAck {p} : Acts (.retrainAck p) := by
  intro s; show ∃ f, execRetrainAck p s = _; unfold execRetrainAck; exact ⟨_, rfl⟩
theorem acts_retrainComplete {p found} : Acts (.retrainComplete p found) := by
  intro s; show ∃ f, execRetrainComplete p found s = _; unfold execRetrainComplete; exact ⟨_, rfl⟩
theorem acts_retrainMaxExpiry {p} : Acts (.retrainMaxExpiry p) := by
  intro s; show ∃ f, execRetrainMaxExpiry p s = _; unfold execRetrainMaxExpiry; exact ⟨_, rfl⟩
theorem acts_laneErrorCheck {p counts} : Acts (.laneErrorCheck p counts) := by
  intro s; show ∃ f, execLaneErrorCheck p counts s = _; unfold execLaneErrorCheck; exact ⟨_, rfl⟩
theorem acts_laneSwapCmd {req p val} : Acts (.laneSwapCmd req p val) := by
  intro s; show ∃ f, execLaneSwapCmd req p val s = _; unfold execLaneSwapCmd; exact ⟨_, rfl⟩
theorem acts_partnerLost {p} : Acts (.partnerLost p) := by
  intro s; show ∃ f, execPartnerLost p s = _; unfold execPartnerLost; exact ⟨_, rfl⟩
theorem acts_portRejoin {req p} : Acts (.portRejoin req p) := by
  intro s; show ∃ f, execPortRejoin req p s = _; unfold execPortRejoin; exact ⟨_, rfl⟩
theorem acts_retrainRequest {req p} : Acts (.retrainRequest req p) := by
  intro s; show ∃ f, execRetrainRequest req p s = _; unfold execRetrainRequest; exact ⟨_, rfl⟩
theorem acts_portDrain {p} : Acts (.portDrain p) := by
  intro s; show ∃ f, execPortDrain p s = _; unfold execPortDrain; exact ⟨_, rfl⟩
theorem acts_portUndrain {p} : Acts (.portUndrain p) := by
  intro s; show ∃ f, execPortUndrain p s = _; unfold execPortUndrain; exact ⟨_, rfl⟩
theorem acts_portDrained {p} : Acts (.portDrained p) := by
  intro s; show ∃ f, execPortDrained p s = _; unfold execPortDrained; exact ⟨_, rfl⟩
theorem acts_packetForward {p pk} : Acts (.packetForward p pk) := by
  intro s; show ∃ f, execPacketForward p pk s = _; unfold execPacketForward; exact ⟨_, rfl⟩
theorem acts_write {p pk} : Acts (.write p pk) := by
  intro s; show ∃ f, execWrite p pk s = _; unfold execWrite; exact ⟨_, rfl⟩
theorem acts_read {p pk} : Acts (.read p pk) := by
  intro s; show ∃ f, execRead p pk s = _; unfold execRead; exact ⟨_, rfl⟩
theorem acts_atomic {p pk} : Acts (.atomic p pk) := by
  intro s; show ∃ f, execAtomic p pk s = _; unfold execAtomic; exact ⟨_, rfl⟩
theorem acts_signal {p pk} : Acts (.signal p pk) := by
  intro s; show ∃ f, execSignal p pk s = _; unfold execSignal; exact ⟨_, rfl⟩
theorem acts_openReq {p pk} : Acts (.openReq p pk) := by
  intro s; show ∃ f, execOpenReq p pk s = _; unfold execOpenReq; exact ⟨_, rfl⟩
theorem acts_close {p pk} : Acts (.close p pk) := by
  intro s; show ∃ f, execClose p pk s = _; unfold execClose; exact ⟨_, rfl⟩
theorem acts_readResp {p pk} : Acts (.readResp p pk) := by
  intro s; show ∃ f, execReadResp p pk s = _; unfold execReadResp; exact ⟨_, rfl⟩
theorem acts_ack {p pk} : Acts (.ack p pk) := by
  intro s; show ∃ f, execAck p pk s = _; unfold execAck; exact ⟨_, rfl⟩
theorem acts_atomicResp {p pk} : Acts (.atomicResp p pk) := by
  intro s; show ∃ f, execAtomicResp p pk s = _; unfold execAtomicResp; exact ⟨_, rfl⟩
theorem acts_control {p pk} : Acts (.control p pk) := by
  intro s; show ∃ f, execControl p pk s = _; unfold execControl; exact ⟨_, rfl⟩
theorem acts_sealMsg {p pk chainOk} : Acts (.sealMsg p pk chainOk) := by
  intro s; show ∃ f, execSealMsg p pk chainOk s = _; unfold execSealMsg; exact ⟨_, rfl⟩
theorem acts_packetReservedType {p pk} : Acts (.packetReservedType p pk) := by
  intro s; show ∃ f, execPacketReservedType p pk s = _; unfold execPacketReservedType; exact ⟨_, rfl⟩
theorem acts_responseTimeout {rtag} : Acts (.responseTimeout rtag) := by
  intro s; show ∃ f, execResponseTimeout rtag s = _; unfold execResponseTimeout; exact ⟨_, rfl⟩
theorem acts_controlPacketSend {req val} : Acts (.controlPacketSend req val) := by
  intro s; show ∃ f, execControlPacketSend req val s = _; unfold execControlPacketSend; exact ⟨_, rfl⟩
theorem acts_ctrlStopSq {q} : Acts (.ctrlStopSq q) := by
  intro s; show ∃ f, execCtrlStopSq q s = _; unfold execCtrlStopSq; exact ⟨_, rfl⟩
theorem acts_ctrlPauseSq {q} : Acts (.ctrlPauseSq q) := by
  intro s; show ∃ f, execCtrlPauseSq q s = _; unfold execCtrlPauseSq; exact ⟨_, rfl⟩
theorem acts_drainPort {p} : Acts (.drainPort p) := by
  intro s; show ∃ f, execDrainPort p s = _; unfold execDrainPort; exact ⟨_, rfl⟩
theorem acts_undrainPort {p} : Acts (.undrainPort p) := by
  intro s; show ∃ f, execUndrainPort p s = _; unfold execUndrainPort; exact ⟨_, rfl⟩
theorem acts_quiesceTile {t} : Acts (.quiesceTile t) := by
  intro s; show ∃ f, execQuiesceTile t s = _; unfold execQuiesceTile; exact ⟨_, rfl⟩
theorem acts_breakVane {n} : Acts (.breakVane n) := by
  intro s; show ∃ f, execBreakVane n s = _; unfold execBreakVane; exact ⟨_, rfl⟩
theorem acts_controlOther {p pk} : Acts (.controlOther p pk) := by
  intro s; show ∃ f, execControlOther p pk s = _; unfold execControlOther; exact ⟨_, rfl⟩
theorem acts_linkRekey {p} : Acts (.linkRekey p) := by
  intro s; show ∃ f, execLinkRekey p s = _; unfold execLinkRekey; exact ⟨_, rfl⟩
theorem acts_pcieLinkTrain {rate width mode} : Acts (.pcieLinkTrain rate width mode) := by
  intro s; show ∃ f, execPcieLinkTrain rate width mode s = _; unfold execPcieLinkTrain; exact ⟨_, rfl⟩
theorem acts_bar0Access {func off len wr} : Acts (.bar0Access func off len wr) := by
  intro s; show ∃ f, execBar0Access func off len wr s = _; unfold execBar0Access; exact ⟨_, rfl⟩
theorem acts_bar4Access {off op how} : Acts (.bar4Access off op how) := by
  intro s; show ∃ f, execBar4Access off op how s = _; unfold execBar4Access; exact ⟨_, rfl⟩
theorem acts_vfBar4Access {ctx off op how} : Acts (.vfBar4Access ctx off op how) := by
  intro s; show ∃ f, execVfBar4Access ctx off op how s = _; unfold execVfBar4Access; exact ⟨_, rfl⟩
theorem acts_vfFlr {ctx} : Acts (.vfFlr ctx) := by
  intro s; show ∃ f, execVfFlr ctx s = _; unfold execVfFlr; exact ⟨_, rfl⟩
theorem acts_hotReset : Acts .hotReset := by
  intro s; show ∃ f, execHotReset s = _; unfold execHotReset; exact ⟨_, rfl⟩
theorem acts_atsInvalidate {func page} : Acts (.atsInvalidate func page) := by
  intro s; show ∃ f, execAtsInvalidate func page s = _; unfold execAtsInvalidate; exact ⟨_, rfl⟩
theorem acts_dlDown : Acts .dlDown := by
  intro s; show ∃ f, execDlDown s = _; unfold execDlDown; exact ⟨_, rfl⟩
theorem acts_msixUnmask {func entry} : Acts (.msixUnmask func entry) := by
  intro s; show ∃ f, execMsixUnmask func entry s = _; unfold execMsixUnmask; exact ⟨_, rfl⟩
theorem acts_poisonedTlp {what} : Acts (.poisonedTlp what) := by
  intro s; show ∃ f, execPoisonedTlp what s = _; unfold execPoisonedTlp; exact ⟨_, rfl⟩
theorem acts_completionTimeout {what} : Acts (.completionTimeout what) := by
  intro s; show ∃ f, execCompletionTimeout what s = _; unfold execCompletionTimeout; exact ⟨_, rfl⟩
theorem acts_lockInterface {ctx} : Acts (.lockInterface ctx) := by
  intro s; show ∃ f, execLockInterface ctx s = _; unfold execLockInterface; exact ⟨_, rfl⟩
theorem acts_startInterface {ctx} : Acts (.startInterface ctx) := by
  intro s; show ∃ f, execStartInterface ctx s = _; unfold execStartInterface; exact ⟨_, rfl⟩
theorem acts_stopInterface {ctx} : Acts (.stopInterface ctx) := by
  intro s; show ∃ f, execStopInterface ctx s = _; unfold execStopInterface; exact ⟨_, rfl⟩
theorem acts_tdiError {ctx} : Acts (.tdiError ctx) := by
  intro s; show ∃ f, execTdiError ctx s = _; unfold execTdiError; exact ⟨_, rfl⟩
theorem acts_getMeasurements {nonce} : Acts (.getMeasurements nonce) := by
  intro s; show ∃ f, execGetMeasurements nonce s = _; unfold execGetMeasurements; exact ⟨_, rfl⟩
theorem acts_openRegion {expect entry base rows owner access secret} : Acts (.openRegion expect entry base rows owner access secret) := by
  intro s; show ∃ f, execOpenRegion expect entry base rows owner access secret s = _; unfold execOpenRegion; exact ⟨_, rfl⟩
theorem acts_closeRegion {expect entry} : Acts (.closeRegion expect entry) := by
  intro s; show ∃ f, execCloseRegion expect entry s = _; unfold execCloseRegion; exact ⟨_, rfl⟩
theorem acts_bindIngestKey {expect slot owner key} : Acts (.bindIngestKey expect slot owner key) := by
  intro s; show ∃ f, execBindIngestKey expect slot owner key s = _; unfold execBindIngestKey; exact ⟨_, rfl⟩
theorem acts_unbindIngestKey {expect slot} : Acts (.unbindIngestKey expect slot) := by
  intro s; show ∃ f, execUnbindIngestKey expect slot s = _; unfold execUnbindIngestKey; exact ⟨_, rfl⟩
theorem acts_confine {expect ctx} : Acts (.confine expect ctx) := by
  intro s; show ∃ f, execConfine expect ctx s = _; unfold execConfine; exact ⟨_, rfl⟩
theorem acts_wrap {expect blob} : Acts (.wrap expect blob) := by
  intro s; show ∃ f, execWrap expect blob s = _; unfold execWrap; exact ⟨_, rfl⟩
theorem acts_unwrap {expect blob} : Acts (.unwrap expect blob) := by
  intro s; show ∃ f, execUnwrap expect blob s = _; unfold execUnwrap; exact ⟨_, rfl⟩
theorem acts_measurementExtend {slot digest} : Acts (.measurementExtend slot digest) := by
  intro s; show ∃ f, execMeasurementExtend slot digest s = _; unfold execMeasurementExtend; exact ⟨_, rfl⟩
theorem acts_confinedTileClear {t} : Acts (.confinedTileClear t) := by
  intro s; show ∃ f, execConfinedTileClear t s = _; unfold execConfinedTileClear; exact ⟨_, rfl⟩
theorem acts_svcAttach {ctx seq vec} : Acts (.svcAttach ctx seq vec) := by
  intro s; show ∃ f, execSvcAttach ctx seq vec s = _; unfold execSvcAttach; exact ⟨_, rfl⟩
theorem acts_groupSet {ctx seq group record schedule} : Acts (.groupSet ctx seq group record schedule) := by
  intro s; show ∃ f, execGroupSet ctx seq group record schedule s = _; unfold execGroupSet; exact ⟨_, rfl⟩
theorem acts_stepRun {ctx seq steps} : Acts (.stepRun ctx seq steps) := by
  intro s; show ∃ f, execStepRun ctx seq steps s = _; unfold execStepRun; exact ⟨_, rfl⟩
theorem acts_fallback {ctx seq} : Acts (.fallback ctx seq) := by
  intro s; show ∃ f, execFallback ctx seq s = _; unfold execFallback; exact ⟨_, rfl⟩
theorem acts_lscalePolicy {ctx seq interval cap} : Acts (.lscalePolicy ctx seq interval cap) := by
  intro s; show ∃ f, execLscalePolicy ctx seq interval cap s = _; unfold execLscalePolicy; exact ⟨_, rfl⟩
theorem acts_stepReport {ctx seq} : Acts (.stepReport ctx seq) := by
  intro s; show ∃ f, execStepReport ctx seq s = _; unfold execStepReport; exact ⟨_, rfl⟩
theorem acts_checkpoint {ctx seq step place sealed} : Acts (.checkpoint ctx seq step place sealed) := by
  intro s; show ∃ f, execCheckpoint ctx seq step place sealed s = _; unfold execCheckpoint; exact ⟨_, rfl⟩
theorem acts_partLoad {ctx seq part image} : Acts (.partLoad ctx seq part image) := by
  intro s; show ∃ f, execPartLoad ctx seq part image s = _; unfold execPartLoad; exact ⟨_, rfl⟩
theorem acts_fwUpdate {ctx seq cluster image} : Acts (.fwUpdate ctx seq cluster image) := by
  intro s; show ∃ f, execFwUpdate ctx seq cluster image s = _; unfold execFwUpdate; exact ⟨_, rfl⟩
theorem acts_clusterFailover {cluster} : Acts (.clusterFailover cluster) := by
  intro s; show ∃ f, execClusterFailover cluster s = _; unfold execClusterFailover; exact ⟨_, rfl⟩
theorem acts_gcAccess {core mOrHs pa op} : Acts (.gcAccess core mOrHs pa op) := by
  intro s; show ∃ f, execGcAccess core mOrHs pa op s = _; unfold execGcAccess; exact ⟨_, rfl⟩
theorem acts_amoRelease {core pa val} : Acts (.amoRelease core pa val) := by
  intro s; show ∃ f, execAmoRelease core pa val s = _; unfold execAmoRelease; exact ⟨_, rfl⟩
theorem acts_ingRingTail {req n r val} : Acts (.ingRingTail req n r val) := by
  intro s; show ∃ f, execIngRingTail req n r val s = _; unfold execIngRingTail; exact ⟨_, rfl⟩
theorem acts_ingestDescriptor {n r loads} : Acts (.ingestDescriptor n r loads) := by
  intro s; show ∃ f, execIngestDescriptor n r loads s = _; unfold execIngestDescriptor; exact ⟨_, rfl⟩
theorem acts_ingestEnd {n} : Acts (.ingestEnd n) := by
  intro s; show ∃ f, execIngestEnd n s = _; unfold execIngestEnd; exact ⟨_, rfl⟩
theorem acts_ingRingDisable {req n r val} : Acts (.ingRingDisable req n r val) := by
  intro s; show ∃ f, execIngRingDisable req n r val s = _; unfold execIngRingDisable; exact ⟨_, rfl⟩
theorem acts_registerWrite {req off val} : Acts (.registerWrite req off val) := by
  intro s; show ∃ f, execRegisterWrite req off val s = _; unfold execRegisterWrite; exact ⟨_, rfl⟩
theorem acts_shadowReadLo {req off} : Acts (.shadowReadLo req off) := by
  intro s; show ∃ f, execShadowReadLo req off s = _; unfold execShadowReadLo; exact ⟨_, rfl⟩
theorem acts_stagedWriteLo {req off val} : Acts (.stagedWriteLo req off val) := by
  intro s; show ∃ f, execStagedWriteLo req off val s = _; unfold execStagedWriteLo; exact ⟨_, rfl⟩
theorem acts_stagedWriteHi {req off val} : Acts (.stagedWriteHi req off val) := by
  intro s; show ∃ f, execStagedWriteHi req off val s = _; unfold execStagedWriteHi; exact ⟨_, rfl⟩
theorem acts_sequenceClear {req off val} : Acts (.sequenceClear req off val) := by
  intro s; show ∃ f, execSequenceClear req off val s = _; unfold execSequenceClear; exact ⟨_, rfl⟩
theorem acts_seqAdvancePending {off} : Acts (.seqAdvancePending off) := by
  intro s; show ∃ f, execSeqAdvancePending off s = _; unfold execSeqAdvancePending; exact ⟨_, rfl⟩
theorem acts_crcPass : Acts .crcPass := by
  intro s; show ∃ f, execCrcPass s = _; unfold execCrcPass; exact ⟨_, rfl⟩
theorem acts_crcHold {req val} : Acts (.crcHold req val) := by
  intro s; show ∃ f, execCrcHold req val s = _; unfold execCrcHold; exact ⟨_, rfl⟩
theorem acts_crcCommit {req val} : Acts (.crcCommit req val) := by
  intro s; show ∃ f, execCrcCommit req val s = _; unfold execCrcCommit; exact ⟨_, rfl⟩
theorem acts_crcRefWrite {req val} : Acts (.crcRefWrite req val) := by
  intro s; show ∃ f, execCrcRefWrite req val s = _; unfold execCrcRefWrite; exact ⟨_, rfl⟩
theorem acts_ceilingEvaluate {q} : Acts (.ceilingEvaluate q) := by
  intro s; show ∃ f, execCeilingEvaluate q s = _; unfold execCeilingEvaluate; exact ⟨_, rfl⟩
theorem acts_ceilingRise {q} : Acts (.ceilingRise q) := by
  intro s; show ∃ f, execCeilingRise q s = _; unfold execCeilingRise; exact ⟨_, rfl⟩
theorem acts_riseTimeout {q} : Acts (.riseTimeout q) := by
  intro s; show ∃ f, execRiseTimeout q s = _; unfold execRiseTimeout; exact ⟨_, rfl⟩
theorem acts_voltageLower {q} : Acts (.voltageLower q) := by
  intro s; show ∃ f, execVoltageLower q s = _; unfold execVoltageLower; exact ⟨_, rfl⟩
theorem acts_avsPoll {rail reply} : Acts (.avsPoll rail reply) := by
  intro s; show ∃ f, execAvsPoll rail reply s = _; unfold execAvsPoll; exact ⟨_, rfl⟩
theorem acts_gustTrigger {q} : Acts (.gustTrigger q) := by
  intro s; show ∃ f, execGustTrigger q s = _; unfold execGustTrigger; exact ⟨_, rfl⟩
theorem acts_gustRelease {q} : Acts (.gustRelease q) := by
  intro s; show ∃ f, execGustRelease q s = _; unfold execGustRelease; exact ⟨_, rfl⟩
theorem acts_droop {phys cycles} : Acts (.droop phys cycles) := by
  intro s; show ∃ f, execDroop phys cycles s = _; unfold execDroop; exact ⟨_, rfl⟩
theorem acts_currentEstimate {q amps} : Acts (.currentEstimate q amps) := by
  intro s; show ∃ f, execCurrentEstimate q amps s = _; unfold execCurrentEstimate; exact ⟨_, rfl⟩
theorem acts_thermalResponse {q temp} : Acts (.thermalResponse q temp) := by
  intro s; show ∃ f, execThermalResponse q temp s = _; unfold execThermalResponse; exact ⟨_, rfl⟩
theorem acts_thermtrip : Acts .thermtrip := by
  intro s; show ∃ f, execThermtrip s = _; unfold execThermtrip; exact ⟨_, rfl⟩
theorem acts_pllUnlock {q} : Acts (.pllUnlock q) := by
  intro s; show ∃ f, execPllUnlock q s = _; unfold execPllUnlock; exact ⟨_, rfl⟩
theorem acts_pllRelock {q} : Acts (.pllRelock q) := by
  intro s; show ∃ f, execPllRelock q s = _; unfold execPllRelock; exact ⟨_, rfl⟩
theorem acts_refLost : Acts .refLost := by
  intro s; show ∃ f, execRefLost s = _; unfold execRefLost; exact ⟨_, rfl⟩
theorem acts_sdrefLost {q} : Acts (.sdrefLost q) := by
  intro s; show ∃ f, execSdrefLost q s = _; unfold execSdrefLost; exact ⟨_, rfl⟩
theorem acts_faultLogCommit : Acts .faultLogCommit := by
  intro s; show ∃ f, execFaultLogCommit s = _; unfold execFaultLogCommit; exact ⟨_, rfl⟩
theorem acts_tileRetire {req val} : Acts (.tileRetire req val) := by
  intro s; show ∃ f, execTileRetire req val s = _; unfold execTileRetire; exact ⟨_, rfl⟩
theorem acts_tileQuiesced : Acts .tileQuiesced := by
  intro s; show ∃ f, execTileQuiesced s = _; unfold execTileQuiesced; exact ⟨_, rfl⟩
theorem acts_tileCopyComplete : Acts .tileCopyComplete := by
  intro s; show ∃ f, execTileCopyComplete s = _; unfold execTileCopyComplete; exact ⟨_, rfl⟩
theorem acts_oldTileCleared : Acts .oldTileCleared := by
  intro s; show ∃ f, execOldTileCleared s = _; unfold execOldTileCleared; exact ⟨_, rfl⟩
theorem acts_bridgeLaneSwap {b} : Acts (.bridgeLaneSwap b) := by
  intro s; show ∃ f, execBridgeLaneSwap b s = _; unfold execBridgeLaneSwap; exact ⟨_, rfl⟩
theorem acts_bridgeLost {b} : Acts (.bridgeLost b) := by
  intro s; show ∃ f, execBridgeLost b s = _; unfold execBridgeLost; exact ⟨_, rfl⟩
theorem acts_loaderStart {stacksOk repairsOk fw config} : Acts (.loaderStart stacksOk repairsOk fw config) := by
  intro s; show ∃ f, execLoaderStart stacksOk repairsOk fw config s = _; unfold execLoaderStart; exact ⟨_, rfl⟩
theorem acts_firmwareStart {repairs granules} : Acts (.firmwareStart repairs granules) := by
  intro s; show ∃ f, execFirmwareStart repairs granules s = _; unfold execFirmwareStart; exact ⟨_, rfl⟩
theorem acts_pcieConfigReady : Acts .pcieConfigReady := by
  intro s; show ∃ f, execPcieConfigReady s = _; unfold execPcieConfigReady; exact ⟨_, rfl⟩
theorem acts_smbusStageRead : Acts .smbusStageRead := by
  intro s; show ∃ f, execSmbusStageRead s = _; unfold execSmbusStageRead; exact ⟨_, rfl⟩
theorem acts_laneLockLoss {p lane} : Acts (.laneLockLoss p lane) := by
  intro s; show ∃ f, execLaneLockLoss p lane s = _; unfold execLaneLockLoss; exact ⟨_, rfl⟩
theorem acts_signalLoss {p} : Acts (.signalLoss p) := by
  intro s; show ∃ f, execSignalLoss p s = _; unfold execSignalLoss; exact ⟨_, rfl⟩
theorem acts_configurationRequest {what} : Acts (.configurationRequest what) := by
  intro s; show ∃ f, execConfigurationRequest what s = _; unfold execConfigurationRequest; exact ⟨_, rfl⟩
theorem acts_spdmKeyExchange {session} : Acts (.spdmKeyExchange session) := by
  intro s; show ∃ f, execSpdmKeyExchange session s = _; unfold execSpdmKeyExchange; exact ⟨_, rfl⟩
theorem acts_ideKm {func key} : Acts (.ideKm func key) := by
  intro s; show ∃ f, execIdeKm func key s = _; unfold execIdeKm; exact ⟨_, rfl⟩
theorem acts_pldmFirmwareUpdate {cluster image} : Acts (.pldmFirmwareUpdate cluster image) := by
  intro s; show ∃ f, execPldmFirmwareUpdate cluster image s = _; unfold execPldmFirmwareUpdate; exact ⟨_, rfl⟩
theorem acts_sealPacketLimit {p} : Acts (.sealPacketLimit p) := by
  intro s; show ∃ f, execSealPacketLimit p s = _; unfold execSealPacketLimit; exact ⟨_, rfl⟩
theorem acts_stackTemperature {stack temp} : Acts (.stackTemperature stack temp) := by
  intro s; show ∃ f, execStackTemperature stack temp s = _; unfold execStackTemperature; exact ⟨_, rfl⟩
theorem acts_windowOpen {q} : Acts (.windowOpen q) := by
  intro s; show ∃ f, execWindowOpen q s = _; unfold execWindowOpen; exact ⟨_, rfl⟩
theorem acts_wakeComplete {t latencyNs} : Acts (.wakeComplete t latencyNs) := by
  intro s; show ∃ f, execWakeComplete t latencyNs s = _; unfold execWakeComplete; exact ⟨_, rfl⟩
theorem acts_regionZeroed {entry} : Acts (.regionZeroed entry) := by
  intro s; show ∃ f, execRegionZeroed entry s = _; unfold execRegionZeroed; exact ⟨_, rfl⟩
theorem acts_atsTranslation {cq writable} : Acts (.atsTranslation cq writable) := by
  intro s; show ∃ f, execAtsTranslation cq writable s = _; unfold execAtsTranslation; exact ⟨_, rfl⟩
theorem acts_malformedTlp : Acts .malformedTlp := by
  intro s; show ∃ f, execMalformedTlp s = _; unfold execMalformedTlp; exact ⟨_, rfl⟩

/-- The seven commands that reach what survives a reset. -/
def reachesLife : Instr → Bool
  | .debugOpening _ _ _ _ => true
  | .svnCommit => true
  | c => isPin c

theorem acts_of_not_reachesLife (c : Instr) (h : reachesLife c = false) : Acts c := by
  cases c with
  | beatBoundary => exact acts_beatBoundary
  | noticeExpiry _ _ => exact acts_noticeExpiry
  | beatReceived _ _ => exact acts_beatReceived
  | masterElected => exact acts_masterElected
  | lockAcquired => exact acts_lockAcquired
  | parentLost => exact acts_parentLost
  | probeExchange _ => exact acts_probeExchange
  | probe _ _ _ _ _ => exact acts_probe
  | ftPpsEdge => exact acts_ftPpsEdge
  | ppsMissing => exact acts_ppsMissing
  | ftEpochArm _ _ => exact acts_ftEpochArm
  | ftDisable _ _ => exact acts_ftDisable
  | slipRequest _ _ => exact acts_slipRequest
  | slip _ _ => exact acts_slip
  | nop _ _ _ => exact acts_nop
  | alu _ _ _ => exact acts_alu
  | addi _ _ _ => exact acts_addi
  | andi _ _ _ => exact acts_andi
  | ori _ _ _ => exact acts_ori
  | xori _ _ _ => exact acts_xori
  | shi _ _ _ => exact acts_shi
  | liLo _ _ _ => exact acts_liLo
  | liHi _ _ _ => exact acts_liHi
  | ld _ _ _ => exact acts_ld
  | st _ _ _ => exact acts_st
  | cmp _ _ _ => exact acts_cmp
  | cmpi _ _ _ => exact acts_cmpi
  | pop _ _ _ => exact acts_pop
  | br _ _ _ => exact acts_br
  | bdec _ _ _ => exact acts_bdec
  | brr _ _ _ => exact acts_brr
  | rdsr _ _ _ => exact acts_rdsr
  | tokSig _ _ _ => exact acts_tokSig
  | tokWait _ _ _ => exact acts_tokWait
  | tokWaitRelease _ _ => exact acts_tokWaitRelease
  | fenceRel _ _ _ => exact acts_fenceRel
  | fenceAcq _ _ _ => exact acts_fenceAcq
  | fenceAll _ _ _ => exact acts_fenceAll
  | fenceRelease _ _ => exact acts_fenceRelease
  | waitFt _ _ _ => exact acts_waitFt
  | waitFtRelease _ _ => exact acts_waitFtRelease
  | waitW _ _ _ => exact acts_waitW
  | waitWDeadline _ _ => exact acts_waitWDeadline
  | endTask _ _ _ => exact acts_endTask
  | taskFinish _ _ => exact acts_taskFinish
  | mv _ _ _ => exact acts_mv
  | ldg _ _ _ => exact acts_ldg
  | stg _ _ _ => exact acts_stg
  | atom _ _ _ => exact acts_atom
  | atomSig _ _ _ => exact acts_atomSig
  | reservedOpcode _ _ _ => exact acts_reservedOpcode
  | mma _ _ _ => exact acts_mma
  | mmaX2 _ _ _ => exact acts_mmaX2
  | mmaX3 _ _ _ => exact acts_mmaX3
  | mmaS _ _ _ => exact acts_mmaS
  | mmaM _ _ _ => exact acts_mmaM
  | dist _ _ _ => exact acts_dist
  | wl _ _ _ => exact acts_wl
  | wld _ _ _ => exact acts_wld
  | vop _ _ _ => exact acts_vop
  | vfn _ _ _ => exact acts_vfn
  | vcmp _ _ _ => exact acts_vcmp
  | vsel _ _ _ => exact acts_vsel
  | vmov _ _ _ => exact acts_vmov
  | vld _ _ _ => exact acts_vld
  | vst _ _ _ => exact acts_vst
  | epRd _ _ _ => exact acts_epRd
  | epWr _ _ _ => exact acts_epWr
  | epCvt _ _ _ => exact acts_epCvt
  | epL2 _ _ _ => exact acts_epL2
  | vtag _ _ _ => exact acts_vtag
  | vred _ _ _ => exact acts_vred
  | vmv _ _ _ => exact acts_vmv
  | vtopk _ _ _ => exact acts_vtopk
  | queuedInstructionStart _ _ _ => exact acts_queuedInstructionStart
  | instructionComplete _ _ _ => exact acts_instructionComplete
  | tokenSignal _ _ _ => exact acts_tokenSignal
  | moveDescriptor _ _ => exact acts_moveDescriptor
  | moveDescriptorComplete _ _ => exact acts_moveDescriptorComplete
  | halfFrozen _ _ _ => exact acts_halfFrozen
  | tilHalt _ _ _ => exact acts_tilHalt
  | halfStopped _ _ _ => exact acts_halfStopped
  | tilRelease _ _ _ _ => exact acts_tilRelease
  | tilDoorbell _ _ _ _ => exact acts_tilDoorbell
  | tileWindowAccess _ _ _ _ => exact acts_tileWindowAccess
  | taskStart _ _ => exact acts_taskStart
  | bankExchange _ _ => exact acts_bankExchange
  | modeChange _ _ => exact acts_modeChange
  | memoryAccess _ _ _ _ => exact acts_memoryAccess
  | syncWordCommit _ _ _ => exact acts_syncWordCommit
  | patrolScrub _ _ => exact acts_patrolScrub
  | retire _ _ _ => exact acts_retire
  | release _ _ _ => exact acts_release
  | sppr _ _ _ => exact acts_sppr
  | retirementComplete _ => exact acts_retirementComplete
  | pprComplete _ _ => exact acts_pprComplete
  | lostFirst _ _ => exact acts_lostFirst
  | lostNext _ _ => exact acts_lostNext
  | bucketOpen _ _ _ => exact acts_bucketOpen
  | bucketClose _ _ _ => exact acts_bucketClose
  | bucketRelease _ _ _ => exact acts_bucketRelease
  | bucketCmdReserved _ _ _ => exact acts_bucketCmdReserved
  | zeroingDone _ _ => exact acts_zeroingDone
  | contributionData _ _ _ _ => exact acts_contributionData
  | endMarker _ _ _ _ => exact acts_endMarker
  | bucketDeadline _ _ => exact acts_bucketDeadline
  | bucketFinal _ _ => exact acts_bucketFinal
  | churnDescriptorStart _ => exact acts_churnDescriptorStart
  | churnNormReady _ => exact acts_churnNormReady
  | churnNoNorm _ => exact acts_churnNoNorm
  | churnBlock _ => exact acts_churnBlock
  | mirrorAck _ => exact acts_mirrorAck
  | mirrorFail _ => exact acts_mirrorFail
  | lambPairAck _ => exact acts_lambPairAck
  | churnDescriptorEnd _ => exact acts_churnDescriptorEnd
  | breezeDescriptor _ => exact acts_breezeDescriptor
  | breezeEnd _ => exact acts_breezeEnd
  | stepAttemptStart => exact acts_stepAttemptStart
  | drainVane => exact acts_drainVane
  | reReduction => exact acts_reReduction
  | normPartial => exact acts_normPartial
  | normWordPublish => exact acts_normWordPublish
  | normWordForward => exact acts_normWordForward
  | trustPairPublish _ => exact acts_trustPairPublish
  | lambMarker _ => exact acts_lambMarker
  | ownerLockLost => exact acts_ownerLockLost
  | crossDomainTimeout _ _ => exact acts_crossDomainTimeout
  | vote => exact acts_vote
  | verdictPublish => exact acts_verdictPublish
  | verdictDeadline => exact acts_verdictDeadline
  | verdictApply => exact acts_verdictApply
  | topologyChange _ => exact acts_topologyChange
  | stepReplay => exact acts_stepReplay
  | ledgerOpen _ _ => exact acts_ledgerOpen
  | ledgerClose _ _ => exact acts_ledgerClose
  | writeLanded _ _ _ => exact acts_writeLanded
  | releaseSignal _ _ _ _ _ => exact acts_releaseSignal
  | signalRetry _ => exact acts_signalRetry
  | holdTimeout _ => exact acts_holdTimeout
  | watchArm _ _ _ => exact acts_watchArm
  | vaneBreak _ _ => exact acts_vaneBreak
  | vaneReset _ _ => exact acts_vaneReset
  | lullEnter _ => exact acts_lullEnter
  | lullWake _ => exact acts_lullWake
  | lullLeadAdapt => exact acts_lullLeadAdapt
  | sqDoorbell _ _ _ => exact acts_sqDoorbell
  | descriptorFetch _ _ => exact acts_descriptorFetch
  | dispatch _ => exact acts_dispatch
  | draughtPreloadDone _ => exact acts_draughtPreloadDone
  | draughtDiscard _ => exact acts_draughtDiscard
  | taskTimeout _ => exact acts_taskTimeout
  | windowClose _ => exact acts_windowClose
  | completionSeqWrite _ => exact acts_completionSeqWrite
  | cqDoorbell _ _ _ => exact acts_cqDoorbell
  | cqResume _ _ _ => exact acts_cqResume
  | stopAck _ _ => exact acts_stopAck
  | allotmentWrite _ _ _ => exact acts_allotmentWrite
  | adminDoorbell _ _ _ => exact acts_adminDoorbell
  | adminCqDoorbell _ _ _ => exact acts_adminCqDoorbell
  | adminResume _ _ _ => exact acts_adminResume
  | createCq _ _ => exact acts_createCq
  | destroyCq _ _ => exact acts_destroyCq
  | createSq _ _ => exact acts_createSq
  | destroySq _ _ => exact acts_destroySq
  | pauseSq _ _ => exact acts_pauseSq
  | stopSq _ _ => exact acts_stopSq
  | resumeSq _ _ => exact acts_resumeSq
  | setWindow _ _ => exact acts_setWindow
  | clearWindow _ _ => exact acts_clearWindow
  | resumeCq _ _ => exact acts_resumeCq
  | invalidOpcode _ _ => exact acts_invalidOpcode
  | feSqPause _ _ => exact acts_feSqPause
  | feSqStop _ _ => exact acts_feSqStop
  | feSqResume _ _ => exact acts_feSqResume
  | svcDoorbell _ _ _ => exact acts_svcDoorbell
  | portEnable _ => exact acts_portEnable
  | portDisable _ => exact acts_portDisable
  | signalDetect _ => exact acts_signalDetect
  | trainComplete _ => exact acts_trainComplete
  | alignComplete _ _ => exact acts_alignComplete
  | capabilityRecord _ _ => exact acts_capabilityRecord
  | portActive _ => exact acts_portActive
  | flitReceived _ _ _ _ => exact acts_flitReceived
  | linkControlFlit _ _ => exact acts_linkControlFlit
  | linkControlSend _ => exact acts_linkControlSend
  | replayTimeout _ => exact acts_replayTimeout
  | swapReq _ _ => exact acts_swapReq
  | swapAck _ _ => exact acts_swapAck
  | swapDone _ => exact acts_swapDone
  | retrainReq _ => exact acts_retrainReq
  | retrainAck _ => exact acts_retrainAck
  | retrainComplete _ _ => exact acts_retrainComplete
  | retrainMaxExpiry _ => exact acts_retrainMaxExpiry
  | laneErrorCheck _ _ => exact acts_laneErrorCheck
  | laneSwapCmd _ _ _ => exact acts_laneSwapCmd
  | partnerLost _ => exact acts_partnerLost
  | portRejoin _ _ => exact acts_portRejoin
  | retrainRequest _ _ => exact acts_retrainRequest
  | portDrain _ => exact acts_portDrain
  | portUndrain _ => exact acts_portUndrain
  | portDrained _ => exact acts_portDrained
  | packetForward _ _ => exact acts_packetForward
  | write _ _ => exact acts_write
  | read _ _ => exact acts_read
  | atomic _ _ => exact acts_atomic
  | signal _ _ => exact acts_signal
  | openReq _ _ => exact acts_openReq
  | close _ _ => exact acts_close
  | readResp _ _ => exact acts_readResp
  | ack _ _ => exact acts_ack
  | atomicResp _ _ => exact acts_atomicResp
  | control _ _ => exact acts_control
  | sealMsg _ _ _ => exact acts_sealMsg
  | packetReservedType _ _ => exact acts_packetReservedType
  | responseTimeout _ => exact acts_responseTimeout
  | controlPacketSend _ _ => exact acts_controlPacketSend
  | ctrlStopSq _ => exact acts_ctrlStopSq
  | ctrlPauseSq _ => exact acts_ctrlPauseSq
  | drainPort _ => exact acts_drainPort
  | undrainPort _ => exact acts_undrainPort
  | quiesceTile _ => exact acts_quiesceTile
  | breakVane _ => exact acts_breakVane
  | controlOther _ _ => exact acts_controlOther
  | linkRekey _ => exact acts_linkRekey
  | pcieLinkTrain _ _ _ => exact acts_pcieLinkTrain
  | bar0Access _ _ _ _ => exact acts_bar0Access
  | bar4Access _ _ _ => exact acts_bar4Access
  | vfBar4Access _ _ _ _ => exact acts_vfBar4Access
  | vfFlr _ => exact acts_vfFlr
  | hotReset => exact acts_hotReset
  | atsInvalidate _ _ => exact acts_atsInvalidate
  | dlDown => exact acts_dlDown
  | msixUnmask _ _ => exact acts_msixUnmask
  | poisonedTlp _ => exact acts_poisonedTlp
  | completionTimeout _ => exact acts_completionTimeout
  | lockInterface _ => exact acts_lockInterface
  | startInterface _ => exact acts_startInterface
  | stopInterface _ => exact acts_stopInterface
  | tdiError _ => exact acts_tdiError
  | getMeasurements _ => exact acts_getMeasurements
  | openRegion _ _ _ _ _ _ _ => exact acts_openRegion
  | closeRegion _ _ => exact acts_closeRegion
  | bindIngestKey _ _ _ _ => exact acts_bindIngestKey
  | unbindIngestKey _ _ => exact acts_unbindIngestKey
  | confine _ _ => exact acts_confine
  | wrap _ _ => exact acts_wrap
  | unwrap _ _ => exact acts_unwrap
  | measurementExtend _ _ => exact acts_measurementExtend
  | confinedTileClear _ => exact acts_confinedTileClear
  | debugOpening _ _ _ _ => exact absurd h (by simp [reachesLife])
  | svnCommit => exact absurd h (by simp [reachesLife])
  | svcAttach _ _ _ => exact acts_svcAttach
  | groupSet _ _ _ _ _ => exact acts_groupSet
  | stepRun _ _ _ => exact acts_stepRun
  | fallback _ _ => exact acts_fallback
  | lscalePolicy _ _ _ _ => exact acts_lscalePolicy
  | stepReport _ _ => exact acts_stepReport
  | checkpoint _ _ _ _ _ => exact acts_checkpoint
  | partLoad _ _ _ _ => exact acts_partLoad
  | fwUpdate _ _ _ _ => exact acts_fwUpdate
  | clusterFailover _ => exact acts_clusterFailover
  | gcAccess _ _ _ _ => exact acts_gcAccess
  | amoRelease _ _ _ => exact acts_amoRelease
  | ingRingTail _ _ _ _ => exact acts_ingRingTail
  | ingestDescriptor _ _ _ => exact acts_ingestDescriptor
  | ingestEnd _ => exact acts_ingestEnd
  | ingRingDisable _ _ _ _ => exact acts_ingRingDisable
  | registerWrite _ _ _ => exact acts_registerWrite
  | shadowReadLo _ _ => exact acts_shadowReadLo
  | stagedWriteLo _ _ _ => exact acts_stagedWriteLo
  | stagedWriteHi _ _ _ => exact acts_stagedWriteHi
  | sequenceClear _ _ _ => exact acts_sequenceClear
  | seqAdvancePending _ => exact acts_seqAdvancePending
  | crcPass => exact acts_crcPass
  | crcHold _ _ => exact acts_crcHold
  | crcCommit _ _ => exact acts_crcCommit
  | crcRefWrite _ _ => exact acts_crcRefWrite
  | ceilingEvaluate _ => exact acts_ceilingEvaluate
  | ceilingRise _ => exact acts_ceilingRise
  | riseTimeout _ => exact acts_riseTimeout
  | voltageLower _ => exact acts_voltageLower
  | avsPoll _ _ => exact acts_avsPoll
  | gustTrigger _ => exact acts_gustTrigger
  | gustRelease _ => exact acts_gustRelease
  | droop _ _ => exact acts_droop
  | currentEstimate _ _ => exact acts_currentEstimate
  | thermalResponse _ _ => exact acts_thermalResponse
  | thermtrip => exact acts_thermtrip
  | pllUnlock _ => exact acts_pllUnlock
  | pllRelock _ => exact acts_pllRelock
  | refLost => exact acts_refLost
  | sdrefLost _ => exact acts_sdrefLost
  | faultLogCommit => exact acts_faultLogCommit
  | tileRetire _ _ => exact acts_tileRetire
  | tileQuiesced => exact acts_tileQuiesced
  | tileCopyComplete => exact acts_tileCopyComplete
  | oldTileCleared => exact acts_oldTileCleared
  | bridgeLaneSwap _ => exact acts_bridgeLaneSwap
  | bridgeLost _ => exact acts_bridgeLost
  | powerUp => exact absurd h (by simp [reachesLife, isPin])
  | powerLoss => exact absurd h (by simp [reachesLife, isPin])
  | sysReset => exact absurd h (by simp [reachesLife, isPin])
  | sysResetRelease _ _ _ _ => exact absurd h (by simp [reachesLife, isPin])
  | loaderStart _ _ _ _ => exact acts_loaderStart
  | firmwareStart _ _ => exact acts_firmwareStart
  | perst _ => exact absurd h (by simp [reachesLife, isPin])
  | pcieConfigReady => exact acts_pcieConfigReady
  | smbusStageRead => exact acts_smbusStageRead
  | laneLockLoss _ _ => exact acts_laneLockLoss
  | signalLoss _ => exact acts_signalLoss
  | configurationRequest _ => exact acts_configurationRequest
  | spdmKeyExchange _ => exact acts_spdmKeyExchange
  | ideKm _ _ => exact acts_ideKm
  | pldmFirmwareUpdate _ _ => exact acts_pldmFirmwareUpdate
  | sealPacketLimit _ => exact acts_sealPacketLimit
  | stackTemperature _ _ => exact acts_stackTemperature
  | windowOpen _ => exact acts_windowOpen
  | wakeComplete _ _ => exact acts_wakeComplete
  | regionZeroed _ => exact acts_regionZeroed
  | atsTranslation _ _ => exact acts_atsTranslation
  | malformedTlp => exact acts_malformedTlp

/-- What survives a reset is untouched by every other command, and so is the queue. -/
theorem exec_frame {c : Instr} {s t : State} (h : reachesLife c = false) (e : exec c s = .next t) :
    t.life = s.life ∧ t.pending = s.pending := by
  obtain ⟨f, hf⟩ := acts_of_not_reachesLife c h s
  exact perform_frame f (hf ▸ e)

end Sys2Proof.Machine
end

