-- ==== Sys2Proof/Laws/Maps.lean ====
section
/-! SUPPORT. Laws of the sparse maps: what a write, a removal and a read say of one another, and that a store keeps its canonical form. -/
namespace Sys2Proof.Machine

variable {α : Type}

@[simp] theorem mapGet_nil (d : α) (k : Nat) : mapGet d [] k = d := rfl
@[simp] theorem mapFind_nil (k : Nat) : mapFind ([] : MapOf α) k = none := rfl
@[simp] theorem mapAfter_nil (k : Nat) : mapAfter ([] : MapOf α) k = [] := rfl

@[simp] theorem mapGet_mapPut_same (d : α) (m : MapOf α) (k : Nat) (v : α) : mapGet d (mapPut m k v) k = v := by
  induction m with
  | nil => simp [mapPut, mapGet]
  | cons e m ih =>
    obtain ⟨a, x⟩ := e
    simp only [mapPut]
    split
    · simp [mapGet]
    · split
      · simp [mapGet]
      · simp only [mapGet]
        rw [if_neg ‹¬a = k›, if_neg ‹¬k < a›, ih]

theorem mapGet_mapPut_ne (d : α) (m : MapOf α) (k j : Nat) (v : α) (h : j ≠ k) : mapGet d (mapPut m k v) j = mapGet d m j := by
  induction m with
  | nil => simp only [mapPut, mapGet]; rw [if_neg (Ne.symm h)]; simp
  | cons e m ih =>
    obtain ⟨a, x⟩ := e
    simp only [mapPut]
    split
    · subst_vars; simp only [mapGet]; rw [if_neg (Ne.symm h), if_neg (Ne.symm h)]
    · split
      · simp only [mapGet]
        rw [if_neg (Ne.symm h)]
        split
        · rw [if_neg (by omega), if_pos (by omega)]
        · rfl
      · simp only [mapGet, ih]

@[simp] theorem mapPut_mapPut_same (m : MapOf α) (k : Nat) (v w : α) : mapPut (mapPut m k v) k w = mapPut m k w := by
  induction m with
  | nil => simp [mapPut]
  | cons e m ih =>
    obtain ⟨a, x⟩ := e
    by_cases h : a = k
    · subst h; simp [mapPut]
    · by_cases l : k < a
      · simp [mapPut, h, l]
      · simp [mapPut, h, l, ih]

@[simp] theorem mapFind_mapPut_same (m : MapOf α) (k : Nat) (v : α) : mapFind (mapPut m k v) k = some v := by
  induction m with
  | nil => simp [mapPut, mapFind]
  | cons e m ih =>
    obtain ⟨a, x⟩ := e
    simp only [mapPut]
    split
    · simp [mapFind]
    · split
      · simp [mapFind]
      · simp only [mapFind]
        rw [if_neg ‹¬a = k›, if_neg ‹¬k < a›, ih]

theorem mapFind_mapPut_ne (m : MapOf α) (k j : Nat) (v : α) (h : j ≠ k) : mapFind (mapPut m k v) j = mapFind m j := by
  induction m with
  | nil => simp only [mapPut, mapFind]; rw [if_neg (Ne.symm h)]; simp
  | cons e m ih =>
    obtain ⟨a, x⟩ := e
    simp only [mapPut]
    split
    · subst_vars; simp only [mapFind]; rw [if_neg (Ne.symm h), if_neg (Ne.symm h)]
    · split
      · simp only [mapFind]
        rw [if_neg (Ne.symm h)]
        split
        · rw [if_neg (by omega), if_pos (by omega)]
        · rfl
      · simp only [mapFind, ih]

theorem mapGet_mapAfter_le (d : α) (m : MapOf α) (k j : Nat) (h : j ≤ k) : mapGet d (mapAfter m k) j = d := by
  induction m with
  | nil => rfl
  | cons e m ih =>
    obtain ⟨a, x⟩ := e
    simp only [mapAfter]
    split
    · exact ih
    · simp only [mapGet]; rw [if_neg (by omega), if_pos (by omega)]

theorem mapGet_mapAfter_gt (d : α) (m : MapOf α) (k j : Nat) (h : k < j) : mapGet d (mapAfter m k) j = mapGet d m j := by
  induction m with
  | nil => rfl
  | cons e m ih =>
    obtain ⟨a, x⟩ := e
    simp only [mapAfter]
    split
    · rw [ih]; simp only [mapGet]; rw [if_neg (by omega), if_neg (by omega)]
    · rfl

@[simp] theorem mapGet_mapDel_same (d : α) (m : MapOf α) (k : Nat) : mapGet d (mapDel m k) k = d := by
  induction m with
  | nil => rfl
  | cons e m ih =>
    obtain ⟨a, x⟩ := e
    simp only [mapDel]
    split
    · exact mapGet_mapAfter_le d m k k (Nat.le_refl k)
    · split
      · simp only [mapGet]; rw [if_neg ‹_›, if_pos ‹_›]
      · simp only [mapGet]; rw [if_neg ‹¬a = k›, if_neg ‹¬k < a›, ih]

theorem mapGet_mapDel_ne (d : α) (m : MapOf α) (k j : Nat) (h : j ≠ k) : mapGet d (mapDel m k) j = mapGet d m j := by
  induction m with
  | nil => rfl
  | cons e m ih =>
    obtain ⟨a, x⟩ := e
    simp only [mapDel]
    split
    · subst_vars
      simp only [mapGet]
      rw [if_neg (Ne.symm h)]
      split
      · exact mapGet_mapAfter_le d m a j (by omega)
      · exact mapGet_mapAfter_gt d m a j (by omega)
    · split
      · rfl
      · simp only [mapGet, ih]

@[simp] theorem mapGet_mapSet_same [DecidableEq α] (d : α) (m : MapOf α) (k : Nat) (v : α) : mapGet d (mapSet d m k v) k = v := by
  unfold mapSet; split
  · simp_all
  · simp

theorem mapGet_mapSet_ne [DecidableEq α] (d : α) (m : MapOf α) (k j : Nat) (v : α) (h : j ≠ k) :
    mapGet d (mapSet d m k v) j = mapGet d m j := by
  unfold mapSet; split
  · exact mapGet_mapDel_ne d m k j h
  · exact mapGet_mapPut_ne d m k j v h

@[simp] theorem mapGet_mapMod_same (d : α) (m : MapOf α) (k : Nat) (f : α → α) : mapGet d (mapMod d m k f) k = f (mapGet d m k) := by
  simp [mapMod]

theorem mapGet_mapMod_ne (d : α) (m : MapOf α) (k j : Nat) (f : α → α) (h : j ≠ k) : mapGet d (mapMod d m k f) j = mapGet d m j :=
  mapGet_mapPut_ne d m k j _ h

/-! ## The canonical form -/

variable [DecidableEq α]

theorem mapWfFrom_cons {d : α} {n k : Nat} {v : α} {m : MapOf α} :
    mapWfFrom d n ((k, v) :: m) = true ↔ n ≤ k ∧ v ≠ d ∧ mapWfFrom d (k + 1) m = true := by
  simp [mapWfFrom, and_assoc]

theorem mapWfFrom_mono {d : α} {n j : Nat} {m : MapOf α} (h : mapWfFrom d n m = true) (hj : j ≤ n) : mapWfFrom d j m = true := by
  cases m with
  | nil => rfl
  | cons e m => obtain ⟨a, x⟩ := e; rw [mapWfFrom_cons] at *; exact ⟨by omega, h.2⟩

theorem mapWfFrom_mapPut {d : α} {n k : Nat} {v : α} {m : MapOf α} (h : mapWfFrom d n m = true) (hk : n ≤ k) (hv : v ≠ d) :
    mapWfFrom d n (mapPut m k v) = true := by
  induction m generalizing n with
  | nil => simp [mapPut, mapWfFrom, hk, hv]
  | cons e m ih =>
    obtain ⟨a, x⟩ := e
    rw [mapWfFrom_cons] at h
    simp only [mapPut]
    split
    · subst_vars; rw [mapWfFrom_cons]; exact ⟨hk, hv, h.2.2⟩
    · split
      · rw [mapWfFrom_cons, mapWfFrom_cons]; exact ⟨hk, hv, by omega, h.2⟩
      · rw [mapWfFrom_cons]; exact ⟨h.1, h.2.1, ih h.2.2 (by omega)⟩

theorem mapWfFrom_mapAfter {d : α} {n k : Nat} {m : MapOf α} (h : mapWfFrom d n m = true) : mapWfFrom d n (mapAfter m k) = true := by
  induction m generalizing n with
  | nil => rfl
  | cons e m ih =>
    obtain ⟨a, x⟩ := e
    simp only [mapAfter]
    split
    · exact ih (mapWfFrom_mono (mapWfFrom_cons.1 h).2.2 (by have := (mapWfFrom_cons.1 h).1; omega))
    · exact h

theorem mapWfFrom_mapDel {d : α} {n k : Nat} {m : MapOf α} (h : mapWfFrom d n m = true) : mapWfFrom d n (mapDel m k) = true := by
  induction m generalizing n with
  | nil => rfl
  | cons e m ih =>
    obtain ⟨a, x⟩ := e
    simp only [mapDel]
    split
    · exact mapWfFrom_mapAfter (mapWfFrom_mono (mapWfFrom_cons.1 h).2.2 (by have := (mapWfFrom_cons.1 h).1; omega))
    · split
      · exact h
      · rw [mapWfFrom_cons] at h ⊢; exact ⟨h.1, h.2.1, ih h.2.2⟩

/-- A write keeps a store canonical: writing what an unlisted key reads as removes the entry. -/
theorem mapWf_mapSet {d : α} {m : MapOf α} (k : Nat) (v : α) (h : mapWf d m = true) : mapWf d (mapSet d m k v) = true := by
  unfold mapSet mapWf at *; split
  · exact mapWfFrom_mapDel h
  · exact mapWfFrom_mapPut h (Nat.zero_le k) ‹_›

theorem mapWfFrom_filter {d : α} {n : Nat} {m : MapOf α} (p : Nat × α → Bool) (h : mapWfFrom d n m = true) :
    mapWfFrom d n (m.filter p) = true := by
  induction m generalizing n with
  | nil => rfl
  | cons e m ih =>
    obtain ⟨a, x⟩ := e
    have hc := mapWfFrom_cons.1 h
    simp only [List.filter]
    split
    · rw [mapWfFrom_cons]; exact ⟨hc.1, hc.2.1, ih hc.2.2⟩
    · exact ih (mapWfFrom_mono hc.2.2 (by omega))

/-- Leaving entries out keeps a store canonical. -/
theorem mapWf_filter {d : α} {m : MapOf α} (p : Nat × α → Bool) (h : mapWf d m = true) : mapWf d (m.filter p) = true :=
  mapWfFrom_filter p h

/-- Two canonical stores that read alike at every key are the same data. -/
theorem mapWfFrom_ext {d : α} {n : Nat} {m m' : MapOf α} (h : mapWfFrom d n m = true) (h' : mapWfFrom d n m' = true)
    (e : ∀ k, mapGet d m k = mapGet d m' k) : m = m' := by
  induction m generalizing n m' with
  | nil =>
    cases m' with
    | nil => rfl
    | cons p m' =>
      obtain ⟨a, x⟩ := p
      have := e a
      simp [mapGet] at this
      exact absurd this.symm (mapWfFrom_cons.1 h').2.1
  | cons p m ih =>
    obtain ⟨a, x⟩ := p
    have hc := mapWfFrom_cons.1 h
    cases m' with
    | nil =>
      have := e a
      simp [mapGet] at this
      exact absurd this hc.2.1
    | cons p' m' =>
      obtain ⟨b, y⟩ := p'
      have hc' := mapWfFrom_cons.1 h'
      have ab : a = b := by
        rcases Nat.lt_trichotomy a b with hl | hl | hl
        · have := e a
          simp only [mapGet, if_pos, if_neg (Nat.ne_of_gt hl), if_pos hl] at this
          exact absurd this hc.2.1
        · exact hl
        · have := e b
          simp only [mapGet, if_pos, if_neg (Nat.ne_of_gt hl), if_pos hl] at this
          exact absurd this.symm hc'.2.1
      subst ab
      have xy : x = y := by have := e a; simpa [mapGet] using this
      subst xy
      rw [ih hc.2.2 hc'.2.2]
      intro k
      have := e k
      simp only [mapGet] at this
      by_cases hk : a = k
      · subst hk
        have low (l : MapOf α) (hl : mapWfFrom d (a + 1) l = true) : mapGet d l a = d := by
          cases l with
          | nil => rfl
          | cons q l =>
            obtain ⟨c, z⟩ := q
            have := (mapWfFrom_cons.1 hl).1
            simp only [mapGet]; rw [if_neg (by omega), if_pos (by omega)]
        rw [low m hc.2.2, low m' hc'.2.2]
      · rw [if_neg hk, if_neg hk] at this
        by_cases hl : k < a
        · have low (l : MapOf α) (hl' : mapWfFrom d (a + 1) l = true) : mapGet d l k = d := by
            cases l with
            | nil => rfl
            | cons q l =>
              obtain ⟨c, z⟩ := q
              have := (mapWfFrom_cons.1 hl').1
              simp only [mapGet]; rw [if_neg (by omega), if_pos (by omega)]
          rw [low m hc.2.2, low m' hc'.2.2]
        · rwa [if_neg hl, if_neg hl] at this

/-- Equal memories are equal data. -/
theorem mapWf_ext {d : α} {m m' : MapOf α} (h : mapWf d m = true) (h' : mapWf d m' = true) (e : ∀ k, mapGet d m k = mapGet d m' k) :
    m = m' := mapWfFrom_ext h h' e

/-- A run of bytes written into a store keeps it canonical. -/
theorem mapWf_bytesSet {m : MapOf Byte} (a : Nat) (bs : List Byte) (h : mapWf 0#8 m = true) : mapWf 0#8 (bytesSet m a bs) = true := by
  induction bs generalizing m a with
  | nil => exact h
  | cons b bs ih => exact ih (a + 1) (mapWf_mapSet a b h)

end Sys2Proof.Machine
end

