-- ==== Sys2Proof/Laws/Shared.lean ====
section
/-! SUPPORT. What the shared operations say of one another: reading one unit after a change of it or of another, register words, and all that setting a flag of an event register can do. -/
namespace Sys2Proof.Machine

/-- What each change of a list keeps, the run of them keeps. -/
theorem runAll_keep {α β : Type} (g : Dev → β) (f : α → Dev → Dev) (h : ∀ x d, g (f x d) = g d) (l : List α) (d : Dev) :
    g (runAll l f d) = g d := by
  induction l generalizing d with
  | nil => rfl
  | cons x l ih => exact (ih (f x d)).trans (h x d)

variable (d : Dev)

@[simp] theorem Dev.modPort_port_same (p : Nat) (f : PortState → PortState) : (d.modPort p f).port p = f (d.port p) := by
  simp [Dev.port, Dev.modPort, Dev.putPort]
theorem Dev.modPort_port_ne (p q : Nat) (f : PortState → PortState) (h : q ≠ p) : (d.modPort p f).port q = d.port q := by
  simp [Dev.port, Dev.modPort, Dev.putPort, mapGet_mapPut_ne _ _ _ _ _ h]
@[simp] theorem Dev.modStack_stack_same (p : Nat) (f : StackMem → StackMem) : (d.modStack p f).stack p = f (d.stack p) := by
  simp [Dev.stack, Dev.modStack]
theorem Dev.modStack_stack_ne (p q : Nat) (f : StackMem → StackMem) (h : q ≠ p) : (d.modStack p f).stack q = d.stack q := by
  simp [Dev.stack, Dev.modStack, mapGet_mapMod_ne _ _ _ _ _ h]
@[simp] theorem Dev.modQuad_quad_same (p : Nat) (f : QuadPwr → QuadPwr) : (d.modQuad p f).quad p = f (d.quad p) := by
  simp [Dev.quad, Dev.modQuad, Dev.modPwr]
theorem Dev.modQuad_quad_ne (p q : Nat) (f : QuadPwr → QuadPwr) (h : q ≠ p) : (d.modQuad p f).quad q = d.quad q := by
  simp [Dev.quad, Dev.modQuad, Dev.modPwr, mapGet_mapMod_ne _ _ _ _ _ h]
@[simp] theorem Dev.modVat_vat_same (p : Nat) (f : VatState → VatState) : (d.modVat p f).vat p = f (d.vat p) := by
  simp [Dev.vat, Dev.modVat, Dev.modEng]
theorem Dev.modVat_vat_ne (p q : Nat) (f : VatState → VatState) (h : q ≠ p) : (d.modVat p f).vat q = d.vat q := by
  simp [Dev.vat, Dev.modVat, Dev.modEng, mapGet_mapMod_ne _ _ _ _ _ h]
@[simp] theorem Dev.modChurn_churn_same (p : Nat) (f : ChurnState → ChurnState) : (d.modChurn p f).churn p = f (d.churn p) := by
  simp [Dev.churn, Dev.modChurn, Dev.modEng]
theorem Dev.modChurn_churn_ne (p q : Nat) (f : ChurnState → ChurnState) (h : q ≠ p) : (d.modChurn p f).churn q = d.churn q := by
  simp [Dev.churn, Dev.modChurn, Dev.modEng, mapGet_mapMod_ne _ _ _ _ _ h]
@[simp] theorem Dev.modEngine_engine_same (p : Nat) (f : EngineFe → EngineFe) : (d.modEngine p f).engine p = f (d.engine p) := by
  simp [Dev.engine, Dev.modEngine, Dev.modFe]
theorem Dev.modEngine_engine_ne (p q : Nat) (f : EngineFe → EngineFe) (h : q ≠ p) : (d.modEngine p f).engine q = d.engine q := by
  simp [Dev.engine, Dev.modEngine, Dev.modFe, mapGet_mapMod_ne _ _ _ _ _ h]
@[simp] theorem Dev.modAdmin_admin_same (p : Nat) (f : AdminState → AdminState) : (d.modAdmin p f).admin p = f (d.admin p) := by
  simp [Dev.admin, Dev.modAdmin, Dev.modFe]
theorem Dev.modAdmin_admin_ne (p q : Nat) (f : AdminState → AdminState) (h : q ≠ p) : (d.modAdmin p f).admin q = d.admin q := by
  simp [Dev.admin, Dev.modAdmin, Dev.modFe, mapGet_mapMod_ne _ _ _ _ _ h]
@[simp] theorem Dev.modIngest_ingest_same (p : Nat) (f : IngEngine → IngEngine) : (d.modIngest p f).ingest p = f (d.ingest p) := by
  simp [Dev.ingest, Dev.modIngest]
theorem Dev.modIngest_ingest_ne (p q : Nat) (f : IngEngine → IngEngine) (h : q ≠ p) : (d.modIngest p f).ingest q = d.ingest q := by
  simp [Dev.ingest, Dev.modIngest, mapGet_mapMod_ne _ _ _ _ _ h]
@[simp] theorem Dev.modBridge_bridge_same (p : Nat) (f : BridgeState → BridgeState) : (d.modBridge p f).bridge p = f (d.bridge p) := by
  simp [Dev.bridge, Dev.modBridge, Dev.modRas]
theorem Dev.modBridge_bridge_ne (p q : Nat) (f : BridgeState → BridgeState) (h : q ≠ p) : (d.modBridge p f).bridge q = d.bridge q := by
  simp [Dev.bridge, Dev.modBridge, Dev.modRas, mapGet_mapMod_ne _ _ _ _ _ h]
@[simp] theorem Dev.modTile_tile_same (p : Nat) (f : TileState → TileState) : (d.modTile p f).tile p = f (d.tile p) := by
  simp [Dev.tile, Dev.modTile, Dev.putTile]
theorem Dev.modTile_tile_ne (p q : Nat) (f : TileState → TileState) (h : q ≠ p) : (d.modTile p f).tile q = d.tile q := by
  simp [Dev.tile, Dev.modTile, Dev.putTile, mapGet_mapPut_ne _ _ _ _ _ h]
@[simp] theorem Dev.modFunc_func_same (p : Nat) (f : FuncCfg → FuncCfg) : (d.modFunc p f).func p = f (d.func p) := by
  simp [Dev.func, Dev.modFunc, Dev.modPci]
theorem Dev.modFunc_func_ne (p q : Nat) (f : FuncCfg → FuncCfg) (h : q ≠ p) : (d.modFunc p f).func q = d.func q := by
  simp [Dev.func, Dev.modFunc, Dev.modPci, mapGet_mapMod_ne _ _ _ _ _ h]
@[simp] theorem Dev.modSeal_sealEntry_same (p : Nat) (f : SealEntry → SealEntry) : (d.modSeal p f).sealEntry p = f (d.sealEntry p) := by
  simp [Dev.sealEntry, Dev.modSeal, Dev.modMem]
theorem Dev.modSeal_sealEntry_ne (p q : Nat) (f : SealEntry → SealEntry) (h : q ≠ p) : (d.modSeal p f).sealEntry q = d.sealEntry q := by
  simp [Dev.sealEntry, Dev.modSeal, Dev.modMem, mapGet_mapMod_ne _ _ _ _ _ h]

/-! ## Halves -/

@[simp] theorem TileState.half_putHalf_same (u : TileState) (h : Nat) (x : HalfState) : (u.putHalf h x).half h = x := by
  by_cases e : h = 0 <;> simp [TileState.half, TileState.putHalf, e]

@[simp] theorem Dev.modHalf_half_same (t h : Nat) (f : HalfState → HalfState) : (d.modHalf t h f).half t h = f (d.half t h) := by
  simp [Dev.modHalf, Dev.putHalf, Dev.half]

@[simp] theorem Dev.modTile_modTile (t : Nat) (f g : TileState → TileState) : (d.modTile t f).modTile t g = d.modTile t (fun u => g (f u)) := by
  simp [Dev.modTile, Dev.putTile, Dev.tile]

@[simp] theorem Dev.modHalf_modHalf (t h : Nat) (f g : HalfState → HalfState) : (d.modHalf t h f).modHalf t h g = d.modHalf t h (fun x => g (f x)) := by
  have e : (d.modHalf t h f).half t h = f (d.half t h) := d.modHalf_half_same t h f
  rw [Dev.modHalf, e]
  simp only [Dev.modHalf, Dev.putHalf, Dev.modTile_modTile]
  congr 1
  funext u
  by_cases hz : h = 0 <;> simp [TileState.putHalf, hz]

@[simp] theorem Dev.modPort_modPort (p : Nat) (f g : PortState → PortState) : (d.modPort p f).modPort p g = d.modPort p (fun u => g (f u)) := by
  simp [Dev.modPort, Dev.putPort, Dev.port]

theorem Dev.modHalf_half_tile (t h t' h' : Nat) (f : HalfState → HalfState) (n : t' ≠ t) : (d.modHalf t h f).half t' h' = d.half t' h' := by
  simp [Dev.modHalf, Dev.putHalf, Dev.half, Dev.modTile_tile_ne d t t' _ n]

theorem Dev.modHalf_half_other (t : Nat) (f : HalfState → HalfState) : (d.modHalf t 0 f).half t 1 = d.half t 1 := by
  simp [Dev.modHalf, Dev.putHalf, Dev.half, TileState.half, TileState.putHalf]

theorem Dev.modHalf_half_first (t : Nat) (f : HalfState → HalfState) : (d.modHalf t 1 f).half t 0 = d.half t 0 := by
  simp [Dev.modHalf, Dev.putHalf, Dev.half, TileState.half, TileState.putHalf]

/-! ## Scalar registers and predicates (05 R118) -/

@[simp] theorem HalfState.reg_zero (s : HalfState) : s.reg 0 = 0 := rfl
@[simp] theorem HalfState.setReg_zero (s : HalfState) (v : W64) : s.setReg 0 v = s := rfl
theorem HalfState.reg_setReg_same (s : HalfState) (n : Nat) (v : W64) (h : n ≠ 0) : (s.setReg n v).reg n = v := by
  simp [HalfState.setReg, HalfState.reg, h]
theorem HalfState.reg_setReg_ne (s : HalfState) (n k : Nat) (v : W64) (h : k ≠ n) : (s.setReg n v).reg k = s.reg k := by
  unfold HalfState.setReg HalfState.reg
  split
  · rfl
  · split
    · rfl
    · simp [mapGet_mapSet_ne _ _ _ _ _ h]
@[simp] theorem HalfState.pred_zero (s : HalfState) : s.pred 0 = true := rfl

/-! ## Queues of the front end -/

@[simp] theorem Dev.putSq_sq_same (q : Nat) (x : SqState) : (d.putSq q x).sq q = some x := by simp [Dev.putSq, Dev.sq, Dev.modFe]
theorem Dev.putSq_sq_ne (q r : Nat) (x : SqState) (h : r ≠ q) : (d.putSq q x).sq r = d.sq r := by
  simp [Dev.putSq, Dev.sq, Dev.modFe, mapFind_mapPut_ne _ _ _ _ h]
@[simp] theorem Dev.putCq_cq_same (q : Nat) (x : CqState) : (d.putCq q x).cq q = some x := by simp [Dev.putCq, Dev.cq, Dev.modFe]
theorem Dev.putCq_cq_ne (q r : Nat) (x : CqState) (h : r ≠ q) : (d.putCq q x).cq r = d.cq r := by
  simp [Dev.putCq, Dev.cq, Dev.modFe, mapFind_mapPut_ne _ _ _ _ h]

/-! ## Register words (17 R428) -/

@[simp] theorem Dev.setWord_word_same (a : Nat) (w : W32) : (d.setWord a w).word a = w := by simp [Dev.setWord, Dev.word]
theorem Dev.setWord_word_ne (a b : Nat) (w : W32) (h : b ≠ a) : (d.setWord a w).word b = d.word b := by
  simp [Dev.setWord, Dev.word, mapFind_mapPut_ne _ _ _ _ h]
@[simp] theorem Dev.dropShadow_word (r : Req) (a : Nat) : (d.dropShadow r).word a = d.word a := rfl
@[simp] theorem Dev.dropShadow_word64 (r : Req) (a : Nat) : (d.dropShadow r).word64 a = d.word64 a := rfl
@[simp] theorem Dev.dropShadow_event (r : Req) (a : Nat) : (d.dropShadow r).event a = d.event a := rfl
@[simp] theorem Dev.emit_word (o : Out) (a : Nat) : (d.emit o).word a = d.word a := rfl
@[simp] theorem Dev.putEvent_word (a b : Nat) (e : EventReg) : (d.putEvent a e).word b = d.word b := rfl
@[simp] theorem Dev.putEvent_event_same (a : Nat) (e : EventReg) : (d.putEvent a e).event a = e := by simp [Dev.putEvent, Dev.event]
theorem Dev.putEvent_event_ne (a b : Nat) (e : EventReg) (h : b ≠ a) : (d.putEvent a e).event b = d.event b := by
  simp [Dev.putEvent, Dev.event, mapGet_mapPut_ne _ _ _ _ _ h]

/-! ## What sending a vector and setting a flag change (17 R439-R441) -/

theorem Dev.msixSend_eq (f i : Nat) : ∃ m o, d.msixSend f i = { d with pci := { d.pci with msix := m }, out := o } := by
  unfold Dev.msixSend; dsimp only; split
  · exact ⟨_, d.out, rfl⟩
  · exact ⟨d.pci.msix, _, rfl⟩

theorem Dev.sendVector_eq (p : Nat) : ∃ m o, d.sendVector p = { d with pci := { d.pci with msix := m }, out := o } := by
  unfold Dev.sendVector; exact d.msixSend_eq _ _

theorem Dev.sendBlock_eq (b : Nat) : ∃ m o, d.sendBlock b = { d with pci := { d.pci with msix := m }, out := o } := by
  unfold Dev.sendBlock
  obtain ⟨m, o, h⟩ := d.sendVector_eq (fld (d.word (offPci + 0x100 + 4 * b)) 10 0)
  rw [h]; exact ⟨m, _, rfl⟩

theorem Dev.seqAdvance_eq (a : Nat) (k : W16) (n : Nat) : ∃ e m o, d.seqAdvance a k n =
    { d with regs := { d.regs with events := mapPut d.regs.events a e }, pci := { d.pci with msix := m }, out := o } ∧
    e.flags = (d.event a).flags ||| k := by
  unfold Dev.seqAdvance; dsimp only; split
  · exact ⟨_, d.pci.msix, d.out, rfl, rfl⟩
  · obtain ⟨m, o, h⟩ := Dev.sendBlock_eq (d.putEvent a { d.event a with
      flags := (d.event a).flags ||| k, seq := (d.event a).seq + 1, last := some n, pend := none }) ((eventBlock a).getD 0)
    rw [h]; exact ⟨_, m, o, rfl, rfl⟩

/-- All that hardware's setting of flags can change: one event register, pending bits of MSI-X tables, and what is sent. -/
theorem Dev.setEvent_eq (a : Nat) (k : W16) : ∃ e m o, d.setEvent a k =
    { d with regs := { d.regs with events := e }, pci := { d.pci with msix := m }, out := o } := by
  unfold Dev.setEvent; dsimp only
  have adv (n : Nat) : ∃ e m o, d.seqAdvance a k n =
      { d with regs := { d.regs with events := e }, pci := { d.pci with msix := m }, out := o } := by
    obtain ⟨e, m, o, h, _⟩ := d.seqAdvance_eq a k n
    exact ⟨_, m, o, h⟩
  split
  · exact ⟨d.regs.events, d.pci.msix, d.out, rfl⟩
  · split
    · exact ⟨_, d.pci.msix, d.out, rfl⟩
    · split
      · split
        · exact ⟨_, d.pci.msix, d.out, rfl⟩
        · exact adv _
      · exact adv _

theorem Dev.setEvent_flags (a : Nat) (k : W16) : ((d.setEvent a k).event a).flags = (d.event a).flags ||| k := by
  unfold Dev.setEvent; dsimp only
  have adv (n : Nat) : ((d.seqAdvance a k n).event a).flags = (d.event a).flags ||| k := by
    obtain ⟨e, m, o, h, hf⟩ := d.seqAdvance_eq a k n
    rw [h]; simp [Dev.event]; exact hf
  split
  · subst_vars; simp
  · split
    · simp
    · split
      · split
        · simp
        · exact adv _
      · exact adv _

theorem Dev.setEvent_event_ne (a b : Nat) (k : W16) (h : b ≠ a) : (d.setEvent a k).event b = d.event b := by
  unfold Dev.setEvent; dsimp only
  have adv (n : Nat) : (d.seqAdvance a k n).event b = d.event b := by
    obtain ⟨e, m, o, q, _⟩ := d.seqAdvance_eq a k n
    rw [q]; simp [Dev.event, mapGet_mapPut_ne _ _ _ _ _ h]
  split
  · rfl
  · split
    · exact d.putEvent_event_ne a b _ h
    · split
      · split
        · exact d.putEvent_event_ne a b _ h
        · exact adv _
      · exact adv _

@[simp] theorem Dev.setEvent_word (a b : Nat) (k : W16) : (d.setEvent a k).word b = d.word b := by
  obtain ⟨e, m, o, h⟩ := d.setEvent_eq a k; rw [h]; rfl
@[simp] theorem Dev.setFlag_word (a i b : Nat) : (d.setFlag a i).word b = d.word b := d.setEvent_word a b _
@[simp] theorem Dev.setFlagIf_word (c : Bool) (a i b : Nat) : (d.setFlagIf c a i).word b = d.word b := by
  unfold Dev.setFlagIf; split <;> simp

@[simp] theorem Dev.setEvent_ft (a : Nat) (k : W16) : (d.setEvent a k).ft = d.ft := by
  obtain ⟨e, m, o, h⟩ := d.setEvent_eq a k; rw [h]
@[simp] theorem Dev.setFlag_ft (a i : Nat) : (d.setFlag a i).ft = d.ft := d.setEvent_ft a _
@[simp] theorem Dev.setFlagIf_ft (b : Bool) (a i : Nat) : (d.setFlagIf b a i).ft = d.ft := by
  unfold Dev.setFlagIf; split <;> simp
@[simp] theorem Dev.setEvent_lnk (a : Nat) (k : W16) : (d.setEvent a k).lnk = d.lnk := by
  obtain ⟨e, m, o, h⟩ := d.setEvent_eq a k; rw [h]
@[simp] theorem Dev.setFlag_lnk (a i : Nat) : (d.setFlag a i).lnk = d.lnk := d.setEvent_lnk a _
@[simp] theorem Dev.setFlagIf_lnk (b : Bool) (a i : Nat) : (d.setFlagIf b a i).lnk = d.lnk := by
  unfold Dev.setFlagIf; split <;> simp
@[simp] theorem Dev.setEvent_boot (a : Nat) (k : W16) : (d.setEvent a k).boot = d.boot := by
  obtain ⟨e, m, o, h⟩ := d.setEvent_eq a k; rw [h]
@[simp] theorem Dev.setFlag_boot (a i : Nat) : (d.setFlag a i).boot = d.boot := d.setEvent_boot a _
@[simp] theorem Dev.setFlagIf_boot (b : Bool) (a i : Nat) : (d.setFlagIf b a i).boot = d.boot := by
  unfold Dev.setFlagIf; split <;> simp
@[simp] theorem Dev.setEvent_sec (a : Nat) (k : W16) : (d.setEvent a k).sec = d.sec := by
  obtain ⟨e, m, o, h⟩ := d.setEvent_eq a k; rw [h]
@[simp] theorem Dev.setFlag_sec (a i : Nat) : (d.setFlag a i).sec = d.sec := d.setEvent_sec a _
@[simp] theorem Dev.setFlagIf_sec (b : Bool) (a i : Nat) : (d.setFlagIf b a i).sec = d.sec := by
  unfold Dev.setFlagIf; split <;> simp
@[simp] theorem Dev.setEvent_tiles (a : Nat) (k : W16) : (d.setEvent a k).tiles = d.tiles := by
  obtain ⟨e, m, o, h⟩ := d.setEvent_eq a k; rw [h]
@[simp] theorem Dev.setFlag_tiles (a i : Nat) : (d.setFlag a i).tiles = d.tiles := d.setEvent_tiles a _
@[simp] theorem Dev.setFlagIf_tiles (b : Bool) (a i : Nat) : (d.setFlagIf b a i).tiles = d.tiles := by
  unfold Dev.setFlagIf; split <;> simp
@[simp] theorem Dev.setEvent_mem (a : Nat) (k : W16) : (d.setEvent a k).mem = d.mem := by
  obtain ⟨e, m, o, h⟩ := d.setEvent_eq a k; rw [h]
@[simp] theorem Dev.setFlag_mem (a i : Nat) : (d.setFlag a i).mem = d.mem := d.setEvent_mem a _
@[simp] theorem Dev.setFlagIf_mem (b : Bool) (a i : Nat) : (d.setFlagIf b a i).mem = d.mem := by
  unfold Dev.setFlagIf; split <;> simp
@[simp] theorem Dev.setEvent_sync (a : Nat) (k : W16) : (d.setEvent a k).sync = d.sync := by
  obtain ⟨e, m, o, h⟩ := d.setEvent_eq a k; rw [h]
@[simp] theorem Dev.setFlag_sync (a i : Nat) : (d.setFlag a i).sync = d.sync := d.setEvent_sync a _
@[simp] theorem Dev.setFlagIf_sync (b : Bool) (a i : Nat) : (d.setFlagIf b a i).sync = d.sync := by
  unfold Dev.setFlagIf; split <;> simp
@[simp] theorem Dev.setEvent_ras (a : Nat) (k : W16) : (d.setEvent a k).ras = d.ras := by
  obtain ⟨e, m, o, h⟩ := d.setEvent_eq a k; rw [h]
@[simp] theorem Dev.setFlag_ras (a i : Nat) : (d.setFlag a i).ras = d.ras := d.setEvent_ras a _
@[simp] theorem Dev.setFlagIf_ras (b : Bool) (a i : Nat) : (d.setFlagIf b a i).ras = d.ras := by
  unfold Dev.setFlagIf; split <;> simp
@[simp] theorem Dev.setEvent_eng (a : Nat) (k : W16) : (d.setEvent a k).eng = d.eng := by
  obtain ⟨e, m, o, h⟩ := d.setEvent_eq a k; rw [h]
@[simp] theorem Dev.setFlag_eng (a i : Nat) : (d.setFlag a i).eng = d.eng := d.setEvent_eng a _
@[simp] theorem Dev.setFlagIf_eng (b : Bool) (a i : Nat) : (d.setFlagIf b a i).eng = d.eng := by
  unfold Dev.setFlagIf; split <;> simp
@[simp] theorem Dev.setEvent_fe (a : Nat) (k : W16) : (d.setEvent a k).fe = d.fe := by
  obtain ⟨e, m, o, h⟩ := d.setEvent_eq a k; rw [h]
@[simp] theorem Dev.setFlag_fe (a i : Nat) : (d.setFlag a i).fe = d.fe := d.setEvent_fe a _
@[simp] theorem Dev.setFlagIf_fe (b : Bool) (a i : Nat) : (d.setFlagIf b a i).fe = d.fe := by
  unfold Dev.setFlagIf; split <;> simp
@[simp] theorem Dev.setEvent_step (a : Nat) (k : W16) : (d.setEvent a k).step = d.step := by
  obtain ⟨e, m, o, h⟩ := d.setEvent_eq a k; rw [h]
@[simp] theorem Dev.setFlag_step (a i : Nat) : (d.setFlag a i).step = d.step := d.setEvent_step a _
@[simp] theorem Dev.setFlagIf_step (b : Bool) (a i : Nat) : (d.setFlagIf b a i).step = d.step := by
  unfold Dev.setFlagIf; split <;> simp
@[simp] theorem Dev.setEvent_gc (a : Nat) (k : W16) : (d.setEvent a k).gc = d.gc := by
  obtain ⟨e, m, o, h⟩ := d.setEvent_eq a k; rw [h]
@[simp] theorem Dev.setFlag_gc (a i : Nat) : (d.setFlag a i).gc = d.gc := d.setEvent_gc a _
@[simp] theorem Dev.setFlagIf_gc (b : Bool) (a i : Nat) : (d.setFlagIf b a i).gc = d.gc := by
  unfold Dev.setFlagIf; split <;> simp
@[simp] theorem Dev.setEvent_ing (a : Nat) (k : W16) : (d.setEvent a k).ing = d.ing := by
  obtain ⟨e, m, o, h⟩ := d.setEvent_eq a k; rw [h]
@[simp] theorem Dev.setFlag_ing (a i : Nat) : (d.setFlag a i).ing = d.ing := d.setEvent_ing a _
@[simp] theorem Dev.setFlagIf_ing (b : Bool) (a i : Nat) : (d.setFlagIf b a i).ing = d.ing := by
  unfold Dev.setFlagIf; split <;> simp
@[simp] theorem Dev.setEvent_pwr (a : Nat) (k : W16) : (d.setEvent a k).pwr = d.pwr := by
  obtain ⟨e, m, o, h⟩ := d.setEvent_eq a k; rw [h]
@[simp] theorem Dev.setFlag_pwr (a i : Nat) : (d.setFlag a i).pwr = d.pwr := d.setEvent_pwr a _
@[simp] theorem Dev.setFlagIf_pwr (b : Bool) (a i : Nat) : (d.setFlagIf b a i).pwr = d.pwr := by
  unfold Dev.setFlagIf; split <;> simp
@[simp] theorem Dev.setEvent_wins (a : Nat) (k : W16) : (d.setEvent a k).wins = d.wins := by
  obtain ⟨e, m, o, h⟩ := d.setEvent_eq a k; rw [h]
@[simp] theorem Dev.setFlag_wins (a i : Nat) : (d.setFlag a i).wins = d.wins := d.setEvent_wins a _
@[simp] theorem Dev.setFlagIf_wins (b : Bool) (a i : Nat) : (d.setFlagIf b a i).wins = d.wins := by
  unfold Dev.setFlagIf; split <;> simp
@[simp] theorem Dev.setEvent_free (a : Nat) (k : W16) : (d.setEvent a k).free = d.free := by
  obtain ⟨e, m, o, h⟩ := d.setEvent_eq a k; rw [h]
@[simp] theorem Dev.setFlag_free (a i : Nat) : (d.setFlag a i).free = d.free := d.setEvent_free a _
@[simp] theorem Dev.setFlagIf_free (b : Bool) (a i : Nat) : (d.setFlagIf b a i).free = d.free := by
  unfold Dev.setFlagIf; split <;> simp
@[simp] theorem Dev.setEvent_clk (a : Nat) (k : W16) : (d.setEvent a k).clk = d.clk := by
  obtain ⟨e, m, o, h⟩ := d.setEvent_eq a k; rw [h]
@[simp] theorem Dev.setFlag_clk (a i : Nat) : (d.setFlag a i).clk = d.clk := d.setEvent_clk a _
@[simp] theorem Dev.setFlagIf_clk (b : Bool) (a i : Nat) : (d.setFlagIf b a i).clk = d.clk := by
  unfold Dev.setFlagIf; split <;> simp

end Sys2Proof.Machine
end

