-- ==== Sys2Proof/Laws/Links.lean ====
section
/-! SUPPORT. All that sending a packet and the work of a beat boundary can change. -/
namespace Sys2Proof.Machine

variable (d : Dev)

/-- The link control flit that falls due changes the links and what is sent. -/
theorem Dev.linkIfDue_eq (p : Nat) : ∃ l o, d.linkIfDue p = { d with lnk := l, out := o } := by
  unfold Dev.linkIfDue; split
  · exact ⟨_, _, rfl⟩
  · exact ⟨d.lnk, d.out, rfl⟩

theorem Dev.beginPacket_eq (p vc : Nat) : ∃ l o, d.beginPacket p vc = { d with lnk := l, out := o } := by
  unfold Dev.beginPacket; split
  · exact ⟨d.lnk, d.out, rfl⟩
  · exact ⟨_, _, rfl⟩

theorem Dev.sendFlit_eq (p vc : Nat) (b : Bool) : ∃ l o, d.sendFlit p vc b = { d with lnk := l, out := o } := by
  unfold Dev.sendFlit; dsimp only; split
  · exact ⟨d.lnk, d.out, rfl⟩
  · exact Dev.linkIfDue_eq _ p

/-- Flits that leave a port change the links and what is sent. -/
theorem Dev.pumpPort_eq (p n : Nat) : ∃ l o, d.pumpPort p n = { d with lnk := l, out := o } := by
  induction n generalizing d with
  | zero => exact ⟨d.lnk, d.out, rfl⟩
  | succ n ih =>
    unfold Dev.pumpPort; split
    · exact ⟨d.lnk, d.out, rfl⟩
    · split
      · obtain ⟨l, o, h⟩ := d.beginPacket_eq p _
        rw [h]
        obtain ⟨l, o, h⟩ := Dev.sendFlit_eq { d with lnk := l, out := o } p _ _
        rw [h]; exact ih { d with lnk := l, out := o }
      · obtain ⟨l, o, h⟩ := d.sendFlit_eq p _ _
        rw [h]; exact ih { d with lnk := l, out := o }

/-- A packet handed to a port changes the links and what is sent. -/
theorem Dev.sendOn_eq (p : Nat) (pk : Packet) : ∃ l o, d.sendOn p pk = { d with lnk := l, out := o } :=
  Dev.pumpPort_eq _ p _

/-- Where no flit can leave, it waits behind what the port holds. -/
theorem Dev.sendOn_held (p : Nat) (pk : Packet) (h : (d.modPort p (fun s => { s with txq := s.txq ++ [pk] })).pickVc p = none) :
    d.sendOn p pk = d.modPort p (fun s => { s with txq := s.txq ++ [pk] }) := by
  unfold Dev.sendOn Dev.drainTxq
  generalize PortState.waiting _ = n
  cases n with
  | zero => rfl
  | succ n => simp [Dev.pumpPort, h]

theorem Dev.sendLocal_eq (p ty : Nat) (bs : List Byte) : ∃ l o, d.sendLocal p ty bs = { d with lnk := l, out := o } :=
  d.sendOn_eq _ _

@[simp] theorem Dev.sendLocal_ft (p ty : Nat) (bs : List Byte) : (d.sendLocal p ty bs).ft = d.ft := by
  obtain ⟨l, o, h⟩ := d.sendLocal_eq p ty bs; rw [h]
@[simp] theorem Dev.sendLocal_event (p ty : Nat) (bs : List Byte) (a : Nat) : (d.sendLocal p ty bs).event a = d.event a := by
  obtain ⟨l, o, h⟩ := d.sendLocal_eq p ty bs; rw [h]; rfl
@[simp] theorem Dev.sendLocal_word (p ty : Nat) (bs : List Byte) (a : Nat) : (d.sendLocal p ty bs).word a = d.word a := by
  obtain ⟨l, o, h⟩ := d.sendLocal_eq p ty bs; rw [h]; rfl

@[simp] theorem Dev.floodSlip_ft (n : SlipNotice) (b : Option Nat) : (d.floodSlip n b).ft = d.ft :=
  runAll_keep Dev.ft _ (fun _ _ => Dev.sendLocal_ft _ _ _ _) _ d

@[simp] theorem Dev.sendBeats_ft : d.sendBeats.ft = d.ft :=
  runAll_keep Dev.ft _ (fun _ _ => Dev.sendLocal_ft _ _ _ _) _ d

@[simp] theorem Dev.portBeat_ft (p : Nat) : (d.portBeat p).ft = d.ft := rfl

theorem Dev.gust_ft (q : Nat) : (d.gust q).ft = d.ft := by
  unfold Dev.gust; split <;> simp

end Sys2Proof.Machine
end

