-- ==== Sys2Proof/Laws/Memory.lean ====
section
/-! SUPPORT. Every operation that writes one of the part's byte stores keeps it canonical (`Memory.wf`), and reset's stores are. -/
namespace Sys2Proof.Machine

variable (d : Dev)

/-- The blocks of state that `Memory.wf` reads. -/
theorem Memory.wf_of (d e : Dev) (h1 : e.mem.hbm = d.mem.hbm) (h2 : e.sync.words = d.sync.words) (h3 : e.tiles = d.tiles) :
    Memory.wf e = Memory.wf d := by simp [Memory.wf, h1, h2, h3]

theorem Memory.wf_reset : Memory.wf State.reset.dev = true := by decide

/-! ## HBM -/

theorem Dev.firstWrite_hbm_wf (b : Nat) (h : mapWf 0 d.mem.hbm = true) : mapWf 0 (d.firstWrite b).mem.hbm = true := by
  unfold Dev.firstWrite; split
  · exact h
  · exact mapWf_bytesSet _ _ h

theorem runAll_firstWrite_hbm_wf (l : List Nat) (d : Dev) (h : mapWf 0 d.mem.hbm = true) :
    mapWf 0 (runAll l Dev.firstWrite d).mem.hbm = true := by
  induction l generalizing d with
  | nil => exact h
  | cons b l ih => exact ih _ (d.firstWrite_hbm_wf b h)

theorem Dev.clearLost_hbm (b : Nat) : (d.clearLost b).mem.hbm = d.mem.hbm := by
  unfold Dev.clearLost; dsimp only; split
  · rfl
  · rfl

theorem Dev.autoRetire_hbm (s k : Nat) : (d.autoRetire s k).mem.hbm = d.mem.hbm := by
  unfold Dev.autoRetire; dsimp only
  split
  · rfl
  · split
    · simp
    · rfl

theorem Dev.hbmUe_hbm (k src : Nat) : (d.hbmUe k src).mem.hbm = d.mem.hbm := by
  unfold Dev.hbmUe; dsimp only
  split
  · rw [Dev.autoRetire_hbm]; simp [Dev.recordErr, Dev.modStack]
  · simp [Dev.recordErr, Dev.modStack]

theorem Dev.hbmCe_hbm (k src : Nat) : (d.hbmCe k src).mem.hbm = d.mem.hbm := by
  unfold Dev.hbmCe; dsimp only
  split
  · rw [Dev.autoRetire_hbm]; simp [Dev.recordErr, Dev.modStack]
  · simp [Dev.recordErr, Dev.modStack]

theorem Dev.hbmMend_hbm (bs : List Nat) (src : Nat) : (d.hbmMend bs src).mem.hbm = d.mem.hbm :=
  runAll_keep (fun d => d.mem.hbm) _ (fun b d => (d.modMem _).hbmCe_hbm (b * 64) src) _ d

/-- A read of HBM changes no byte of it. -/
theorem Dev.hbmRead_hbm (ks : List Nat) (src : Nat) : (d.hbmRead ks src).2.mem.hbm = d.mem.hbm := by
  unfold Dev.hbmRead; dsimp only; split
  · rfl
  · split
    · rw [Dev.hbmUe_hbm, Dev.hbmMend_hbm]
    · exact d.hbmMend_hbm _ _

theorem Dev.sealDeny_hbm (l : List Nat) : (d.sealDeny l).mem.hbm = d.mem.hbm :=
  runAll_keep (fun d => d.mem.hbm) _ (fun s d => by simp) l _

theorem Dev.ownRead_hbm (ks : List Nat) : (d.ownRead ks).2.mem.hbm = d.mem.hbm := by
  unfold Dev.ownRead; split
  · exact d.hbmRead_hbm _ _
  · exact d.sealDeny_hbm _

theorem foldl_hbm_wf (part : List Nat) (l : List (Nat × Byte)) (m : MapOf Byte) (h : mapWf 0#8 m = true) :
    mapWf 0#8 (l.foldl (fun h e => if part.contains (e.1 / 64) then h else mapSet 0#8 h e.1 e.2) m) = true := by
  induction l generalizing m with
  | nil => exact h
  | cons e l ih =>
    simp only [List.foldl]
    apply ih
    split
    · exact h
    · exact mapWf_mapSet _ _ h

/-- A write of HBM bytes keeps HBM canonical. -/
theorem Dev.hbmWrite_hbm_wf (ks : List Nat) (data : List Byte) (h : mapWf 0 d.mem.hbm = true) :
    mapWf 0 (d.hbmWrite ks data).2.mem.hbm = true := by
  have key (e : Dev) (he : mapWf 0 e.mem.hbm = true) (l w part : List Nat) :
      mapWf 0 (runAll w Dev.clearLost ((runAll l Dev.firstWrite e).modMem (fun m => { m with
        hbm := (ks.zip data).foldl (fun h e => if part.contains (e.1 / 64) then h else mapSet 0#8 h e.1 e.2) m.hbm
        bad := m.bad.filter (fun b => !w.contains b) }))).mem.hbm = true := by
    rw [runAll_keep (fun d => d.mem.hbm) _ (fun b d => d.clearLost_hbm b)]
    exact foldl_hbm_wf _ _ _ (runAll_firstWrite_hbm_wf l e he)
  unfold Dev.hbmWrite
  split
  · exact h
  · dsimp only; split
    · exact key _ (by simpa [Dev.hbmMend_hbm] using h) _ _ _
    · rw [Dev.hbmUe_hbm]; exact key _ (by simpa [Dev.hbmMend_hbm] using h) _ _ _

theorem Dev.ownWrite_hbm_wf (ks : List Nat) (data : List Byte) (h : mapWf 0 d.mem.hbm = true) :
    mapWf 0 (d.ownWrite ks data).2.mem.hbm = true := by
  unfold Dev.ownWrite; split
  · exact d.hbmWrite_hbm_wf _ _ h
  · rw [Dev.sealDeny_hbm]; exact h

/-- A write by stack-local offset keeps HBM canonical. -/
theorem Dev.stackWrite_hbm_wf (s off : Nat) (data : List Byte) (h : mapWf 0 d.mem.hbm = true) :
    mapWf 0 (d.stackWrite s off data).2.mem.hbm = true := d.ownWrite_hbm_wf _ _ h

/-! ## The stores of a tile -/

/-- The canonical form of one tile's stores. -/
structure TileState.StoresWf (u : TileState) : Prop where
  tmem  : mapWf 0#8 u.tmem = true
  acc   : mapWf 0#32 u.acc = true
  tags  : mapWf 0#8 u.tags = true
  bank0 : mapWf 0#8 u.bank0 = true
  bank1 : mapWf 0#8 u.bank1 = true
  win   : mapWf 0#8 u.win = true

theorem TileState.setByte_storesWf (u : TileState) (off : Nat) (v : Byte) (h : u.StoresWf) : (u.setByte off v).StoresWf := by
  unfold TileState.setByte
  split
  · exact ⟨mapWf_mapSet _ _ h.tmem, h.acc, h.tags, h.bank0, h.bank1, h.win⟩
  · exact ⟨h.tmem, mapWf_mapSet _ _ h.acc, h.tags, h.bank0, h.bank1, h.win⟩
  · split
    · exact ⟨h.tmem, h.acc, h.tags, mapWf_mapSet _ _ h.bank0, h.bank1, h.win⟩
    · exact ⟨h.tmem, h.acc, h.tags, h.bank0, mapWf_mapSet _ _ h.bank1, h.win⟩
  · exact ⟨h.tmem, h.acc, mapWf_mapSet _ _ h.tags, h.bank0, h.bank1, h.win⟩
  · exact ⟨h.tmem, h.acc, h.tags, h.bank0, h.bank1, mapWf_mapSet _ _ h.win⟩
  · exact h

theorem foldl_storesWf (c : TileState → Byte × Nat → Bool) (off : Nat) (l : List (Byte × Nat)) (u : TileState) (h : u.StoresWf) :
    (l.foldl (fun t e => if c t e then t else t.setByte (off + e.2) e.1) u).StoresWf := by
  induction l generalizing u with
  | nil => exact h
  | cons e l ih =>
    simp only [List.foldl]
    apply ih
    split
    · exact h
    · exact u.setByte_storesWf _ _ h

/-- A write at a window offset keeps the tile's stores canonical. -/
theorem TileState.write_storesWf (u : TileState) (off : Nat) (data : List Byte) (h : u.StoresWf) : (u.write off data).2.StoresWf := by
  have k := foldl_storesWf (fun t e => t.bad.contains (protWord (off + e.2)).1 &&
    !(decide (off ≤ (protWord (off + e.2)).1) && decide ((protWord (off + e.2)).1 + (protWord (protWord (off + e.2)).1).2 ≤ off + data.length)))
    off (data.zip (List.range data.length)) u h
  exact ⟨k.tmem, k.acc, k.tags, k.bank0, k.bank1, k.win⟩

/-! ## Sync memory -/

/-- A write of a watch word keeps sync memory canonical. -/
theorem syncWords_wf (i : Nat) (v : W64) (h : mapWf 0 d.sync.words = true) :
    mapWf 0 (d.modSync (fun s => { s with words := mapSet 0 s.words i v })).sync.words = true := mapWf_mapSet i v h

end Sys2Proof.Machine
end

