-- ==== Sys2Proof/Laws/Tile.lean ====
section
/-! SUPPORT. All that issuing an Alanko instruction can do (05 R115, R116, R120, R129, R130, R145). -/
namespace Sys2Proof.Machine

variable (d : Dev)

/-- The parts of a half that issue never writes as it tests them. -/
@[simp] theorem HalfState.takeWait_sregs (s : HalfState) (w : W64) : (s.takeWait w).sregs = s.sregs := by
  unfold HalfState.takeWait HalfState.takeToken; split <;> rfl
@[simp] theorem HalfState.takeWait_reg (s : HalfState) (w : W64) (n : Nat) : (s.takeWait w).reg n = s.reg n := by
  simp [HalfState.reg]
@[simp] theorem HalfState.takeWait_preds (s : HalfState) (w : W64) : (s.takeWait w).preds = s.preds := by
  unfold HalfState.takeWait HalfState.takeToken; split <;> rfl
@[simp] theorem HalfState.takeWait_pred (s : HalfState) (w : W64) (n : Nat) : (s.takeWait w).pred n = s.pred n := by
  simp [HalfState.pred]

/-- A fetch that meets no correctable error changes nothing. -/
theorem Dev.fetchMend_clean (t h : Nat) (hc : (d.tile t).weakIn (d.fetchOff t h) 8 = []) : d.fetchMend t h = d := by
  simp [Dev.fetchMend, Dev.tileMend, hc, runAll]

/-- An instruction whose operands, checks, wait and guard all let it issue has its effect, after its token is lowered. -/
theorem Dev.issueScalar_run (t h : Nat) (w : W64) (regs : List Nat) (ill : HalfState → Bool)
    (fault : Dev → HalfState → Option (Nat × W64)) (eff : Dev → Dev)
    (hi : d.mayIssue t h = true) (hc : (d.tile t).weakIn (d.fetchOff t h) 8 = []) (hf : d.fetchFault t h w = none)
    (hb : regs.any (d.half t h).busyReg = false) (hl : ill (d.half t h) = false) (hw : (d.half t h).waitMet w = true)
    (hg : (d.half t h).guard w = true) (ht : fSV w = true → signalsAtIssue w = true → ((d.half t h).takeWait w).tokFull (fST w) = false)
    (hn : fault d (d.half t h) = none) :
    d.issueScalar t h w regs ill fault eff = eff (d.modHalf t h (HalfState.takeWait w)) := by
  have ht' : (fSV w && signalsAtIssue w && ((d.half t h).takeWait w).tokFull (fST w)) = false := by
    by_cases h1 : fSV w = true <;> by_cases h2 : signalsAtIssue w = true <;> simp_all
  simp [Dev.issueScalar, d.fetchMend_clean t h hc, hi, hf, hb, hl, hw, hg, hn, ht']

/-- An instruction whose guard is false does nothing but move on, its wait taken and its token signalled. -/
theorem Dev.issueScalar_skip (t h : Nat) (w : W64) (regs : List Nat) (ill : HalfState → Bool)
    (fault : Dev → HalfState → Option (Nat × W64)) (eff : Dev → Dev)
    (hi : d.mayIssue t h = true) (hc : (d.tile t).weakIn (d.fetchOff t h) 8 = []) (hf : d.fetchFault t h w = none)
    (hb : regs.any (d.half t h).busyReg = false) (hl : ill (d.half t h) = false) (hw : (d.half t h).waitMet w = true)
    (hg : (d.half t h).guard w = false) (ht : fSV w = true → ((d.half t h).takeWait w).tokFull (fST w) = false) :
    d.issueScalar t h w regs ill fault eff = d.modHalf t h (fun s => (s.takeWait w).done w) := by
  have ht' : (fSV w && ((d.half t h).takeWait w).tokFull (fST w)) = false := by
    by_cases h1 : fSV w = true <;> simp_all
  simp [Dev.issueScalar, d.fetchMend_clean t h hc, hi, hf, hb, hl, hw, hg, ht']

/-- An illegal encoding, or a PC past the bank, raises its fault whatever the rest of the state, once the earlier operations of
the scalar unit have completed. -/
theorem Dev.issueScalar_illegal (t h : Nat) (w : W64) (regs : List Nat) (ill : HalfState → Bool)
    (fault : Dev → HalfState → Option (Nat × W64)) (eff : Dev → Dev) (c : Nat) (a : W64)
    (hi : d.mayIssue t h = true) (hw : (d.tile t).weakIn (d.fetchOff t h) 8 = []) (hf : d.fetchFault t h w = some (c, a))
    (hc : c ≠ fltMemError) : d.issueScalar t h w regs ill fault eff = d.faultHere t h w id c a := by
  simp [Dev.issueScalar, d.fetchMend_clean t h hw, Dev.fetchRaise, hi, hf, hc, Dev.faultHere]

/-- A precise fault with no earlier operation of the scalar unit outstanding is taken, and with one waits for it. -/
theorem Dev.faultHere_taken (t h : Nat) (w : W64) (found : Dev → Dev) (c : Nat) (a : W64)
    (hg : (d.half t h).globs.any (fun g => !g.ofMove) = false) :
    d.faultHere t h w found c a = (found d).raiseHere t h w c a := by simp [Dev.faultHere, hg]
theorem Dev.faultHere_held (t h : Nat) (w : W64) (found : Dev → Dev) (c : Nat) (a : W64)
    (hg : (d.half t h).globs.any (fun g => !g.ofMove) = true) : d.faultHere t h w found c a = d := by simp [Dev.faultHere, hg]

/-- A half that may not issue is left as it is. -/
theorem Dev.issueScalar_held (t h : Nat) (w : W64) (regs : List Nat) (ill : HalfState → Bool)
    (fault : Dev → HalfState → Option (Nat × W64)) (eff : Dev → Dev) (hi : d.mayIssue t h = false) :
    d.issueScalar t h w regs ill fault eff = d := by
  simp [Dev.issueScalar, hi]

/-- An effect on the registers of a half after the token it waited on is lowered is one change of that half. -/
theorem Dev.regEffect_takeWait (t h : Nat) (w : W64) (f : HalfState → HalfState) :
    Dev.regEffect t h w f (d.modHalf t h (HalfState.takeWait w)) = d.modHalf t h (fun s => (f (s.takeWait w)).done w) := by
  simp [Dev.regEffect]

end Sys2Proof.Machine
end

