-- ==== Sys2Proof/Tests/Slice0.lean ====
section
/-! SUPPORT. Small tests and the witnesses of the statements' hypotheses: each about one command on a small state. The expected
results are the spec's. -/
namespace Sys2Proof.Tests
set_option Elab.async false
open Sys2Proof Sys2Proof.Machine

/-- A well-formed command at a part that runs and repairs no pseudo-channel. -/
def go (c : Instr) (s : State) : Bool := c.wf && s.dev.alive && !s.dev.repairing

theorem reaches_of_go {c : Instr} {s : State} (h : go c s = true) : Reaches c s := by
  simpa [go, Reaches, Ready, and_assoc] using h
theorem ready_of_go {c : Instr} {s : State} (h : go c s = true) : Ready c s := (reaches_of_go h).1

/-- The state that a command leaves. -/
def after (c : Instr) (s : State) : State :=
  match exec c s with
  | .next t => t
  | .fault _ => s
  | .refused _ => s

/-- The part after reset with its volatile state changed. -/
def at' (d : Dev) : State := { dev := d }

/-- A flag of an event register. -/
def flag (s : State) (off i : Nat) : Bool := (s.dev.event off).flags.getLsbD i

/-! ## The front end -/

def sq5 : SqState := { ctx := 0, sched := false, loc := false, errPause := false, log2 := 4, cq := 2, base := 0x1000, slice := 102400000, limit := 7 }
def cq2 : CqState := { log2 := 4, loc := false, irqAll := false, vec := 3, base := 0x2000 }
def adm0 : CqState := { log2 := 4, loc := false, irqAll := true, vec := 1, base := 0x4000 }
/-- A front end that runs, with queue 5 of context 0, its completion queue 2, and the context's admin queue with one command. -/
def fe (q : SqState) (c : CqState) : Dev :=
  { regs := { words := [(0x100000, 1), (0x101000, 1), (0x10100C, 0x100), (0x1100A0, 0x40), (0x1100C0, 0x40), (0x180020, 0x80000044), (0x202020, 0x40), (0x203020, 0x40)] }
    pci := { dlUp := true, funcs := [(0, { busMaster := true, memSpace := true })] }
    fe := { sqs := [(5, q)], cqs := [(2, c), (256, adm0)], admins := [(0, { tail := 1 })] } }
def fe0 : Dev := fe sq5 cq2
/-- A descriptor of a churn task on stack 0, or of stack 9. -/
def churnTask (stack : Nat) : List Byte := leBytes 4 1 ++ leBytes 4 stack ++ leBytes 8 77 ++ leBytes 112 0
/-- An admin command. -/
def adm (op id addr p1 p2 p3 : Nat) : List Byte :=
  leBytes 4 op ++ leBytes 4 id ++ leBytes 8 9 ++ leBytes 8 addr ++ leBytes 8 p1 ++ leBytes 8 p2 ++ leBytes 8 p3 ++ leBytes 16 0

theorem test_sqDoorbell :
    go (.sqDoorbell 0 5 16) (at' fe0) = true ∧ fe0.barOpen 0 = true ∧ (after (.sqDoorbell 0 5 16) (at' fe0)).dev.sq 5 = some { sq5 with tail := 16 } ∧
    (after (.sqDoorbell 0 5 17) (at' fe0)).dev.sq 5 = some sq5 ∧ (after (.sqDoorbell 0 5 17) (at' fe0)).dev.fe.dbErr = 1 := by decide +kernel
theorem test_descriptorFetch :
    let s := at' (fe { sq5 with tail := 1 } cq2)
    go (.descriptorFetch 5 (some (churnTask 0))) s = true ∧ s.dev.mayFetch { sq5 with tail := 1 } = true ∧
    (after (.descriptorFetch 5 (some (churnTask 0))) s).dev.sq 5 = some { sq5 with tail := 1, fetched := 1, buf := [(churnTask 0, 0)] } ∧
    (after (.descriptorFetch 5 (some (churnTask 9))) s).dev.sq 5 = some { sq5 with tail := 1, fetched := 1, head := 1 } ∧
    ((after (.descriptorFetch 5 (some (churnTask 9))) s).dev.cq 2).map (fun c => (c.placed, c.writing.map (fun p => (p.entry.status, p.entry.tag)))) =
      some (1, [(0x401, 77)]) ∧
    (after (.descriptorFetch 5 none) s).dev.sq 5 = some { sq5 with tail := 1, fetched := 1, head := 1, mode := .paused } := by decide +kernel
theorem test_pauseStopResume :
    (after (.feSqPause (.func 0) 5) (at' fe0)).dev.sq 5 = some { sq5 with mode := .paused } ∧
    (after (.ctrlPauseSq 5) (at' fe0)).dev.sq 5 = some { sq5 with mode := .paused } ∧
    (after (.feSqResume (.func 0) 5) (at' (fe { sq5 with mode := .stopped } cq2))).dev.sq 5 = some sq5 ∧
    (after (.feSqStop (.func 0) 5) (at' fe0)).dev.sq 5 = some { sq5 with mode := .stopped } ∧
    (after (.ctrlStopSq 5) (at' (fe { sq5 with mode := .paused, fetched := 2 } cq2))).dev.sq 5 = some { sq5 with mode := .stopped } ∧
    go (.ctrlStopSq 5) (at' fe0) = true ∧ go (.feSqStop (.func 0) 5) (at' fe0) = true := by decide +kernel
theorem test_stopAck :
    let s (q : SqState) := at' (fe q cq2)
    go (.stopAck 5 (.churn 0)) (s sq5) = true ∧
    (after (.stopAck 5 (.churn 0)) (s { sq5 with mode := .stopped, acks := [168, 169], aborted := 1 })).dev.sq 5 = some { sq5 with mode := .stopped, acks := [169], aborted := 1 } ∧
    (after (.stopAck 5 (.churn 0)) (s { sq5 with mode := .stopped, acks := [168], aborted := 1 })).dev.sq 5 = some { sq5 with mode := .stopped } ∧
    (after (.stopAck 5 (.churn 0)) (s { sq5 with mode := .draining, acks := [168] })).dev.sq 5 = none := by decide +kernel
theorem test_allotmentWrite :
    let c := Instr.allotmentWrite (.func 0) 0x1100A0 0x43
    let c6 := Instr.allotmentWrite (.func 0) 0x1100C0 0x43
    go c (at' fe0) = true ∧ (after c (at' fe0)).dev.word 0x1100A0 = 0x40 ∧ fe0.sq 6 = none ∧ (after c6 (at' fe0)).dev.word 0x1100C0 = 0x43 := by decide +kernel
theorem test_dispatch :
    let s := at' (fe { sq5 with buf := [(churnTask 0, 0)] } cq2)
    let t := after (.dispatch (.churn 0)) s
    go (.dispatch (.churn 0)) s = true ∧ s.dev.schedGrant 168 = none ∧ s.dev.roundGrant 168 = some (5, true) ∧
    t.dev.sq 5 = some { sq5 with head := 1, running := 1 } ∧ t.dev.engine 168 = { holder := some 5, draught := some { queue := 5, desc := churnTask 0 } } ∧
    after (.dispatch (.churn 0)) (at' fe0) = at' fe0 := by decide +kernel
theorem test_taskTimeout :
    let t5 : Task := { queue := 5, desc := [] }
    let run (d : Dev) (n : W64) := at' { d.modEngine 168 (fun e => { e with running := some t5 }) with ft := { now := n } }
    let s := run fe0 7168000000
    let s1 := run fe0 7167999999
    let s0 := run (fe { sq5 with limit := 0 } cq2) 7168000000
    go (.taskTimeout (.churn 0)) s = true ∧ ((after (.taskTimeout (.churn 0)) s).dev.engine 168).running = some { t5 with stop := some 2 } ∧
    after (.taskTimeout (.churn 0)) s1 = s1 ∧ after (.taskTimeout (.churn 0)) s0 = s0 := by decide +kernel
theorem test_draughtDiscard :
    let t5 : Task := { queue := 5, desc := [], stop := some 1 }
    let s := at' (fe0.modEngine 168 (fun e => { e with draught := some t5 }))
    let job : TileJob := { tile := 3, old := 3, target := 17, copy := true, phase := .quiet }
    let r := at' ((fe0.modEngine 6 (fun e => { e with draught := some { queue := 5, desc := [] }, loaded := true })).modRas (fun r => { r with job := some job }))
    go (.draughtDiscard (.churn 0)) s = true ∧ ((after (.draughtDiscard (.churn 0)) s).dev.engine 168).draught = none ∧
    go (.draughtDiscard (.tile 3 0)) r = true ∧ (after (.draughtDiscard (.tile 3 0)) r).dev.engine 6 = { draught := some { queue := 5, desc := [] }, redo := true } := by
  decide +kernel
theorem test_windows :
    let w : Window := { start := 0, len := 8, tiles := 1, churns := 0, breezes := 0 }
    let s (n : W64) := at' { fe { sq5 with sched := true, window := some w } cq2 with ft := { mode := .locked, now := n } }
    go (.windowOpen 5) (s 0) = true ∧ (s 0).dev.due w.start = true ∧ (after (.windowOpen 5) (s 0)).dev.wins = [5] ∧
    (s 8).dev.due w.fin = true ∧ (after (.windowClose 5) (s 8)).dev.sq 5 = some { sq5 with sched := true } ∧ (after (.windowClose 5) (s 7)) = s 7 := by decide +kernel

def ent (q : Nat) : CEntry := { qid := q, status := 0, tag := 4, start := 0, fin := 0 }
theorem test_completionSeqWrite :
    let x : CqState := { cq2 with placed := 1, writing := [{ entry := ent 5, seq := 1, held := false }] }
    let s := at' (fe sq5 x)
    let s0 := at' { fe sq5 x with pci := {} }
    go (.completionSeqWrite 2) s = true ∧ (s.dev.ringWrite 2 x (x.slot 1) (leBytes 4 1)).1 = .ok ∧
    (after (.completionSeqWrite 2) s).dev.cq 2 = some { cq2 with placed := 1, tail := 1 } ∧
    (after (.completionSeqWrite 2) s).dev.out = [.dmaWrite 0 0x2000 [1, 0, 0, 0]] ∧
    (s0.dev.ringWrite 2 x (x.slot 1) (leBytes 4 1)).1 = .refused ∧
    (after (.completionSeqWrite 2) s0).dev.cq 2 = some { cq2 with mode := .stalled, placed := 1, hold := [{ entry := ent 5, seq := 1, held := true }] } := by decide +kernel
theorem test_cqDoorbell :
    let s := at' (fe sq5 { cq2 with tail := 4, placed := 4 })
    let a := at' { fe0 with fe := { fe0.fe with cqs := [(256, { adm0 with tail := 2, placed := 2 })] } }
    go (.cqDoorbell (.func 0) 2 4) s = true ∧ ((after (.cqDoorbell (.func 0) 2 4) s).dev.cq 2).map (fun c => c.head) = some 4 ∧
    (after (.cqDoorbell (.func 0) 2 5) s).dev.fe.dbErr = 1 ∧ go (.adminCqDoorbell (.func 0) 0 2) a = true ∧
    ((after (.adminCqDoorbell (.func 0) 0 2) a).dev.cq 256).map (fun c => c.head) = some 2 := by decide +kernel
theorem test_cqResume :
    let x := { cq2 with mode := CqMode.stalled }
    let d := fe sq5 x
    let ats := { d with pci := { d.pci with funcs := [(0, { busMaster := true, ats := true })] } }
    let a := { d with fe := { d.fe with cqs := [(256, { adm0 with mode := .stalled })] } }
    go (.cqResume (.func 0) 2 1) (at' d) = true ∧ (after (.cqResume (.func 0) 2 1) (at' d)).dev.cq 2 = some cq2 ∧
    (after (.cqResume (.func 0) 2 1) (at' { d with pci := {} })).dev.cq 2 = some x ∧ flag (after (.cqResume (.func 0) 2 1) (at' { d with pci := {} })) evFe 2 = true ∧
    (after (.cqResume (.func 0) 2 1) (at' ats)).dev.cq 2 = some { x with asked := true } ∧
    (after (.cqResume (.func 0) 2 1) (at' fe0)).dev.fe = fe0.fe ∧
    go (.adminResume (.func 0) 0 1) (at' a) = true ∧ (after (.adminResume (.func 0) 0 1) (at' a)).dev.cq 256 = some adm0 := by decide +kernel
theorem test_atsTranslation :
    let x := { cq2 with mode := CqMode.stalled, asked := true }
    let d := fe sq5 x
    let s := at' { d with pci := { d.pci with funcs := [(0, { busMaster := true, ats := true })] } }
    go (.atsTranslation 2 true) s = true ∧ (after (.atsTranslation 2 true) s).dev.cq 2 = some cq2 ∧ (after (.atsTranslation 2 true) s).dev.pci.atc = [(0, 2, true)] ∧
    (after (.atsTranslation 2 false) s).dev.cq 2 = some { cq2 with mode := .stalled } ∧ after (.atsTranslation 2 true) (at' d) = at' d := by decide +kernel
theorem test_svcDoorbell :
    let s := at' { sync := { words := [(16320, 0x00000001FFFFFFFF)] } }
    go (.svcDoorbell (.core 0 true) 0 2) s = true ∧ s.dev.watchIds = [] ∧ s.dev.vaneIds = [] ∧
    (after (.svcDoorbell (.core 0 true) 0 2) s).dev.sync64 16320 = 0x0000000200000002 := by decide +kernel

/-- The answer an admin command of context 0 left: status, RESULT, tag. -/
def answered (t : State) : Option (List (Nat × W64 × W64)) :=
  if (t.dev.admin 0).head = 1 then (t.dev.cq 256).map (fun c => (c.hold ++ c.writing).map (fun p => (p.entry.status, p.entry.start, p.entry.tag))) else none
theorem test_createCq :
    let c := adm 1 3 0x8000 (0x204 + 64) 0 0
    let t := after (.createCq 0 c) (at' fe0)
    go (.createCq 0 c) (at' fe0) = true ∧ fe0.admReady 0 c = true ∧ answered t = some [(0, 0, 9)] ∧
    t.dev.cq 3 = some { log2 := 4, loc := false, irqAll := true, vec := 4, base := 0x8000 } ∧
    answered (after (.createCq 0 (adm 1 2 0x8000 4 0 0)) (at' fe0)) = some [(0x503, 0, 9)] ∧
    answered (after (.createCq 0 (adm 1 4 0x8000 4 0 0)) (at' fe0)) = some [(0x502, 0, 9)] := by decide +kernel
theorem test_destroyCq :
    let e := adm 2 2 0 0 0 0
    let none' := at' { fe0 with fe := { fe0.fe with sqs := [] } }
    go (.destroyCq 0 e) (at' fe0) = true ∧ answered (after (.destroyCq 0 e) (at' fe0)) = some [(0x507, 0, 9)] ∧
    answered (after (.destroyCq 0 e) none') = some [(0, 0, 9)] ∧ (after (.destroyCq 0 e) none').dev.cq 2 = none := by decide +kernel
theorem test_resumeCq :
    let c := adm 10 2 0 0 0 0
    let d := fe sq5 { cq2 with mode := CqMode.stalled, loc := true }
    go (.resumeCq 0 c) (at' d) = true ∧ answered (after (.resumeCq 0 c) (at' d)) = some [(0, 0, 9)] ∧
    (after (.resumeCq 0 c) (at' d)).dev.cq 2 = some { cq2 with loc := true } ∧ answered (after (.resumeCq 0 c) (at' fe0)) = some [(0, 0, 9)] := by decide +kernel
theorem test_createSq :
    let c := adm 3 6 0x8000 (4 + 32 + 0x200) 0 0
    let t := after (.createSq 0 c) (at' fe0)
    go (.createSq 0 c) (at' fe0) = true ∧ answered t = some [(0, 0, 9)] ∧
    t.dev.sq 6 = some { ctx := 0, sched := false, loc := true, errPause := false, log2 := 4, cq := 2, base := 0x8000, slice := 102400000, limit := 0 } ∧
    answered (after (.createSq 0 (adm 3 5 0x8000 0x204 0 0)) (at' fe0)) = some [(0x503, 0, 9)] ∧
    answered (after (.createSq 0 (adm 3 7 0x8000 0x204 0 0)) (at' fe0)) = some [(0x502, 0, 9)] := by decide +kernel
theorem test_queueCommands :
    let paused := at' (fe { sq5 with mode := .paused } cq2)
    let held := at' (fe0.modEngine 168 (fun e => { e with draught := some { queue := 5, desc := [] } }))
    go (.pauseSq 0 (adm 5 5 0 0 0 0)) (at' fe0) = true ∧ answered (after (.pauseSq 0 (adm 5 5 0 0 0 0)) (at' fe0)) = some [(0, 0, 9)] ∧
    (after (.pauseSq 0 (adm 5 5 0 0 0 0)) (at' fe0)).dev.sq 5 = some { sq5 with mode := .paused } ∧
    answered (after (.pauseSq 0 (adm 5 5 0 0 0 0)) paused) = some [(0x503, 0, 9)] ∧
    go (.resumeSq 0 (adm 7 5 0 0 0 0)) paused = true ∧ (after (.resumeSq 0 (adm 7 5 0 0 0 0)) paused).dev.sq 5 = some sq5 ∧
    go (.stopSq 0 (adm 6 5 0 0 0 0)) (at' (fe { sq5 with aborted := 2 } cq2)) = true ∧
    answered (after (.stopSq 0 (adm 6 5 0 0 0 0)) (at' (fe { sq5 with aborted := 2 } cq2))) = some [(0, 0, 9)] ∧
    (after (.stopSq 0 (adm 6 5 0 0 0 0)) (at' (fe { sq5 with aborted := 2 } cq2))).dev.sq 5 = some { sq5 with mode := .stopped } ∧
    answered (after (.stopSq 0 (adm 6 5 0 0 0 0)) held) = some [] ∧
    (after (.stopSq 0 (adm 6 5 0 0 0 0)) held).dev.sq 5 = some { sq5 with mode := .stopped, acks := [168], stopCmd := [(0, 9, 0)] } := by decide +kernel
theorem test_destroySq :
    let c := adm 4 5 0 0 0 0
    let held := at' (fe0.modEngine 168 (fun e => { e with draught := some { queue := 5, desc := [] } }))
    go (.destroySq 0 c) (at' fe0) = true ∧ answered (after (.destroySq 0 c) (at' fe0)) = some [(0, 0, 9)] ∧ (after (.destroySq 0 c) (at' fe0)).dev.sq 5 = none ∧
    ((after (.destroySq 0 c) held).dev.sq 5).map (fun q => (q.mode, q.acks, q.destroyCmd)) = some (.draining, [168], some (0, 9)) := by decide +kernel
theorem test_setClearWindow :
    let d := fe { sq5 with sched := true } cq2
    let c := adm 8 5 64 2 0 0x100
    let t := after (.setWindow 0 c) (at' d)
    go (.setWindow 0 c) (at' d) = true ∧ answered t = some [(0, 0, 9)] ∧
    t.dev.sq 5 = some { sq5 with sched := true, window := some { start := 64, len := 20480000, tiles := 0, churns := 1, breezes := 0 } } ∧
    answered (after (.setWindow 0 (adm 8 5 64 2 1 0)) (at' d)) = some [(0x505, 0, 9)] ∧
    answered (after (.setWindow 0 (adm 8 5 0x5000000000000000 2 0 0)) (at' d)) = some [(0x506, 0, 9)] ∧
    go (.clearWindow 0 (adm 9 5 0 0 0 0)) { t with dev := fe { sq5 with window := some { start := 0, len := 0, tiles := 0, churns := 0, breezes := 0 } } cq2 } = true ∧
    (after (.clearWindow 0 (adm 9 5 0 0 0 0)) (at' (fe { sq5 with window := some { start := 0, len := 0, tiles := 0, churns := 0, breezes := 0 } } cq2))).dev.sq 5 = some sq5 := by
  decide +kernel
theorem test_invalidOpcode :
    go (.invalidOpcode 0 (adm 11 5 0 0 0 0)) (at' fe0) = true ∧ answered (after (.invalidOpcode 0 (adm 11 5 0 0 0 0)) (at' fe0)) = some [(0x501, 0, 9)] := by decide +kernel
theorem test_adminDoorbell :
    go (.adminDoorbell (.func 0) 0 16) (at' fe0) = true ∧ fe0.admOn 0 = true ∧ ((after (.adminDoorbell (.func 0) 0 16) (at' fe0)).dev.admin 0).tail = 16 ∧
    (after (.adminDoorbell (.func 0) 0 17) (at' fe0)).dev.fe.dbErr = 1 ∧ (after (.adminDoorbell (.func 0) 1 1) (at' fe0)).dev.fe.dbErr = 1 := by decide +kernel


/-! ## The scalar unit -/

/-- An instruction word of format R without header flags: opcode, A, B, C, D, E, FN (05 Tables 1 and 2). -/
def wR (o a b c d e fn : Nat) : W64 := BitVec.ofNat 64 (o * 2 ^ 57 + a * 2 ^ 36 + b * 2 ^ 31 + c * 2 ^ 26 + d * 2 ^ 21 + e * 2 ^ 16 + fn)
/-- Of format I: opcode, A, B, IMM31. -/
def wI (o a b i : Nat) : W64 := BitVec.ofNat 64 (o * 2 ^ 57 + a * 2 ^ 36 + b * 2 ^ 31 + i)
/-- Of format U: opcode, A, FN4, IMM32. -/
def wU (o a f i : Nat) : W64 := BitVec.ofNat 64 (o * 2 ^ 57 + a * 2 ^ 36 + f * 2 ^ 32 + i)
/-- The header with a token wait, a signal, or a negated guard on p0. -/
def waits (k : Nat) (w : W64) : W64 := w ||| BitVec.ofNat 64 (2 ^ 52 + k * 2 ^ 47)
def signals (k : Nat) (w : W64) : W64 := w ||| BitVec.ofNat 64 (2 ^ 46 + k * 2 ^ 41)
def never (w : W64) : W64 := w ||| BitVec.ofNat 64 (2 ^ 56)

def ents (s : State) (t h : Nat) (w : W64) (regs : List Nat) : Bool :=
  s.dev.mayIssue t h && decide ((s.dev.tile t).weakIn (s.dev.fetchOff t h) 8 = []) && decide (s.dev.fetchFault t h w = none) &&
  !regs.any (s.dev.half t h).busyReg && (s.dev.half t h).waitMet w && (s.dev.half t h).guard w
def iss (s : State) (t h : Nat) (w : W64) (regs : List Nat) : Bool :=
  ents s t h w regs && (!fSV w || !signalsAtIssue w || !((s.dev.half t h).takeWait w).tokFull (fST w))
theorem enters_of_ent {s : State} {t h : Nat} {w : W64} {regs : List Nat} (i : ents s t h w regs = true) : Enters s t h w regs := by
  simpa [ents, Enters, FetchesClean, and_assoc] using i
theorem issues_of_iss {s : State} {t h : Nat} {w : W64} {regs : List Nat} (i : iss s t h w regs = true) : Issues s t h w regs := by
  simp only [iss, Bool.and_eq_true] at i
  refine ⟨enters_of_ent i.1, fun a b => ?_⟩
  simpa [a, b] using i.2

/-- Half 0 of tile 3 in normal mode, running. -/
def half0 : HalfState := { mode := .run, pc := 5, sregs := [(1, 5), (2, 0xFFFFFFFFFFFFFFFD), (3, 0x4000), (4, 1), (5, 0x1800000)], preds := 5, tokens := [(2, 1)] }
def onTile (x : HalfState) : State := at' { tiles := [(3, { h0 := x })] }
def run0 : State := onTile half0
/-- An instruction completes as it issues at PC 5, with s[A] so. -/
def gives (c : Instr) (w : W64) (regs : List Nat) (v : W64) : Bool :=
  go c run0 && iss run0 3 0 w regs && decide (after c run0 = onTile { (HalfState.setReg (fA w) v half0) with pc := 6, nextSeq := 1 })
/-- The same for p[A]. -/
def predIs (c : Instr) (w : W64) (regs : List Nat) (v : Bool) : Bool :=
  go c run0 && iss run0 3 0 w regs && decide (after c run0 = onTile { (HalfState.setPred (fA w) v half0) with pc := 6, nextSeq := 1 })

theorem test_nop : gives (.nop 3 0 0) 0 [] 0 = true := by decide +kernel
theorem test_alu :
    ([(0, 2), (1, 8), (2, 0xFFFFFFFFFFFFFFF1), (3, 4), (4, 0xFFFFFFFFFFFFFFFF), (5, 5), (6, 0xFFFFFFFFFFFFFFFD), (7, 0xFFFFFFFFFFFFFFF8),
      (8, 0xA000000000000000), (9, 0), (10, 0), (11, 5), (12, 0xFFFFFFFFFFFFFFFD), (13, 0xFFFFFFFFFFFFFFFD), (14, 5)] : List (Nat × W64)).all (fun e =>
      let w := wR 1 6 1 2 0 0 e.1
      gives (.alu 3 0 w) w [6, 1, 2] e.2) = true := by decide +kernel
theorem test_alu_sel :
    gives (.alu 3 0 (wR 1 6 1 2 2 0 15)) (wR 1 6 1 2 2 0 15) [6, 1, 2] 5 = true ∧ gives (.alu 3 0 (wR 1 6 1 2 1 0 15)) (wR 1 6 1 2 1 0 15) [6, 1, 2] 0xFFFFFFFFFFFFFFFD = true := by decide +kernel
theorem test_immediates :
    gives (.addi 3 0 (wI 2 6 1 0x7FFFFFF8)) (wI 2 6 1 0x7FFFFFF8) [6, 1] 0xFFFFFFFFFFFFFFFD = true ∧
    gives (.andi 3 0 (wI 3 6 2 0x7FFFFFF8)) (wI 3 6 2 0x7FFFFFF8) [6, 2] 0xFFFFFFFFFFFFFFF8 = true ∧
    gives (.ori 3 0 (wI 4 6 1 8)) (wI 4 6 1 8) [6, 1] 13 = true ∧
    gives (.xori 3 0 (wI 5 6 1 0x7FFFFFFF)) (wI 5 6 1 0x7FFFFFFF) [6, 1] 0xFFFFFFFFFFFFFFFA = true ∧
    gives (.addi 3 0 (wI 2 0 1 8)) (wI 2 0 1 8) [0, 1] 13 = true := by decide +kernel
theorem test_shi :
    gives (.shi 3 0 (wU 6 2 0 63)) (wU 6 2 0 63) [2] 0x8000000000000000 = true ∧ gives (.shi 3 0 (wU 6 2 1 60)) (wU 6 2 1 60) [2] 15 = true ∧
    gives (.shi 3 0 (wU 6 2 2 1)) (wU 6 2 2 1) [2] 0xFFFFFFFFFFFFFFFE = true := by decide +kernel
theorem test_li :
    gives (.liLo 3 0 (wU 7 1 0 0x80000000)) (wU 7 1 0 0x80000000) [1] 0xFFFFFFFF80000000 = true ∧
    gives (.liHi 3 0 (wU 7 2 1 0x12345678)) (wU 7 2 1 0x12345678) [2] 0x12345678FFFFFFFD = true := by decide +kernel
theorem test_cmp :
    ([(0, false), (1, true), (2, false), (3, true), (4, true), (5, false), (6, false), (7, true), (8, false), (9, true), (10, true), (11, false)] : List (Nat × Bool)).all
      (fun e => let w := wR 0x0A 3 1 2 0 0 e.1; predIs (.cmp 3 0 w) w [1, 2] e.2) = true := by decide +kernel
theorem test_cmpi :
    predIs (.cmpi 3 0 (wI 0x0B 2 1 (0 * 2 ^ 27 + 5))) (wI 0x0B 2 1 5) [1] true = true ∧
    predIs (.cmpi 3 0 (wI 0x0B 2 1 (2 * 2 ^ 27 + 0x7FFFFFF))) (wI 0x0B 2 1 (2 * 2 ^ 27 + 0x7FFFFFF)) [1] false = true := by decide +kernel
theorem test_pop :
    ([(0, false), (1, true), (2, true), (3, true)] : List (Nat × Bool)).all (fun e => let w := wR 0x0C 4 2 1 0 0 e.1; predIs (.pop 3 0 w) w [] e.2) = true ∧
    predIs (.pop 3 0 (wR 0x0C 4 2 0 0 0 4)) (wR 0x0C 4 2 0 0 0 4) [] true = true := by decide +kernel
theorem test_branches :
    let br := wI 0x0D 0 0 9
    let loop := wI 0x0E 1 0 9
    let last := wI 0x0E 4 0 9
    go (.br 3 0 br) run0 && iss run0 3 0 br [] && decide (after (.br 3 0 br) run0 = onTile { half0 with pc := 9, nextSeq := 1 }) &&
    go (.bdec 3 0 loop) run0 && iss run0 3 0 loop [1] && decide (after (.bdec 3 0 loop) run0 = onTile { HalfState.setReg 1 4 half0 with pc := 9, nextSeq := 1 }) &&
    go (.bdec 3 0 last) run0 && iss run0 3 0 last [4] && decide (after (.bdec 3 0 last) run0 = onTile { HalfState.setReg 4 0 half0 with pc := 6, nextSeq := 1 }) = true := by
  decide +kernel
theorem test_brr :
    let at1 := wR 0x0F 0 1 0 0 0 0
    let at3 := wR 0x0F 0 3 0 0 0 0
    go (.brr 3 0 at1) run0 = true ∧ iss run0 3 0 at1 [1] = true ∧ after (.brr 3 0 at1) run0 = onTile { half0 with pc := 5, nextSeq := 1 } ∧
    iss run0 3 0 at3 [3] = true ∧ (run0.dev.tile 3).pcMax < 0x4000 ∧ flag (after (.brr 3 0 at3) run0) (evTil 3 0) fltIllegal = true ∧
    ((after (.brr 3 0 at3) run0).dev.half 3 0).pc = 5 := by decide +kernel
theorem test_end :
    let w := wU 0x15 0 0 0xBEEF
    go (.endTask 3 0 w) run0 = true ∧ iss run0 3 0 w [] = true ∧ after (.endTask 3 0 w) run0 = onTile { half0 with pc := 6, nextSeq := 1, ended := some 0xBEEF } := by decide +kernel
theorem test_rdsr :
    let s : State := at' { tiles := [(3, { h0 := { half0 with tag := 7, rescale := 8, sat := 9, doorbell := 10 } })], ft := { now := 0x100, slip := 0x10 } }
    let r (i : Nat) := ((after (.rdsr 3 0 (wU 0x10 6 0 i)) s).dev.half 3 0).reg 6
    go (.rdsr 3 0 (wU 0x10 6 0 9)) s = true ∧ iss s 3 0 (wU 0x10 6 0 9) [6] = true ∧ iss s 3 0 (wU 0x10 6 0 7) [6] = true ∧
    [r 0, r 1, r 2, r 3, r 4, r 5, r 6, r 8, r 9] = [0x100, 0xF0, 3, 0xFFFFF, 7, 8, 9, 0, 10] ∧
    (after (.rdsr 3 0 (wU 0x10 6 0 7)) s).dev.free = 1 := by decide +kernel

theorem test_ld :
    let s : State := at' { tiles := [(3, { h0 := half0, tmem := [(0x4008, 1), (0x400F, 0x80)] })] }
    let w := wI 8 6 3 8
    go (.ld 3 0 w) s = true ∧ iss s 3 0 w [6, 3] = true ∧ s.dev.ldFault 3 0 w half0 = none ∧ (s.dev.tile 3).badIn 0x4008 8 = none ∧
    ((after (.ld 3 0 w) s).dev.half 3 0).reg 6 = 0x8000000000000001 ∧
    iss s 3 0 (wI 8 6 5 0) [6, 5] = true ∧ flag (after (.ld 3 0 (wI 8 6 5 0)) s) (evTil 3 0) fltMemRange = true ∧
    flag (after (.ld 3 0 (wI 8 6 3 4)) s) (evTil 3 0) fltMemRange = true := by decide +kernel
theorem test_st :
    let w := wI 9 1 3 8
    go (.st 3 0 w) run0 = true ∧ iss run0 3 0 w [1, 3] = true ∧ run0.dev.ldFault 3 0 w half0 = none ∧
    ((after (.st 3 0 w) run0).dev.tile 3).tmem = [(0x4008, 5)] ∧
    (after (.st 3 0 (wI 9 1 5 0)) run0).dev.tiles.map (fun e => e.2.tmem) = [[]] ∧ flag (after (.st 3 0 (wI 9 1 5 0)) run0) (evTil 3 0) fltMemRange = true := by decide +kernel

theorem test_tokens :
    let sg := wU 0x11 0 0 5
    let wt := wU 0x11 0 1 4
    let wt5 := wU 0x11 0 1 5
    go (.tokSig 3 0 sg) run0 = true ∧ iss run0 3 0 sg [] = true ∧ ((after (.tokSig 3 0 sg) run0).dev.half 3 0).tokens = [(0, 1), (2, 2)] ∧
    go (.tokWait 3 0 wt) run0 = true ∧ iss run0 3 0 wt [] = true ∧ ((after (.tokWait 3 0 wt) run0).dev.half 3 0).tokens = [] ∧
    ((after (.tokWait 3 0 wt5) run0).dev.half 3 0).mode = .wait ∧ ((after (.tokWait 3 0 wt5) run0).dev.half 3 0).tokens = [(2, 1)] := by decide +kernel
/-- A half that waits. -/
def waiting (a : WaitFor) : State := onTile { half0 with mode := .wait, wait := some { what := a, seq := 0, pc := 4, bank := 0, word := 0, sig := none } }
theorem test_tokWaitRelease :
    go (.tokWaitRelease 3 0) (waiting (.token 4)) = true ∧ after (.tokWaitRelease 3 0) (waiting (.token 4)) = onTile { half0 with tokens := [] } ∧
    after (.tokWaitRelease 3 0) (waiting (.token 5)) = waiting (.token 5) := by decide +kernel
theorem test_fences :
    ([.fenceRel 3 0 (wU 0x12 0 0 0), .fenceAcq 3 0 (wU 0x12 0 1 0), .fenceAll 3 0 (wU 0x12 0 2 0)] : List Instr).all
      (fun c => go c run0 && decide (after c run0 = onTile { half0 with pc := 6, nextSeq := 1 })) = true ∧
    iss run0 3 0 (wU 0x12 0 2 0) [] = true ∧ run0.dev.writesAcked 3 0 = true ∧ (run0.dev.tile 3).chanMoves 0 = [] ∧
    go (.fenceRelease 3 0) (waiting (.fence true true true)) = true ∧ after (.fenceRelease 3 0) (waiting (.fence true true true)) = run0 := by decide +kernel
theorem test_waitFt :
    let w := wR 0x13 0 1 0 0 0 1
    let s : State := { run0 with dev := { run0.dev with ft := { now := 5 } } }
    let early : State := { run0 with dev := { run0.dev with ft := { now := 4 } } }
    let x (n : W64) : State := let y := waiting (.time 5 true false); { y with dev := { y.dev with ft := { now := n } } }
    go (.waitFt 3 0 w) s = true ∧ iss s 3 0 w [1] = true ∧ ((after (.waitFt 3 0 w) s).dev.half 3 0).mode = .run ∧
    ((after (.waitFt 3 0 w) early).dev.half 3 0).mode = .wait ∧
    go (.waitFtRelease 3 0) (x 5) = true ∧ ((after (.waitFtRelease 3 0) (x 5)).dev.half 3 0).mode = .run ∧ after (.waitFtRelease 3 0) (x 4) = x 4 := by decide +kernel
/-- The same part with fabric time locked, so that it releases schedule targets. -/
def locked (s : State) (n : W64) : State := { s with dev := { s.dev with ft := { mode := .locked, now := n } } }
theorem test_waitW :
    let s (n : W64) := locked (onTile { half0 with sregs := [(1, syncBase), (2, 7), (3, 9)] }) n
    let w := wR 0x14 3 1 2 3 0 0
    (s 9).dev.releasing = true ∧ go (.waitW 3 0 w) (s 9) = true ∧ iss (s 9) 3 0 w [1, 2, 3] = true ∧ (s 9).dev.waitWFault w ((s 9).dev.half 3 0) = none ∧
    ((after (.waitW 3 0 w) (s 9)).dev.half 3 0).mode = .run ∧ ((after (.waitW 3 0 w) (s 9)).dev.half 3 0).pred 3 = false ∧
    ((after (.waitW 3 0 w) (s 8)).dev.half 3 0).mode = .wait ∧
    ((after (.waitW 3 0 (wR 0x14 3 1 0 3 0 0)) (s 8)).dev.half 3 0).pred 3 = true := by decide +kernel
theorem test_waitWDeadline :
    let s (n : W64) := locked (waiting (.word false 0 0 7 (some 9) 3)) n
    go (.waitWDeadline 3 0) (s 9) = true ∧ ((after (.waitWDeadline 3 0) (s 9)).dev.half 3 0).mode = .run ∧ after (.waitWDeadline 3 0) (s 8) = s 8 := by decide +kernel

theorem test_issue_rules :
    let w := wI 2 6 1 8
    let c := Instr.addi 3 0 w
    let idle := onTile { half0 with mode := .idle }
    let busy := onTile { half0 with globs := [{ idx := 0, kind := .load false, dst := 1, node := 0, loc := 0, x := 0, c := 0, seq := 0, pc := 0, bank := 0, word := 0, sig := none }] }
    go c idle = true ∧ idle.dev.mayIssue 3 0 = false ∧ after c idle = idle ∧ busy.dev.fetchFault 3 0 w = none ∧ [6, 1].any (busy.dev.half 3 0).busyReg = true ∧ after c busy = busy ∧
    half0.waitMet (waits 3 w) = false ∧ after (.addi 3 0 (waits 3 w)) run0 = run0 ∧
    half0.guard (never w) = false ∧ after (.addi 3 0 (never w)) run0 = onTile { half0 with pc := 6, nextSeq := 1 } ∧
    (after (.addi 3 0 (waits 2 w)) run0).dev.half 3 0 = { HalfState.setReg 6 13 half0 with pc := 6, nextSeq := 1, tokens := [] } ∧
    ((after (.addi 3 0 (signals 7 w)) run0).dev.half 3 0).sigs.map (fun x => x.tok) = [7] := by decide +kernel
theorem test_illegal :
    let w := wR 1 6 1 2 0 0 16
    let r := wR 0x16 0 0 0 0 0 0
    run0.dev.fetchFault 3 0 w = some (fltIllegal, 0) ∧ flag (after (.alu 3 0 w) run0) (evTil 3 0) fltIllegal = true ∧
    go (.reservedOpcode 3 0 r) run0 = true ∧ run0.dev.mayIssue 3 0 = true ∧ (run0.dev.tile 3).badIn (run0.dev.fetchOff 3 0) 8 = none ∧
    flag (after (.reservedOpcode 3 0 r) run0) (evTil 3 0) fltIllegal = true ∧ ((after (.reservedOpcode 3 0 (never r)) run0).dev.half 3 0).fault.isSome = true := by decide +kernel
theorem test_illegal_fields :
    let a := wR 1 6 1 2 0 0 16
    let k := wR 0x0A 1 1 2 0 0 16
    let p := wR 0x0C 1 1 2 0 0 5
    let z := Instr.shi 3 0 (wR 6 1 0 0 0 0 64)
    (run0.dev.half 3 0).pc ≤ (run0.dev.tile 3).pcMax ∧ bw a 4 0 = 16 ∧ bw k 15 4 = 1 ∧ fFN p = 5 ∧ go (.alu 3 0 a) run0 = true ∧ go (.cmp 3 0 k) run0 = true ∧ go (.pop 3 0 p) run0 = true ∧ go z run0 = true ∧
    flag (after (.cmp 3 0 k) run0) (evTil 3 0) fltIllegal = true ∧ flag (after (.pop 3 0 p) run0) (evTil 3 0) fltIllegal = true ∧ flag (after z run0) (evTil 3 0) fltIllegal = true := by decide +kernel

/-! ## The vector unit, the array and the queues -/

/-- Format VR: opcode, A, B, C, D, FN. -/
def wV (o a b c d fn : Nat) : W64 := wR o a b c d 0 fn
/-- A half with two lanes of v1 and v2, bases in s1, slot 3 named by s2, a mask in s3. -/
def halfV : HalfState := { half0 with
  sregs := [(1, 0x1000), (2, 3), (3, 1), (4, 0x40000000), (5, 0x0000020000001000), (6, 0x200)]
  vregs := [(64, 0x3F800000), (65, 0xC0000000), (128, 0x40400000), (129, 0x40000000)] }
/-- Its tile: BF16 elements at 0x1000, and slot 3 with 6.0 and a tag of 1. -/
def tileV : TileState := { h0 := halfV, tmem := [(0x1000, 0x80), (0x1001, 0x3F)], acc := [(768, 0x40C00000)], tags := [(3, 1)] }
def runV : State := at' { tiles := [(3, tileV)] }
def vec (c : Instr) (s : State) (w : W64) (regs : List Nat) : Bool :=
  go c s && ents s 3 0 w regs && decide ((s.dev.half 3 0).queue? .vector = []) &&
  !s.dev.slotWaits 3 0 .vector ((s.dev.half 3 0).entry w) &&
  (!fWV w || decide (s.dev.rivals 3 0 .vector (fWT w) < (s.dev.half 3 0).token (fWT w))) && decide (vecFault 3 s.dev (s.dev.half 3 0) ((s.dev.half 3 0).entry w) = none)
/-- The first lanes of a vector register afterwards. -/
def lanesOf (s : State) (v n : Nat) : List W32 := (List.range n).map (fun i => (s.dev.half 3 0).lane v i)

theorem test_vop :
    vec (.vop 3 0 (wV 0x60 4 1 2 0 0)) runV (wV 0x60 4 1 2 0 0) [0] = true ∧
    lanesOf (after (.vop 3 0 (wV 0x60 4 1 2 0 0)) runV) 4 3 = [0x40800000, 0, 0] ∧
    lanesOf (after (.vop 3 0 (wV 0x60 4 1 2 2 3)) runV) 4 2 = [0x40C00000, 0xC0000000] ∧
    lanesOf (after (.vop 3 0 (wV 0x60 4 1 4 0 (16 + 2))) runV) 4 2 = [0x40000000, 0xC0800000] := by decide +kernel
theorem test_vfn :
    let c := Instr.vfn 3 0 (wV 0x61 4 1 0 0 0)
    vec c runV (wV 0x61 4 1 0 0 0) [] = true ∧ lanesOf (after c runV) 4 2 = [0x3F800000, 0x40000000] ∧
    lanesOf (after (.vfn 3 0 (wV 0x61 4 1 0 0 3)) runV) 4 2 = [0x3F800000, 0xBF000000] ∧
    lanesOf (after (.vfn 3 0 (wV 0x61 4 2 0 0 5)) runV) 4 2 = [0x41000000, 0x40800000] ∧
    lanesOf (after (.vfn 3 0 (wV 0x61 4 2 0 0 6)) runV) 4 3 = [0x3FCAE00D, 0x3F800000, 0xFF800000] := by decide +kernel
theorem test_vcmp :
    let c := Instr.vcmp 3 0 (wV 0x62 7 1 2 0 2)
    vec c runV (wV 0x62 7 1 2 0 2) [7, 0] = true ∧ ((after c runV).dev.half 3 0).reg 7 = 3 := by decide +kernel
theorem test_vsel :
    let c := Instr.vsel 3 0 (wV 0x63 4 1 2 3 0)
    vec c runV (wV 0x63 4 1 2 3 0) [3] = true ∧ lanesOf (after c runV) 4 2 = [0x3F800000, 0x40000000] := by decide +kernel
theorem test_vmov :
    let c (w : W64) := Instr.vmov 3 0 w
    vec (c (wV 0x64 4 4 0 0 0)) runV (wV 0x64 4 4 0 0 0) [4, 0] = true ∧ lanesOf (after (c (wV 0x64 4 4 0 0 0)) runV) 4 2 = [0x40000000, 0x40000000] ∧
    vec (c (wV 0x64 1 4 3 0 1)) runV (wV 0x64 1 4 3 0 1) [4, 3] = true ∧ lanesOf (after (c (wV 0x64 1 4 3 0 1)) runV) 1 2 = [0x3F800000, 0x40000000] ∧
    vec (c (wV 0x64 7 1 3 0 2)) runV (wV 0x64 7 1 3 0 2) [7, 3] = true ∧ ((after (c (wV 0x64 7 1 3 0 2)) runV).dev.half 3 0).reg 7 = 0xC0000000 := by decide +kernel
theorem test_vred :
    let c := Instr.vred 3 0 (wV 0x6C 4 1 0 0 1)
    vec c runV (wV 0x6C 4 1 0 0 1) [] = true ∧ lanesOf (after c runV) 4 2 = [0x40A00000, 0] := by decide +kernel
theorem test_vmv :
    let c := Instr.vmv 3 0 (wV 0x6D 4 3 0 0 16)
    vec c runV (wV 0x6D 4 3 0 0 16) [] = true ∧ lanesOf (after c runV) 4 3 = [64, 0, 0] := by decide +kernel
theorem test_vld :
    let c := Instr.vld 3 0 (wV 0x65 4 1 0 0 6)
    vec c runV (wV 0x65 4 1 0 0 6) [1] = true ∧ runV.dev.spansFault 3 0 (vecSpans 0x1000 6 64) = none ∧ (runV.dev.tile 3).spansBad 0 (vecSpans 0x1000 6 64) = none ∧
    lanesOf (after c runV) 4 2 = [0x3F800000, 0] := by decide +kernel
theorem test_vst :
    let c := Instr.vst 3 0 (wV 0x66 1 1 0 0 6)
    vec c runV (wV 0x66 1 1 0 0 6) [1, 0, 0] = true ∧ storeRegs (wV 0x66 1 1 0 0 6) = [1, 0, 0] ∧
    ((after c runV).dev.tile 3).bytes 0x1000 6 = [0x80, 0x3F, 0x00, 0xC0, 0, 0] := by decide +kernel
theorem test_epRd :
    let c := Instr.epRd 3 0 (wV 0x67 4 2 0 0 0)
    vec c runV (wV 0x67 4 2 0 0 0) [2] = true ∧ (runV.dev.tile 3).slotBad 3 = none ∧ lanesOf (after c runV) 4 2 = [0x40400000, 0] := by decide +kernel
theorem test_epWr :
    let c := Instr.epWr 3 0 (wV 0x68 2 0 0 0 0)
    vec c runV (wV 0x68 2 0 0 0 0) [2] = true ∧ ((after c runV).dev.tile 3).tags = [] ∧ ((after c runV).dev.tile 3).stored 3 64 = 0x3F800000 ∧
    ((after c runV).dev.tile 3).stored 3 0 = 0 := by decide +kernel
theorem test_epCvt :
    let c := Instr.epCvt 3 0 (wV 0x69 1 2 0 0 6)
    vec c runV (wV 0x69 1 2 0 0 6) [2, 1, 0, 0] = true ∧ runV.dev.spansFault 3 0 (vecSpans 0x1000 6 256) = none ∧ (runV.dev.tile 3).spansBad 0 (vecSpans 0x1000 6 256) = none ∧
    ((after c runV).dev.tile 3).bytes 0x1000 4 = [0x40, 0x40, 0, 0] := by decide +kernel
theorem test_epL2 :
    let c := Instr.epL2 3 0 (wV 0x6A 8 2 0 4 0)
    vec c runV (wV 0x6A 8 2 0 4 0) [2, 4] = true ∧ lanesOf (after c runV) 8 2 = [0, 0x40000000] := by decide +kernel
theorem test_vtag :
    let c := Instr.vtag 3 0 (wV 0x6B 7 2 0 0 0)
    vec c runV (wV 0x6B 7 2 0 0 0) [7, 2] = true ∧ ((after c runV).dev.half 3 0).reg 7 = 1 := by decide +kernel
theorem test_vtopk :
    let c := Instr.vtopk 3 0 (wV 0x6E 6 2 0 0 (0 + 64 + 128))
    vec c runV (wV 0x6E 6 2 0 0 (0 + 64 + 128)) [6, 2, 0] = true ∧ runV.dev.spansFault 3 0 [(0x200, 512)] = none ∧ (runV.dev.tile 3).spansBad 0 [(0x200, 512)] = none ∧
    ((after c runV).dev.tile 3).bytes 0x200 8 = [0, 0, 0x40, 0x40, 0, 0, 0x80, 0xFF] ∧ ((after c runV).dev.tile 3).bytes 0x300 5 = [0, 0, 0, 0, 0xFF] := by decide +kernel

/-- Format AM: opcode, the registers of shape, activations, weights, strides and masks, FL (06 Table 1). -/
def wA (o sh ar wr ds xr fl : Nat) : W64 := wR o sh ar wr ds xr fl
/-- Shape 1 × 1 × 2 at slot 3 in s1, activations 1, 2 and weights 3, 1 in BF16 at 0x1000 and 0x2000, strides of 0x100, masks at 0x3000. -/
def halfA : HalfState := { half0 with sregs := [(1, 0x0003000100000000), (2, 0x1000), (3, 0x2000), (4, 0x0000010000000100), (5, 0x0000300000003000)] }
def runA : State := at' { tiles := [(3, { h0 := halfA, acc := [(768, 0x3F800000)], tmem := [(0x1000, 0x80), (0x1001, 0x3F), (0x1003, 0x40), (0x2000, 0x40), (0x2001, 0x40), (0x2002, 0x80), (0x2003, 0x3F), (0x3000, 1)] })] }
def arr (c : Instr) (w : W64) : Bool :=
  go c runA && ents runA 3 0 w [fA w, fB w, fC w, fD w, fE w] && decide ((runA.dev.half 3 0).queue? .array = []) &&
  !runA.dev.slotWaits 3 0 .array ((runA.dev.half 3 0).entry w) && (!fWV w || decide (runA.dev.rivals 3 0 .array (fWT w) < (runA.dev.half 3 0).token (fWT w))) && decide (amFault 3 runA.dev (runA.dev.half 3 0) ((runA.dev.half 3 0).entry w) = none)
def slot3 (s : State) : W32 := (s.dev.tile 3).stored 3 0

theorem test_mma :
    let w := wA 0x40 1 2 3 4 0 (6 * 8 + 6 * 128)
    arr (.mma 3 0 w) w = true ∧ slot3 (after (.mma 3 0 w) runA) = 0x40C00000 ∧
    slot3 (after (.mma 3 0 (wA 0x40 1 2 3 4 0 (6 * 8 + 6 * 128 + 1))) runA) = 0x40A00000 := by decide +kernel
theorem test_mmaS :
    let w := wA 0x43 1 2 3 4 0 (6 * 8 + 6 * 128)
    arr (.mmaS 3 0 w) w = true ∧ slot3 (after (.mmaS 3 0 w) runA) = 0x40C00000 := by decide +kernel
theorem test_mmaM :
    let w := wA 0x44 1 2 3 4 5 (6 * 8 + 6 * 128)
    arr (.mmaM 3 0 w) w = true ∧ slot3 (after (.mmaM 3 0 w) runA) = 0x40C00000 := by decide +kernel
theorem test_mmaX :
    let w := wA 0x41 1 2 3 4 0 (8 * 8 + 8 * 128)
    let x := wA 0x42 1 2 3 4 0 (8 * 8 + 8 * 128)
    arr (.mmaX2 3 0 w) w = true ∧ arr (.mmaX3 3 0 x) x = true := by decide +kernel
theorem test_dist :
    let w := wA 0x45 1 2 3 4 0 (6 * 8 + 6 * 128)
    let m := wA 0x45 1 2 3 4 0 (6 * 8 + 6 * 128 + 2 * 2048)
    arr (.dist 3 0 w) w = true ∧ slot3 (after (.dist 3 0 w) runA) = 0x40800000 ∧ slot3 (after (.dist 3 0 m) runA) = 0 := by decide +kernel
theorem test_wld :
    let w := wA 0x47 1 0 3 4 0 (6 * 128)
    arr (.wld 3 0 w) w = true ∧ ((mapGet ([], []) ((after (.wld 3 0 w) runA).dev.tile 3).stage 0).1).take 4 = [0x40, 0x40, 0x80, 0x3F] ∧
    ((after (.wld 3 0 w) runA).dev.half 3 0).stage = some (6, 1, 2) ∧ slot3 (after (.wld 3 0 w) runA) = 0x3F800000 := by decide +kernel
theorem test_wl :
    let w := wA 0x46 2 0 0 0 0 (6 * 8 + 1)
    go (.wl 3 0 w) runA = true ∧ iss runA 3 0 w [2] = true ∧ wlFault 3 runA.dev halfA (halfA.entry w) = none ∧
    ((after (.wl 3 0 w) runA).dev.tile 3).bytes (winBuf + 0x200) 4 = [0x80, 0x3F, 0, 0x40] ∧ ((after (.wl 3 0 w) runA).dev.half 3 0).winFmt = [(1, 6)] := by decide +kernel
theorem test_array_faults :
    let w := wA 0x40 2 2 3 4 0 (6 * 8 + 6 * 128)
    let l := wA 0x46 2 0 0 0 0 (8 * 8 + 1)
    iss runA 3 0 w [2, 2, 3, 4, 0] = true ∧ amFault 3 runA.dev halfA (halfA.entry w) = some (fltShape, 0) ∧ flag (after (.mma 3 0 w) runA) (evTil 3 0) fltShape = true ∧
    iss runA 3 0 l [2, 0, 0, 0, 0] = true ∧ wlFault 3 runA.dev halfA (halfA.entry l) = some (fltShape, 0) := by decide +kernel

/-- An entry of a queue, and a half whose queues each hold one. -/
def qe (w : W64) (started : Bool) : QEntry := { seq := 0, pc := 4, bank := 0, word := w, go := true, ops := [], started := started }
def wMv : W64 := wI 0x20 0 1 5
def halfQ : HalfState := { half0 with sregs := [(1, 0x1000)], nextSeq := 1, aq := [qe (wA 0x40 1 2 3 4 0 0x330) true], vq := [qe (wV 0x60 4 1 2 0 0) true], mq := [qe wMv false] }
theorem test_queued :
    let s := onTile halfQ
    let full := onTile { halfQ with vq := List.replicate 32 (qe 0 true), aq := List.replicate 16 (qe 0 true), mq := List.replicate 32 (qe 0 true) }
    let v := wV 0x61 4 1 0 0 0
    go (.vfn 3 0 v) s = true ∧ iss s 3 0 v [] = true ∧ vecFault 3 s.dev halfQ (halfQ.entry v) = none ∧
    ((after (.vfn 3 0 v) s).dev.half 3 0).vq = halfQ.vq ++ [halfQ.entry v] ∧ after (.vfn 3 0 v) full = full ∧
    go (.mv 3 0 wMv) s = true ∧ iss s 3 0 wMv [1] = true ∧ mvFault 3 0 s.dev halfQ (halfQ.entry wMv) = none ∧
    ((after (.mv 3 0 wMv) s).dev.half 3 0).mq = halfQ.mq ++ [halfQ.entry wMv] ∧ after (.mv 3 0 wMv) full = full := by decide +kernel
theorem test_queued_array :
    let s := at' { runA.dev with tiles := [(3, { h0 := { halfA with aq := halfQ.aq } })] }
    let w := wA 0x40 1 2 3 4 0 (6 * 8 + 6 * 128)
    go (.mma 3 0 w) s = true ∧ amFault 3 s.dev (s.dev.half 3 0) ((s.dev.half 3 0).entry w) = none ∧ ((after (.mma 3 0 w) s).dev.half 3 0).aq.length = 2 ∧
    ((after (.mma 3 0 w) s).dev.half 3 0).stage = some (6, 1, 2) := by decide +kernel

theorem test_queueStart :
    let s := onTile halfQ
    let off := onTile { halfQ with mq := [{ qe (signals 4 wMv) false with go := false }] }
    let v := onTile { halfQ with vq := [qe (wV 0x61 4 1 0 0 1) false], vregs := [(64, 0x3F800000)] }
    go (.queuedInstructionStart 3 0 .vector) s = true ∧ s.dev.ready 3 0 .vector = none ∧ after (.queuedInstructionStart 3 0 .vector) s = s ∧
    s.dev.ready 3 0 .movement = some (qe wMv false) ∧ ((after (.queuedInstructionStart 3 0 .movement) s).dev.half 3 0).mq = [] ∧
    (((after (.queuedInstructionStart 3 0 .movement) s).dev.tile 3).chans.map (fun e => (e.1, e.2.length))) = [(5, 1)] ∧
    ((after (.queuedInstructionStart 3 0 .movement) off).dev.half 3 0).sigs.map (fun p => (p.tok, p.source)) = [(4, 3)] ∧
    v.dev.ready 3 0 .vector = some (qe (wV 0x61 4 1 0 0 1) false) ∧ ((after (.queuedInstructionStart 3 0 .vector) v).dev.half 3 0).lane 4 0 = 0xBF800000 := by decide +kernel
theorem test_queueComplete :
    let s := onTile { halfQ with vq := [qe (signals 4 0) true] }
    go (.instructionComplete 3 0 (.queue .vector)) s = true ∧ ((after (.instructionComplete 3 0 (.queue .vector)) s).dev.half 3 0).vq = [] ∧
    ((after (.instructionComplete 3 0 (.queue .vector)) s).dev.half 3 0).sigs.map (fun p => (p.tok, p.source)) = [(4, 2)] := by decide +kernel
theorem test_tokenSignal :
    let p : PendSig := { tok := 2, seq := 0, pc := 4, bank := 0, word := 9, source := 2 }
    let s := onTile { half0 with sigs := [p] }
    let f := onTile { half0 with sigs := [p], tokens := [(2, 255)] }
    go (.tokenSignal 3 0 2) s = true ∧ (after (.tokenSignal 3 0 2) s).dev.half 3 0 = { half0 with tokens := [(2, 2)] } ∧
    ((after (.tokenSignal 3 0 2) f).dev.half 3 0).token 2 = 255 ∧ ((after (.tokenSignal 3 0 2) f).dev.half 3 0).fault.map (fun x => (x.cls, x.seq, x.word)) = some (fltIllegal, 0, 9) := by decide +kernel

/-! ## Global operations, movement, tasks and tile registers -/

/-- A half whose s1 is an address of this part's HBM, s2 a datum, s6 another node's. -/
def halfG : HalfState := { half0 with sregs := [(1, 0x40), (2, 0x55), (3, 0x42), (6, 0x100000000040)] }
theorem test_global_issue :
    let s := onTile halfG
    let ld := wR 0x21 5 1 0 0 0 1
    let st := wR 0x22 0 1 2 0 0 1
    let at0 := wR 0x23 5 1 2 0 0 8
    let sg := wR 0x23 5 1 2 0 0 13
    go (.ldg 3 0 ld) s = true ∧ iss s 3 0 ld [5, 1] = true ∧ halfG.globsFull = false ∧ s.dev.globFault 3 0 8 .read true ld halfG = none ∧ s.dev.globAddr true 0x40 = (0xFFFFF, 0x40) ∧
    ((after (.ldg 3 0 ld) s).dev.half 3 0).globs.map (fun g => (g.dst, g.status, g.value)) = [(5, some 0, 0)] ∧
    go (.stg 3 0 st) s = true ∧ iss s 3 0 st [1, 2] = true ∧ (after (.stg 3 0 st) s).dev.mem.hbm = [(0x40, 0x55)] ∧
    go (.atom 3 0 at0) s = true ∧ iss s 3 0 at0 [5, 1, 2, 0] = true ∧ (after (.atom 3 0 at0) s).dev.mem.hbm = [(0x40, 0x55)] ∧
    go (.atomSig 3 0 sg) s = true ∧ ((after (.atomSig 3 0 sg) s).dev.half 3 0).globs.length = 1 := by decide +kernel
theorem test_global_held :
    let g (n : Nat) : GlobOp := { idx := n, kind := .load false, dst := 9, node := 1, loc := 0, x := 0, c := 0, seq := 0, pc := 0, bank := 0, word := 0, sig := none, sent := true }
    let full := onTile { halfG with globs := (List.range 16).map g, nextIdx := 16 }
    let ld := wR 0x21 5 1 0 0 0 1
    let odd := wR 0x21 5 3 0 0 0 1
    iss full 3 0 ld [5, 1] = true ∧ (full.dev.half 3 0).globsFull = true ∧ after (.ldg 3 0 ld) full = full ∧
    iss (onTile halfG) 3 0 odd [5, 3] = true ∧ flag (after (.ldg 3 0 odd) (onTile halfG)) (evTil 3 0) fltMemRange = true := by decide +kernel
theorem test_global_complete :
    let g (k : GlobKind) (st : Nat) : GlobOp := { idx := 7, kind := k, dst := 5, node := 1, loc := 0, x := 0, c := 0, seq := 0, pc := 0, bank := 0, word := 0, sig := some 4, sent := true, status := some st, value := 0xFFFFFFFF00000001 }
    let s (k : GlobKind) (st : Nat) := onTile { half0 with globs := [g k st] }
    let c := Instr.instructionComplete 3 0 (.global 7)
    go c (s (.load false) stOk) = true ∧ ((after c (s (.load false) stOk)).dev.half 3 0).reg 5 = 0xFFFFFFFF00000001 ∧
    ((after c (s (.load true) stOk)).dev.half 3 0).reg 5 = 1 ∧ ((after c (s (.load true) stOk)).dev.half 3 0).sigs.map (fun p => (p.tok, p.source)) = [(4, 4)] ∧
    ((after c (s (.store false) stOk)).dev.half 3 0).globs = [] ∧ flag (after c (s (.load false) stRefused)) (evTil 3 0) fltRemote = true ∧ stRefused ≠ stOk ∧ stRefused ≠ stMemError := by decide +kernel

/-- A fill of 8 bytes of tile memory at 0x100 with the pattern of its SRC, or of operation 3, which is reserved. -/
def fillDesc (op : Nat) : List Byte := leBytes 4 (op + 128) ++ leBytes 4 8 ++ leBytes 8 0x0807060504030201 ++ leBytes 8 (tileBase + 3 * tileSpan + 0x100) ++ leBytes 4 1 ++ leBytes 4 1 ++ leBytes 32 0
def mvOne (run : Bool) (desc : List Byte) : MvEntry := { half := 0, seq := 0, pc := 4, bank := 0, word := wMv, addr := 0x1000, sig := some 4, run := run, desc := desc }
def moving (op : Nat) (e : MvEntry) : State :=
  at' { tiles := [(3, { h0 := half0, chans := [(5, [e])], tmem := ((fillDesc op).zipIdx.filter (fun x => x.1 != 0)).map (fun x => (0x1000 + x.2, x.1)) })] }
theorem test_moveDescriptor :
    let s := moving 1 (mvOne false [])
    let b := moving 3 (mvOne false [])
    go (.moveDescriptor 3 5) s = true ∧ s.dev.rangeFault 3 0 0x1000 64 = none ∧ (s.dev.tile 3).badIn 0x1000 64 = none ∧ (s.dev.tile 3).bytes 0x1000 64 = fillDesc 1 ∧
    (mvDesc (fillDesc 1)).bad = false ∧ ((after (.moveDescriptor 3 5) s).dev.tile 3).bytes 0x100 9 = [1, 2, 3, 4, 5, 6, 7, 8, 0] ∧
    (mvDesc (fillDesc 3)).bad = true ∧ flag (after (.moveDescriptor 3 5) b) (evTil 3 0) fltMemRange = true ∧ ((after (.moveDescriptor 3 5) b).dev.tile 3).tmem = (b.dev.tile 3).tmem := by decide +kernel
theorem test_moveComplete :
    let s := moving 1 (mvOne true (fillDesc 1))
    let n := moving 1 (mvOne false [])
    go (.moveDescriptorComplete 3 5) s = true ∧ (mvDesc (fillDesc 1)).sig = false ∧ mapGet [] ((after (.moveDescriptorComplete 3 5) s).dev.tile 3).chans 5 = [] ∧
    ((after (.moveDescriptorComplete 3 5) s).dev.half 3 0).sigs.map (fun p => (p.tok, p.source)) = [(4, 3)] ∧ after (.moveDescriptorComplete 3 5) n = n := by decide +kernel

theorem test_tile_registers :
    let fr := onTile { halfQ with mode := .frozen, fault := some { cls := 0, source := 0, channel := 0, seq := 0, pc := 0, bank := 0, word := 0, detail := 0, time := 0, precise := true } }
    go (.tilHalt (.func 0) 3 4) run0 = true ∧ (after (.tilHalt (.func 0) 3 4) run0).dev.half 3 0 = { half0 with halting := true } ∧ (after (.tilHalt (.func 0) 3 4) run0).dev.half 3 1 = {} ∧
    go (.tilRelease (.func 0) 3 0 1) fr = true ∧ (after (.tilRelease (.func 0) 3 0 1) fr).dev.half 3 0 = { halfQ with mode := .idle, tokens := [], aq := [], vq := [], mq := [] } ∧
    (after (.tilRelease (.func 0) 3 0 1) run0).dev.tiles = run0.dev.tiles ∧
    go (.tilDoorbell (.func 0) 3 0 7) run0 = true ∧ (after (.tilDoorbell (.func 0) 3 0 7) run0).dev.half 3 0 = { half0 with doorbell := 7 } := by decide +kernel
theorem test_modeChange :
    let s := at' { tiles := [(3, { tileV with h0 := {} })], regs := { words := [(offTil 3 + 4, 2)] } }
    go (.modeChange 3 true) s = true ∧ (s.dev.word (offTil 3 + 4)).getLsbD 1 = true ∧ ((after (.modeChange 3 true) s).dev.tile 3).twin = true ∧ ((after (.modeChange 3 true) s).dev.tile 3).acc = tileV.acc ∧
    after (.modeChange 3 true) run0 = run0 := by decide +kernel

/-- A tile task: ENTRY 9, parameters 1 to 8, no kernel and no operands to copy. -/
def tileTask : List Byte := leBytes 4 0 ++ leBytes 4 (9 * 65536) ++ leBytes 8 77 ++ leBytes 48 0 ++ (List.range 8).flatMap (fun i => leBytes 8 (i + 1))
def task5 : Task := { queue := 5, desc := tileTask }
theorem test_preload :
    let s := at' (fe0.modEngine 6 (fun e => { e with draught := some task5 }))
    go (.draughtPreloadDone (.tile 3 0)) s = true ∧ s.dev.bankTaken 3 (tdTwin tileTask) (8 * tdKlen tileTask) = false ∧ (s.dev.loadKernel 3 0 task5).1 = true ∧
    ((s.dev.loadKernel 3 0 task5).2.loadOperands 3 0 task5).1 = true ∧ ((after (.draughtPreloadDone (.tile 3 0)) s).dev.engine 6).loaded = true ∧
    ((after (.draughtPreloadDone (.tile 3 0)) s).dev.half 3 0).drStat = 2 := by decide +kernel
theorem test_taskStart :
    let s := at' ((fe0.modEngine 6 (fun e => { e with draught := some task5, loaded := true })).modHalf 3 0 (fun x => { x with drKernel := true, drStat := 2 }))
    go (.bankExchange 3 0) s = true ∧ s.dev.mayStart 3 0 task5 = true ∧ (after (.bankExchange 3 0) s).dev.half 3 0 = { drStat := 2, bank := 1 } ∧
    go (.taskStart 3 0) s = true ∧ (s.dev.startCopies 3 0 task5).1 = true ∧
    ((after (.taskStart 3 0) s).dev.half 3 0).mode = .run ∧ ((after (.taskStart 3 0) s).dev.half 3 0).pc = 9 ∧ ((after (.taskStart 3 0) s).dev.half 3 0).sregs = [(1, 1), (2, 2), (3, 3), (4, 4), (5, 5), (6, 6), (7, 7), (8, 8)] ∧
    ((after (.taskStart 3 0) s).dev.engine 6).running.map (fun k => k.queue) = some 5 := by decide +kernel
/-- A half of queue 5 that runs its task, in one way or another. -/
def onTask (x : HalfState) : State := at' ((fe0.modEngine 6 (fun e => { e with running := some task5 })).modHalf 3 0 (fun _ => x))
theorem test_taskFinish :
    let s := onTask { half0 with ended := some 0 }
    go (.taskFinish 3 0) s = true ∧ s.dev.taskOver 3 0 = true ∧ ((after (.taskFinish 3 0) s).dev.half 3 0).mode = .idle ∧
    ((after (.taskFinish 3 0) s).dev.engine 6).running = none ∧ ((after (.taskFinish 3 0) s).dev.cq 2).map (fun c => c.writing.map (fun p => (p.entry.status, p.entry.tag))) = some [(0, 77)] ∧
    (onTask half0).dev.taskOver 3 0 = false := by decide +kernel
def illegalAt4 : FaultInfo := { cls := fltIllegal, source := 0, channel := 0, seq := 0, pc := 4, bank := 0, word := 0, detail := 0, time := 0, precise := true }
theorem test_halfFrozen :
    let s := onTask { half0 with fault := some illegalAt4 }
    go (.halfFrozen 3 0 ⟨0, []⟩) s = true ∧ ((after (.halfFrozen 3 0 ⟨0, []⟩) s).dev.half 3 0).mode = .frozen ∧ ((after (.halfFrozen 3 0 ⟨0, []⟩) s).dev.engine 6).running = none ∧
    ((after (.halfFrozen 3 0 ⟨0, []⟩) s).dev.cq 2).map (fun c => c.writing.map (fun p => p.entry.status)) = some [0x100] := by decide +kernel
theorem test_halfStopped :
    let s := onTask { half0 with halting := true }
    go (.halfStopped 3 0 ⟨0, []⟩) s = true ∧ s.dev.taskOver 3 0 = false ∧ ((after (.halfStopped 3 0 ⟨0, []⟩) s).dev.half 3 0).mode = .stopped ∧
    flag (after (.halfStopped 3 0 ⟨0, []⟩) s) (evTil 3 0) 8 = true ∧ ((after (.halfStopped 3 0 ⟨0, []⟩) s).dev.cq 2).map (fun c => c.writing.map (fun p => p.entry.status)) = some [0x108] := by decide +kernel
theorem test_tileWindow :
    let w : Who := { kind := .engine, node := 0xFFFFF, endpoint := 196, owner := 0xFF }
    let s := at' { tiles := [(3, { tmem := [(0x10, 9)] })] }
    go (.tileWindowAccess w 3 0x10 (.read 4)) s = true ∧ (after (.tileWindowAccess w 3 0x10 (.read 4)) s).dev.out = [.access w 0 [9, 0, 0, 0]] := by decide +kernel

/-! ## Memory, the vats, the churn and breeze units -/

def own : Who := { kind := .engine, node := 0xFFFFF, endpoint := 12, owner := 0 }
def memS : State := at' { mem := { hbm := [(0x100, 5)] } }
def answer (t : State) : Option (Nat × List Byte) := match t.dev.out with
  | .access _ st bs :: _ => some (st, bs)
  | _ => none
def clear (s : State) (op : MemOp) (a n : Nat) : Bool :=
  decide (s.dev.rowRefused own (opWant op) ((List.range n).map (fun i => a + i)) = none) && decide (s.dev.bucketMeets a ((List.range n).map (fun i => a + i)) = .none) &&
  decide ((List.range n).all (fun i => (s.dev.sealedFresh ((a + i) / 64)).isNone && !s.dev.mem.bad.contains ((a + i) / 64)))
theorem test_memoryAccess :
    let c (a : W64) (op : MemOp) := Instr.memoryAccess own a op .clean
    go (c 0x100 (.read 2)) memS = true ∧ clear memS (.read 2) 0x100 2 = true ∧ answer (after (c 0x100 (.read 2)) memS) = some (stOk, [5, 0]) ∧
    clear memS (.write [0, 7]) 0x100 2 = true ∧ (after (c 0x100 (.write [0, 7])) memS).dev.mem.hbm = [(0x101, 7)] ∧
    clear memS (.atomic .add 3 0) 0x100 8 = true ∧ (after (c 0x100 (.atomic .add 3 0)) memS).dev.mem.hbm = [(0x100, 8)] ∧ answer (after (c 0x100 (.atomic .add 3 0)) memS) = some (stOk, [5, 0, 0, 0, 0, 0, 0, 0]) ∧
    answer (after (c 0x104 (.atomic .add 3 0)) memS) = some (stRefused, []) ∧ hbmKeys (hbmSize - 1) 2 = none ∧ answer (after (c 0x9FFFFFFFFF (.read 2)) memS) = some (stRefused, []) := by decide +kernel
theorem test_interleaving : granOf 0x100 = (0, 0, 0) ∧ interOf 1 0x400 = 0x2400 ∧ stackOff 0x2400 = 0x400 ∧ (granOf 0x2400).1 = 1 := by decide +kernel
theorem test_memoryErrors :
    let s := at' { mem := { bad := [4] } }
    let c := Instr.memoryAccess own 0x100 (.read 2) .clean
    let p := Instr.patrolScrub 0 ⟨[(0x40, .uncorrectable)], 0x1000⟩
    let on := at' { regs := { words := [(0x2000000, 1)] } }
    go c s = true ∧ clear memS (.read 2) 0x100 2 = true ∧ (blocksOf [0x100, 0x101]).find? (fun b => s.dev.mem.bad.contains b) = some 4 ∧ answer (after c s) = some (stMemError, []) ∧
    ((after c s).dev.stack 0).ueCnt = 1 ∧ ((after c s).dev.stack 0).errAddr = 0x100 ∧
    go p on = true ∧ (on.dev.word 0x2000000).getLsbD 0 = true ∧ (after p on).dev.mem.bad = [1] ∧ ((after p on).dev.stack 0).ueCnt = 1 ∧
    ((after p on).dev.stack 0).scrubAt = 0x1000 ∧ ((after (.patrolScrub 0 ⟨[], stackSize⟩) (after p on)).dev.stack 0).scrubAt = 0 ∧
    (after (.patrolScrub 0 ⟨[], 0x800⟩) (after p on)) = after p on := by decide +kernel

def withStack (m : StackMem) : State := at' { mem := { hbmStacks := [(2, m)] } }
theorem test_retire :
    let c := Instr.retire (.func 0) 2 (3 * 32 + 1)
    let out : StackMem := { remap := (List.range 256).map (fun i => (granKey 1 (100 + i), (i, 0))) }
    go c (withStack {}) = true ∧ ((after c (withStack {})).dev.stack 2).work = some (.retire 1 3) ∧ ((after c (withStack { status := .busy })).dev.stack 2) = { status := .busy } ∧
    ((after c (withStack { remap := [(granKey 1 3, (0, 0))] })).dev.stack 2).status = .done ∧
    out.spare 1 = none ∧ ((after c (withStack out)).dev.stack 2).status = .refused ∧ flag (after c (withStack out)) (evMem 2) 4 = true := by decide +kernel
theorem test_release :
    let c := Instr.release (.func 0) 2 (0x8000000 + 3 * 32 + 1)
    let p := Instr.sppr (.func 0) 2 (0x10000000 + 3 * 32 + 1)
    let m : StackMem := { remap := [(granKey 1 3, (0, 0))] }
    go c (withStack m) = true ∧ ((after c (withStack m)).dev.stack 2).work = some (.release 1 3) ∧ ((after c (withStack {})).dev.stack 2).status = .refused ∧
    go p (withStack m) = true ∧ (withStack m).dev.stack 2 = m ∧ ((after p (withStack m)).dev.stack 2).pprBusy = true := by decide +kernel
theorem test_retirementComplete :
    let c := Instr.retirementComplete 2
    let m : StackMem := { status := .busy, work := some (.retire 1 3) }
    go c (withStack m) = true ∧ m.spare 1 = some 0 ∧ ((after c (withStack m)).dev.stack 2).remap = [(granKey 1 3, (0, 0))] ∧ flag (after c (withStack m)) (evMem 2) 2 = true ∧
    ((after c (withStack { m with remap := [(granKey 1 3, (0, 0))], work := some (.release 1 3) })).dev.stack 2).remap = [] ∧
    go (.pprComplete 2 true) (withStack { pprBusy := true }) = true ∧ flag (after (.pprComplete 2 true) (withStack { pprBusy := true })) (evMem 2) 5 = true := by decide +kernel
theorem test_lost :
    let m : StackMem := { remap := [(granKey 1 3, (0, 0)), (granKey 1 5, (1, 2)), (granKey 2 1, (0, 1))] }
    go (.lostFirst (.func 0) 2) (withStack m) = true ∧ ((after (.lostFirst (.func 0) 2) (withStack m)).dev.stack 2).lostSel = some (granKey 1 5) ∧ go (.lostNext (.func 0) 2) (withStack m) = true ∧
    ((after (.lostNext (.func 0) 2) (withStack { m with lostSel := some (granKey 1 5) })).dev.stack 2).lostSel = some (granKey 2 1) := by decide +kernel

/-- A bucket of stack 0 with two FP32 elements at 0x2000, its intake at 0x3000, its roster at 0x4000, of one contributor, this node. -/
def bk (m : BucketMode) : Bucket := { mode := m, f32 := true, dl := false, x := -20, elems := 2, nc := 1, nodeBase := 0xFFFFF, data := 0x2000, intake := 0x3000, roster := 0x4000, deadline := 0, notify := 0 }
def vats (l : MapOf Bucket) (v : VatState) (hbm : MapOf Byte) : State :=
  at' { regs := { words := [(offVat 0, 0x1000), (offVat 0 + 8, 4)] }, mem := { hbm := hbm }, eng := { buckets := l, vats := [(0, v)] } }
def bEntry (z : Nat) : List Byte := leBytes 4 (1 + 4 * z) ++ leBytes 2 0xFFEC ++ leBytes 2 0 ++ leBytes 4 2 ++ leBytes 4 1 ++ leBytes 4 0xFFFFF ++ leBytes 4 0 ++ leBytes 8 0x2000 ++ leBytes 8 0x3000 ++ leBytes 8 0x4000 ++ leBytes 16 0
def bytesAt (s a : Nat) (bs : List Byte) : MapOf Byte := bs.zipIdx.foldl (fun m x => mapSet 0 m (interOf s (a + x.2)) x.1) []
def open1 (z : Nat) (v : VatState) : State := vats [] v (bytesAt 0 0x1080 (bEntry z))
theorem test_bucketOpen :
    let c := Instr.bucketOpen (.func 0) 0 1
    let s := open1 0 {}
    let d := s.dev.dropShadow (.func 0)
    go c s = true ∧ s.dev.bucket 0 1 = none ∧ s.dev.vatLen 0 = 4 ∧ (d.stackRead 0 (d.bucketOff 0 1) 64).1 = some (bEntry 0) ∧ malformedEntry (bEntry 0) (bucketOf (bEntry 0)) = false ∧
    bucketOf (bEntry 0) = bk .opened ∧ (after c s).dev.bucket 0 1 = some (bk .opened) ∧ ((after c s).dev.vat 0).status = 2 ∧
    ((after c (open1 1 {})).dev.vat 0).status = 1 ∧ after c (open1 0 { status := 1 }) = { (open1 0 { status := 1 }) with dev := (open1 0 { status := 1 }).dev.dropShadow (.func 0) } := by decide +kernel
def reason (t : State) : Nat × Nat := ((t.dev.vat 0).status, (t.dev.vat 0).reason)
theorem test_bucketOpen_refused :
    let c := Instr.bucketOpen (.func 0) 0 1
    let tooMany : Bucket := { bk .opened with nc := 2 }
    reason (after c (vats [(1, bk .opened)] {} (bytesAt 0 0x1080 (bEntry 0)))) = (3, 1) ∧ reason (after c (vats [] {} [])) = (3, 2) ∧
    reason (after (.bucketOpen (.func 0) 0 4) (vats [] {} [])) = (3, 5) ∧ reason (after c (vats [(2, tooMany)] {} (bytesAt 0 0x1080 (bEntry 0)))) = (3, 4) ∧
    reason (after c { (vats [] {} []) with dev := { (vats [] {} []).dev with mem := { bad := [(interOf 0 0x1080) / 64] } } }) = (3, 2) ∧
    go (.bucketCmdReserved (.func 0) 0 1) (vats [] {} []) = true ∧ reason (after (.bucketCmdReserved (.func 0) 0 1) (vats [] {} [])) = (3, 6) := by decide +kernel
theorem test_bucketClose :
    let c := Instr.bucketClose (.func 0) 0 1
    let r := Instr.bucketRelease (.func 0) 0 1
    go c (vats [(1, bk .opened)] {} []) = true ∧ (after c (vats [(1, bk .opened)] {} [])).dev.bucket 0 1 = some (bk .closing) ∧ reason (after c (vats [] {} [])) = (2, 0) ∧
    go r (vats [(1, bk .final)] {} []) = true ∧ (vats [(1, bk .final)] {} []).dev.churnUses 0 1 = false ∧ (after r (vats [(1, bk .final)] {} [])).dev.bucket 0 1 = none ∧ reason (after r (vats [] {} [])) = (3, 1) := by decide +kernel

/-- The address of the intake of bucket 1, and a marker of this node with weight 3. -/
def mark3 : W64 := 0x000FFFFF00000003
def bOf (t : State) : Option Bucket := t.dev.bucket 0 1
theorem test_endMarker :
    let c := Instr.endMarker own 0 0x3000 mark3
    let s (k : Bucket) := vats [(1, k)] {} []
    go c (s (bk .opened)) = true ∧ (s (bk .opened)).dev.vatHit 0 0x3000 8 = .intake 1 ∧ (s (bk .opened)).dev.rowRefused own .write ((List.range 8).map (fun i => interOf 0 (0x3000 + i))) = none ∧
    (bk .opened).inRange own.node = true ∧ bitsN mark3.toNat 51 32 = own.node ∧ bitsN mark3.toNat 63 52 = 0 ∧
    bOf (after c (s (bk .opened))) = some { bk .opened with marks := [0], nrecv := 1, w := 3 } ∧
    bOf (after c (s { bk .opened with marks := [0] })) = some { bk .opened with marks := [0], surplus := 1 } ∧
    bOf (after c (s (bk .closing))) = some { bk .closing with flags := 64, late := 1 } ∧
    bOf (after c (s (bk .zeroing))) = some { bk .zeroing with held := [(.marker 0xFFFFF mark3, 0)] } ∧
    ((after c (s { bk .opened with nodeBase := 0 })).dev.vat 0).refused = 1 := by decide +kernel
theorem test_contributionData :
    let bs : List Byte := [0, 0, 0x80, 0x3F]
    let c := Instr.contributionData own 0 0x3044 bs
    let s (k : Bucket) := vats [(1, k)] {} []
    go c (s (bk .opened)) = true ∧ (s (bk .opened)).dev.vatHit 0 0x3044 4 = .intake 1 ∧ (bOf (after c (s (bk .opened)))).map (fun k => (k.seen, k.marks, k.maxexp)) = some ([0], [], 0) ∧
    mapGet 0 (after c (s (bk .opened))).dev.mem.hbm (interOf 0 0x200A) = 0x10 ∧
    bOf (after c (s { bk .opened with marks := [0] })) = some { bk .opened with marks := [0], surplus := 1 } ∧
    bOf (after c (s (bk .zeroing))) = some { bk .zeroing with held := [(.data 0xFFFFF 1 bs, 0)] } := by decide +kernel
theorem test_bucketEvents :
    let s (k : Bucket) := locked (vats [(1, k)] {} []) 9
    let due := { bk .opened with dl := true, deadline := 9 }
    go (.zeroingDone 0 1) (s (bk .zeroing)) = true ∧ bOf (after (.zeroingDone 0 1) (s (bk .zeroing))) = some (bk .opened) ∧
    go (.bucketDeadline 0 1) (s due) = true ∧ (s due).dev.releasing = true ∧ (s due).dev.due 9 = true ∧ (bOf (after (.bucketDeadline 0 1) (s due))).map (fun k => (k.mode, k.closeFt)) = some (.closing, 9) ∧
    after (.bucketDeadline 0 1) (s { due with deadline := 10 }) = s { due with deadline := 10 } ∧
    go (.bucketFinal 0 1) (s (bk .closing)) = true ∧ (bOf (after (.bucketFinal 0 1) (s { bk .closing with seen := [0] }))).map (fun k => (k.mode, k.flags)) = some (.final, 0x12) := by decide +kernel

/-- A churn descriptor of a recipe over one block, its record at 0x9000, bucket 1, step 4, the norm at the first watch word. -/
def churnDesc (recipe : Nat) : List Byte :=
  leBytes 4 recipe ++ leBytes 4 32 ++ leBytes 4 32 ++ leBytes 4 0 ++ leBytes 4 1 ++ leBytes 4 0 ++ leBytes 8 0x10000 ++ leBytes 4 64 ++ leBytes 4 64 ++ leBytes 8 0x11000 ++ leBytes 8 0x12000 ++ leBytes 8 0x13000 ++
  leBytes 8 0x8000 ++ leBytes 4 4 ++ leBytes 4 7 ++ leBytes 8 syncBase ++ leBytes 8 9 ++ leBytes 8 0xA000 ++ leBytes 16 0 ++ leBytes 8 0x9000
/-- A part whose churn unit 0 has a task of queue 5. -/
def churnS (c : ChurnState) (k : Bucket) (w : W64) (hbm : MapOf Byte) : State :=
  let v := (vats [(1, k)] {} hbm).dev
  let f : Dev := fe0.modEngine 168 (fun e => { e with running := some { queue := 5, desc := churnTask 0 } })
  at' { f with regs := { words := mapPut (mapPut f.regs.words (offVat 0) 0x1000) (offVat 0 + 8) 4 }, mem := v.mem, eng := { v.eng with churns := [(0, c)] }, sync := { words := [(0, w)] }, ft := { mode := .locked, now := 8 } }
def churnAt (p : ChurnPhase) : ChurnState := { phase := p, desc := churnDesc 0, who := own, queue := some 5, hyp := some (List.replicate 64 0) }
theorem test_churnStart :
    let s := at' (fe0.modEngine 168 (fun e => { e with draught := some { queue := 5, desc := churnTask 0 } }))
    go (.churnDescriptorStart 0) s = true ∧ s.dev.keepsEntry 168 = false ∧ (s.dev.churn 0).phase = .idle ∧ ((after (.churnDescriptorStart 0) s).dev.churn 0).phase = .ended ∧
    ((after (.churnDescriptorStart 0) s).dev.churn 0).outcome = .malformed ∧ ((after (.churnDescriptorStart 0) s).dev.engine 168).running.map (fun k => k.queue) = some 5 := by decide +kernel
theorem test_churnNorm :
    let s (k : Bucket) (w : W64) := churnS (churnAt .waiting) k w []
    let late := { (s (bk .final) 0x43F800000) with dev := { (s (bk .final) 0x43F800000).dev with ft := { mode := .locked, now := 9 } } }
    go (.churnNormReady 0) (s (bk .final) 0x43F800000) = true ∧ (s (bk .final) 0x43F800000).dev.normHere (churnDesc 0) = true ∧ (s (bk .final) 0x43F800000).dev.releasing = true ∧
    ((after (.churnNormReady 0) (s (bk .final) 0x43F800000)).dev.churn 0).phase = .blocks ∧ ((after (.churnNormReady 0) (s { bk .final with flags := 1 } 0x43F800000)).dev.churn 0).outcome = .bucket ∧
    ((after (.churnNormReady 0) (s (bk .final) 0x47F800000)).dev.churn 0).outcome = .skipped ∧ cdNdl (churnDesc 0) = 9 ∧
    go (.churnNoNorm 0) late = true ∧ ((after (.churnNoNorm 0) late).dev.churn 0).outcome = .noNorm ∧ after (.churnNoNorm 0) (s (bk .final) 0) = s (bk .final) 0 := by decide +kernel
theorem test_churnBlock :
    let done := bytesAt 0 0x9000 (leBytes 8 4 ++ [2])
    let s := churnS (churnAt .blocks) (bk .final) 0 done
    let e := churnS { churnAt .blocks with hyp := none } (bk .final) 0 []
    go (.churnBlock 0) s = true ∧ cdNb (churnDesc 0) = 1 ∧ (s.dev.unitRead own (stackAddr 0 (cdLrec (churnDesc 0))) 32).1 = some (leBytes 8 4 ++ [2] ++ List.replicate 23 0) ∧
    ((after (.churnBlock 0) s).dev.churn 0).block = 1 ∧ ((after (.churnBlock 0) s).dev.churn 0).errs = [] ∧ ((after (.churnBlock 0) e).dev.churn 0).errs = [0] ∧
    after (.churnBlock 0) (churnS { churnAt .blocks with stopAsk := true } (bk .final) 0 []) = churnS { churnAt .blocks with stopAsk := true } (bk .final) 0 [] := by decide +kernel
theorem test_churnMirror :
    let m : MirrorWork := { block := 0, resend := false, status := 0, recordSent := true, acked := true }
    let s (m : MirrorWork) := churnS { churnAt .blocks with mirror := some m } (bk .final) 0 []
    go (.mirrorAck 0) (s m) = true ∧ ((after (.mirrorAck 0) (s m)).dev.churn 0).mirror = none ∧ ((after (.mirrorAck 0) (s m)).dev.churn 0).block = 1 ∧
    go (.mirrorFail 0) (s { m with failed := true }) = true ∧ ((after (.mirrorFail 0) (s { m with failed := true })).dev.churn 0).block = 1 ∧ flag (after (.mirrorFail 0) (s { m with failed := true })) (evChn 0) 6 = true := by decide +kernel
theorem test_lambPairAck :
    let s := churnS { churnAt .blocks with pairSent := true, desc := churnDesc (6 + 64) } (bk .final) 0 []
    go (.lambPairAck 0) s = true ∧ ((after (.lambPairAck 0) s).dev.churn 0).pairDone = true := by decide +kernel
theorem test_churnEnd :
    let s := churnS { churnAt .blocks with block := 1, blocks := 9 } (bk .final) 0 []
    go (.churnDescriptorEnd 0) s = true ∧ (s.dev.churn 0).outcome? = some .ok ∧ (after (.churnDescriptorEnd 0) s).dev.churn 0 = { blocks := 9 } ∧ ((after (.churnDescriptorEnd 0) s).dev.engine 168).running = none ∧
    ((after (.churnDescriptorEnd 0) s).dev.cq 2).map (fun c => c.writing.map (fun p => p.entry.status)) = some [0] ∧ after (.churnDescriptorEnd 0) run0 = run0 := by decide +kernel
theorem test_breeze :
    let s := at' (fe0.modEngine 184 (fun e => { e with draught := some { queue := 5, desc := churnTask 0 } }))
    let t := after (.breezeDescriptor 0) s
    go (.breezeDescriptor 0) s = true ∧ s.dev.keepsEntry 184 = false ∧ (t.dev.engine 184).running.map (fun k => k.queue) = some 5 ∧ (t.dev.breeze 0).outcome = some .malformed ∧
    go (.breezeEnd ⟨0, 0⟩) t = true ∧ ((after (.breezeEnd ⟨0, 0⟩) t).dev.engine 184).running = none ∧ after (.breezeDescriptor 0) run0 = run0 ∧ after (.breezeEnd ⟨0, 0⟩) run0 = run0 := by decide +kernel

/-! ## The step, synchronisation and lull -/

/-- A schedule that places no deadline and names no queue. -/
def noPlan : Schedule := { addr := 0, mainDue := [], fallDue := [], mainQueues := [], fallQueues := [], resend := [] }
/-- A group of one member, this node, its root: one gradient bucket (entries 1, 2) and the norm bucket (5, 6) on stack 0, NORM_WORD the first
watch word, the step record at 0x100. -/
def grp (trust : Bool) : Group :=
  { id := 1, nc := 1, nodeBase := 0xFFFFF, elastic := false, h := 4, nh := 4, redo := 2, root := 0xFFFFF, normPrimary := 5, normAlternate := 6, normStack := 0
    bitmap := [1], normWord := syncBase, plan := [{ owner := 0xFFFFF, stack := 0, primary := 1, alternate := 2, trust := trust, tied := false, tpair := 0x40 }]
    stepRec := 0x100, schedule := noPlan }
/-- A trust bucket and the gradient bucket of its tensor. -/
def trusted : Group := { grp false with plan := (grp true).plan ++ (grp false).plan }
/-- The same with another node as its root. -/
def away : Group := { grp false with root := 0xFFFFE }
def stepOf (g : Group) (f : StepState → StepState) (w : MapOf W64) : State :=
  let v := (vats [] {} []).dev
  at' { v with step := f { group := some g, running := true, fresh := false }, sync := { words := w }, boot := { firmware := true }, ft := { mode := .locked, now := 8 } }
def tried (c : BucketClass) : BucketTry := { final := true, cls := some c, maxexp := 0, x := -20, data := 0x2000, normsq := 0x3F800000 }
def attempt (st : StepState) : StepState := { st with active := true, step := 4, vanes := 1, tries := [(0, tried .clean), (normKey, tried .clean)] }

theorem test_chooseX : chooseX 0 1 4 = -57 ∧ chooseX 0 3 4 = -55 ∧ chooseX (-32768) 3 4 = -149 ∧ grow false 2000 24 16 1999 = (17, 0) ∧ grow false 2000 24 24 1999 = (24, 0) := by decide +kernel
theorem test_attempt :
    let s := stepOf (grp false) id []
    let t := after (.stepAttemptStart) s
    let r := stepOf (grp false) (fun st => { st with outcome := 3 }) []
    let z := stepOf (grp false) (fun st => { st with running := false }) []
    go (.stepAttemptStart) s = true ∧ t.dev.step.active = true ∧ t.dev.step.step = 1 ∧ t.dev.step.tries.map Prod.fst = [0, normKey] ∧ t.dev.step.tries.map (fun e => (e.2.pre, e.2.x)) = [(true, 16383), (true, 16383)] ∧
    mapGet 0 t.dev.mem.hbm 0x104 = 1 ∧ go (.stepReplay) r = true ∧ (after (.stepReplay) r).dev.step.active = true ∧ after (.stepReplay) z = z := by decide +kernel
theorem test_drain :
    let s := stepOf (grp false) (fun st => { attempt st with vanes := 0 }) []
    go (.drainVane) s = true ∧ (after (.drainVane) s).dev.step.vanes = 1 ∧ (after (.drainVane) s).dev.eng = s.dev.eng := by decide +kernel
/-- The bytes of a group record that has no plan. -/
def grpBytes : List Byte := leBytes 4 2 ++ leBytes 4 1 ++ leBytes 4 0xFFFFF ++ [0, 4, 4, 2] ++ leBytes 4 0xFFFFF ++ leBytes 4 0x6005 ++ leBytes 8 0x300 ++ leBytes 8 syncBase ++ leBytes 16 0 ++ leBytes 8 0
theorem test_topology :
    let s0 := stepOf (grp false) id []
    let s := { s0 with dev := { s0.dev with mem := { hbm := grpBytes.zipIdx.foldl (fun m x => mapSet 0 m (0x200 + x.2) x.1) [(0x300, 1)] } } }
    go (.topologyChange ⟨0x200, [], []⟩) s = true ∧ ((s.dev.readGroup 0x200 0x100 noPlan).1.map (fun g => (g.id, g.count, g.plan))) = some (2, 1, []) ∧ (after (.topologyChange ⟨0x200, [], []⟩) s).dev.step.group.map (fun g => g.id) = some 2 ∧
    after (.topologyChange ⟨0x200, [], []⟩) (stepOf (grp false) attempt []) = stepOf (grp false) attempt [] := by decide +kernel
theorem test_reReduction :
    let s (t : BucketTry) := stepOf (grp false) (fun st => { attempt st with tries := [(0, t), (normKey, tried .clean)] }) []
    let last : BucketTry := { tried .redo with further := 2 }
    go (.reReduction) (s (tried .redo)) = true ∧ (attempt {}).vanes = 1 ∧ (grp false).spent 0 (tried .redo) = false ∧ (grp false).entries 0 = some (0, 1, 2) ∧
    mapFind (after (.reReduction) (s (tried .redo))).dev.step.tries 0 = some { alternate := true, further := 1, x := -57 } ∧
    (grp false).spent 0 last = true ∧ (after (.reReduction) (s last)).dev.step.abandoned = true := by decide +kernel
theorem test_normPartial :
    let s0 := stepOf (grp false) attempt []
    let s := { s0 with dev := { s0.dev with eng := { buckets := [(5, bk .opened)], vats := [(0, {})] } } }
    go .normPartial s = true ∧ s.dev.isOwner (grp false) = true ∧ s.dev.releasing = true ∧ s.dev.slipRedo = false ∧ (after .normPartial s).dev.step.partialSent = true ∧
    ((after .normPartial s).dev.bucket 0 5).map (fun k => (k.marks, k.maxexp)) = some ([0], 0) := by decide +kernel
theorem test_normWord :
    let s0 := stepOf (grp false) attempt []
    let s := { s0 with dev := { s0.dev with mem := { hbm := bytesAt 0 0x2002 [0x90] } } }
    let f := stepOf away attempt [(0, 0x440400000)]
    go .normWordPublish s = true ∧ s.dev.step.normSource = some (tried .clean) ∧ (s.dev.normOf (grp false) (tried .clean)).1 = some 0x40400000 ∧
    (after .normWordPublish s).dev.step.normWord = some 0x440400000 ∧ (after .normWordPublish s).dev.sync.words = [(0, 0x440400000)] ∧
    go .normWordForward f = true ∧ hi32 (f.dev.syncAt syncBase) = 4 ∧ (after .normWordForward f).dev.step.normWord = some 0x440400000 := by decide +kernel
theorem test_trustPair :
    let s0 := stepOf trusted attempt []
    let s := { s0 with dev := { s0.dev with mem := { hbm := (bytesAt 0 0x2002 [0x10]) ++ (bytesAt 0 0x200A [0x20]) } } }
    go (.trustPairPublish 0) s = true ∧ s.dev.watchIds = [] ∧ s.dev.vaneIds = [] ∧ (tried .clean).pre = false ∧
    (s.dev.stackRead 0 (tried .clean).data 16).1 = some [0, 0, 0x10, 0, 0, 0, 0, 0, 0, 0, 0x20, 0, 0, 0, 0, 0] := by decide +kernel
/-- Whatever entries a trust bucket's tensor has, their owner is this part. -/
theorem test_trustPair_owners : ∀ o ∈ trusted.tensorOwners 0, o = 0xFFFFF := by
  have key : trusted.tensorOwners 0 = [] ∨ trusted.tensorOwners 0 = [0xFFFFF] := by
    cases h : Config.ofTensor trusted.id 0 1
    · exact .inl (by simp [Group.tensorOwners, trusted, grp, List.zipIdx, List.filter] at h ⊢; simp [h])
    · exact .inr (by simp [Group.tensorOwners, trusted, grp, List.zipIdx, List.filter] at h ⊢; simp [h]; rfl)
  intro o ho
  rcases key with k | k <;> simp_all
theorem test_lambMarker :
    let l : W64 := BitVec.ofNat 64 (0xFFFFF * 2 ^ 44 + stackAddr 0 0x3040)
    let s := stepOf (grp true) (fun st => { attempt st with lambs := [(l, true)] }) []
    go (.lambMarker 0) s = true ∧ gNode l = 0xFFFFF ∧ stackAddr 0 0 ≤ gLoc l ∧ gLoc l < stackAddr 0 stackSpan ∧ s.dev.eng.churns = [] ∧ (after (.lambMarker 0) s).dev.step.lambs = [] := by decide +kernel
theorem test_ownerLockLost :
    let s0 := stepOf (grp false) attempt []
    let s := { s0 with dev := { s0.dev with ft := { mode := .free } } }
    go .ownerLockLost s = true ∧ s.dev.releasing = false ∧ (after .ownerLockLost s).dev.step.lostLock = true ∧ (after .ownerLockLost s).dev.sync.words = [(1, 0x40000000B)] := by decide +kernel
theorem test_crossDomainTimeout :
    let s (k : Bucket) := stepOf (grp false) attempt [] |> fun s0 => { s0 with dev := { s0.dev with eng := { buckets := [(1, k)] } } }
    go (.crossDomainTimeout 0 1) (s (bk .opened)) = true ∧ bOf (after (.crossDomainTimeout 0 1) (s (bk .opened))) = some { bk .closing with flags := 32, closeFt := 8 } ∧
    after (.crossDomainTimeout 0 1) (s (bk .final)) = s (bk .final) := by decide +kernel
theorem test_vote :
    let s := stepOf (grp false) (fun st => { attempt st with satSeen := true }) [(2, 0)]
    let v := stepOf (grp false) (fun st => { attempt st with voted := true }) []
    go .vote s = true ∧ s.dev.churnQuiet = true ∧ s.dev.stepQuiet = true ∧ (after .vote s).dev.step.voted = true ∧ (after .vote s).dev.sync.words = [(2, 0x200001)] ∧ after .vote v = v := by decide +kernel
theorem test_verdictPublish :
    let s (n : Option W64) := stepOf (grp false) (fun st => { attempt st with normWord := n }) [(2, 1)]
    let e := stepOf (grp false) attempt []
    go .verdictPublish (s none) = true ∧ tallyVotes 1 = (grp false).count ∧ ((after .verdictPublish (s none)).dev.sync64 1) = 0x400000003 ∧ ((after .verdictPublish (s (some 0x43F800000))).dev.sync64 1) = 0x400000001 ∧
    ((after .verdictPublish (s (some 0x47F800000))).dev.sync64 1) = 0x400000002 ∧ after .verdictPublish e = e ∧ go .verdictDeadline e = true ∧ ((after .verdictDeadline e).dev.sync64 1) = 0x40000000B := by decide +kernel
theorem test_verdictApply :
    let s (w : W64) := stepOf (grp false) attempt [(1, w)]
    let t := after .verdictApply (s 0x400000001)
    go .verdictApply (s 0x400000001) = true ∧ (s 0x400000001).dev.verdictHere (grp false) = some 0x400000001 ∧ t.dev.step.active = false ∧ t.dev.step.outcome = 1 ∧ (t.dev.stepRecord (grp false)).take 4 = [4, 0, 0, 0] ∧
    (after .verdictApply (s 0x400000003)).dev.step.abandons = 1 ∧ (s 0x300000001).dev.verdictHere (grp false) = none ∧ after .verdictApply (s 0x300000001) = s 0x300000001 := by decide +kernel

theorem test_syncWordCommit :
    let c := Instr.syncWordCommit own 2 (.write (leBytes 8 7))
    let s := waiting (.word false 2 0 7 none 3)
    go c s = true ∧ s.dev.watchIds = [] ∧ s.dev.vaneIds = [] ∧ s.dev.sync.work = [] ∧ (after c s).dev.sync.words = [(2, 7)] ∧ ((after c s).dev.half 3 0).mode = .run ∧ ((after c s).dev.half 3 0).pred 3 = true := by decide +kernel
def ledS (y : SyncState) : State := at' { sync := y }
def far (n : Nat) : Who := { kind := .peer, node := n, endpoint := 5, owner := 0 }
theorem test_ledger :
    let full : SyncState := { ledger := (List.range 4096).map (fun i => (i, 0)) }
    go (.ledgerOpen 7 5) (ledS {}) = true ∧ (after (.ledgerOpen 7 5) (ledS {})).dev.sync.ledger = [(1797, 0)] ∧ full.ledger.length = 4096 ∧
    go (.ledgerClose 7 5) (ledS {}) = true ∧ (after (.ledgerClose 7 5) (ledS { ledger := [(1797, 3)] })).dev.sync.ledger = [] ∧
    go (.writeLanded 7 5 2) (ledS {}) = true ∧ (after (.writeLanded 7 5 2) (ledS { ledger := [(1797, 3)] })).dev.sync.ledger = [(1797, 5)] ∧ after (.writeLanded 7 5 2) (ledS {}) = ledS {} := by decide +kernel
theorem test_ledger_full :
    let full : SyncState := { ledger := (List.range 4096).map (fun i => (i, 0)) }
    (after (.ledgerOpen 70 5) (ledS full)).dev.sync.retryCnt = 1 ∧ mapFind full.ledger (ledKey 70 5) = none := by decide +kernel
theorem test_releaseSignal :
    let c (n : W32) := Instr.releaseSignal (far 7) (syncBase + 8) 9 n 3
    let l : SyncState := { ledger := [(1797, 3)] }
    let full : SyncState := { l with hold := List.replicate 256 { who := far 7, addr := 0, val := 0, count := 4, rtag := 0, pk := none } }
    go (c 3) (ledS l) = true ∧ answer (after (c 3) (ledS {})) = some (stRefused, []) ∧ (after (c 4) (ledS l)).dev.sync.hold.length = 1 ∧ (after (c 4) (ledS full)).dev.sync.retryCnt = 1 ∧
    (after (c 3) (ledS l)).dev.sync.words = [(1, 9)] ∧ (after (c 3) (ledS l)).dev.sync.ledger = [(1797, 4)] := by decide +kernel
theorem test_holdTimeout :
    let x : HeldSig := { who := far 7, addr := syncBase, val := 0, count := 4, rtag := 0, pk := none }
    let s := ledS { ledger := [(1797, 3)], hold := [x] }
    go (.holdTimeout 0) s = true ∧ (after (.holdTimeout 0) s).dev.sync.hold = [] ∧ answer (after (.holdTimeout 0) s) = some (stRefused, []) ∧ flag (after (.holdTimeout 0) s) evSyn 1 = true ∧
    go (.signalRetry 0) (ledS { retries := [9] }) = true ∧ (ledS { retries := [9] }).dev.findReq 9 = none ∧ (after (.signalRetry 0) (ledS { retries := [9] })).dev.sync.retries = [] := by decide +kernel
theorem test_watch :
    let s := ledS { words := [(2, 7)] }
    let v : W32 := 0x80000000 + 2 + 1 * 0x4000
    go (.watchArm (.func 0) 3 v) s = true ∧ mapGet 0 (after (.watchArm (.func 0) 3 v) s).dev.sync.hits 3 = 1 ∧ ((after (.watchArm (.func 0) 3 v) s).dev.word (offWatch 3)).getLsbD 31 = false ∧
    (after (.watchArm (.func 0) 3 2) s).dev.sync = s.dev.sync := by decide +kernel
theorem test_vane :
    let s := ledS { words := [(0, 7)], vanes := [(4, { fwd := 3 })] }
    go (.vaneBreak (.func 0) 4) s = true ∧ ((after (.vaneBreak (.func 0) 4) s).dev.vane 4).broken = true ∧ go (.vaneReset (.func 0) 4) s = true ∧ (after (.vaneReset (.func 0) 4) s).dev.vane 4 = {} ∧
    (after (.vaneReset (.func 0) 4) s).dev.sync.words = [] ∧ go (.breakVane 4) s = true ∧ ((after (.breakVane 4) s).dev.vane 4).broken = true := by decide +kernel

def napping (u : TileState) (n : W64) (y : SyncState) : State :=
  at' { tiles := [(3, { u with h0 := (waiting (.time 0x7000000 false false)).dev.half 3 0 })], regs := { words := [(offSyn, 3)] }, ft := { mode := .locked, now := n }, sync := y }
theorem test_lull :
    let s := napping {} 0 {}
    let w := napping { lulled := true } 0x7000000 {}
    let r := napping { lulled := true, waking := true } 0x6F00000 {}
    let l := napping { lulled := true, waking := true } 0x7000001 {}
    go (.lullEnter 3) s = true ∧ s.dev.mayLull 3 = true ∧ ((after (.lullEnter 3) s).dev.tile 3).lulled = true ∧ after (.lullEnter 3) run0 = run0 ∧
    go (.lullWake 3) w = true ∧ w.dev.mustWake 3 = true ∧ ((after (.lullWake 3) w).dev.tile 3).waking = true ∧
    go (.wakeComplete 3 900) r = true ∧ (after (.wakeComplete 3 900) r).dev.sync = { wakes := [900], wakeCnt := 1 } ∧ ((after (.wakeComplete 3 900) r).dev.tile 3).lulled = false ∧
    flag (after (.wakeComplete 3 900) l) evSyn 4 = true := by decide +kernel
theorem test_lullLeadAdapt :
    let s := napping {} 0 { wakes := [900, 1201], wakeCnt := 64 }
    go .lullLeadAdapt s = true ∧ (s.dev.word offSyn).getLsbD 1 = true ∧ (after .lullLeadAdapt s).dev.sync.lead = 1460 := by decide +kernel

/-! ## The links -/

/-- A part with node 7, whose port 3 is so. -/
def lnk (x : PortState) (w : MapOf W32) : State := at' { regs := { words := w ++ [(offLnk, 7)] }, lnk := { ports := [(3, x)] } }
def port (t : State) : PortState := t.dev.port 3
def up : PortState := { mode := .active, lanes := 8, inRoutes := true, partnerNode := 9, partnerPort := 2, everActive := true, joined := true, recorded := some (9, 2), credits := [4, 4, 4, 4, 0, 0, 0, 0] }
/-- A capability record of version 1 from node 9, port 2, eight lanes, domain 0. -/
def record1 (v : Nat) : List Byte := leBytes 2 v ++ leBytes 3 0 ++ [2, 8, 0] ++ leBytes 4 9 ++ leBytes 4 0 ++ leBytes 48 0
theorem test_ports_up :
    go (.portEnable 3) (lnk {} []) = true ∧ (port (after (.portEnable 3) (lnk {} []))).mode = .detect ∧ fbit ((after (.portEnable 3) (lnk {} [])).dev.word (offPort 3)) 0 = true ∧
    go (.portDisable 3) (lnk up []) = true ∧ (port (after (.portDisable 3) (lnk up []))).mode = .disabled ∧ (port (after (.portDisable 3) (lnk up []))).inRoutes = false ∧
    go (.signalDetect 3) (lnk { mode := .detect } []) = true ∧ port (after (.signalDetect 3) (lnk { mode := .detect } [])) = { mode := .train } ∧
    go (.trainComplete 3) (lnk { mode := .train } []) = true ∧ port (after (.trainComplete 3) (lnk { mode := .train } [])) = { mode := .align } := by decide +kernel
theorem test_alignComplete :
    let c (h : BitVec 9) := Instr.alignComplete 3 ⟨h, [], [], false⟩
    let s := lnk { mode := .align } []
    go (c 0x1FF) s = true ∧ laneCount 0x7 = 3 ∧ (port (after (c 0x7) s)).mode = .fault ∧ (port (after (c 0x7) s)).reason = 5 ∧ (port (after (c 0x0FF) s)).lanes = 8 ∧ (port (after (c 0x0F) s)).lanes = 4 ∧
    (port (after (c 0x0FF) s)).mode = .exchange ∧ after (c 0x1FF) (lnk {} []) = lnk {} [] := by decide +kernel
theorem test_capabilityRecord :
    let c (v : Nat) := Instr.capabilityRecord 3 (record1 v)
    let s := lnk { mode := .exchange, lanes := 8 } []
    go (c 1) s = true ∧ s.dev.node = 7 ∧ s.dev.recordReason 3 (record1 1) = 0 ∧ (port (after (c 1) s)).partnerNode = 9 ∧ (port (after (c 1) s)).partnerPort = 2 ∧ (port (after (c 1) s)).lanes = 8 ∧
    s.dev.recordReason 3 (record1 2) = 1 ∧ (port (after (c 2) s)).mode = .fault ∧ after (c 1) (lnk {} []) = lnk {} [] := by decide +kernel
theorem test_portActive :
    let x : PortState := { mode := .exchange, lanes := 8, partnerRec := record1 1, partnerNode := 9, partnerPort := 2, probes := 64 }
    let y : PortState := { x with everActive := true, recorded := some (8, 1) }
    go (.portActive 3) (lnk x []) = true ∧ (lnk x []).dev.exchanged 3 = true ∧ (port (after (.portActive 3) (lnk x []))).mode = .active ∧ (port (after (.portActive 3) (lnk x []))).inRoutes = true ∧
    (port (after (.portActive 3) (lnk x []))).recorded = some (9, 2) ∧ (port (after (.portActive 3) (lnk y []))).inRoutes = false ∧ flag (after (.portActive 3) (lnk y [])) (evPort 3) 2 = true ∧
    after (.portActive 3) (lnk { x with probes := 63 } []) = lnk { x with probes := 63 } [] := by decide +kernel
theorem test_ports_down :
    go (.signalLoss 3) (lnk up []) = true ∧ (port (after (.signalLoss 3) (lnk up []))).mode = .retrain ∧ (port (after (.signalLoss 3) (lnk up []))).inRoutes = false ∧
    go (.retrainReq 3) (lnk up []) = true ∧ up.beats = true ∧ (port (after (.retrainReq 3) (lnk up []))).agreed = true ∧
    go (.retrainAck 3) (lnk up []) = true ∧ after (.retrainAck 3) (lnk up []) = lnk up [] ∧ (port (after (.retrainAck 3) (lnk { up with asked := true } []))).mode = .retrain ∧
    go (.retrainRequest (.func 0) 3) (lnk up []) = true ∧ (port (after (.retrainRequest (.func 0) 3) (lnk up []))).asked = true := by decide +kernel
theorem test_retrainComplete :
    let s := lnk { up with mode := .retrain } []
    go (.retrainComplete 3 ⟨0x1FF, [], [], false⟩) s = true ∧ (port (after (.retrainComplete 3 ⟨7, [], [], false⟩) s)).mode = .fault ∧ (port (after (.retrainComplete 3 ⟨0xFF, [], [], false⟩) s)).mode = .active ∧ (port (after (.retrainComplete 3 ⟨0xFF, [], [], false⟩) s)).lanes = 8 ∧
    (port (after (.retrainComplete 3 ⟨0x7F, [], [], false⟩) s)).lanes = 4 ∧ after (.retrainComplete 3 ⟨7, [], [], false⟩) (lnk up []) = lnk up [] ∧
    go (.retrainMaxExpiry 3) s = true ∧ (port (after (.retrainMaxExpiry 3) s)).agreed = false := by decide +kernel
theorem test_partnerLost :
    go (.partnerLost 3) (lnk { up with missed := 8 } []) = true ∧ (port (after (.partnerLost 3) (lnk { up with missed := 8 } []))).mode = .detect ∧ flag (after (.partnerLost 3) (lnk { up with missed := 8 } [])) (evPort 3) 1 = true ∧
    after (.partnerLost 3) (lnk { up with missed := 7 } []) = lnk { up with missed := 7 } [] := by decide +kernel
theorem test_portDrain :
    let d : PortState := { up with inRoutes := false, draining := true }
    go (.portRejoin (.func 0) 3) (lnk { up with inRoutes := false, recorded := none } []) = true ∧ port (after (.portRejoin (.func 0) 3) (lnk { up with inRoutes := false, recorded := none } [])) = up ∧
    go (.portDrain 3) (lnk up []) = true ∧ port (after (.portDrain 3) (lnk up [])) = d ∧ port (after (.drainPort 3) (lnk up [])) = d ∧ go (.drainPort 3) (lnk up []) = true ∧
    go (.portUndrain 3) (lnk d []) = true ∧ (port (after (.portUndrain 3) (lnk d []))).inRoutes = true ∧ go (.undrainPort 3) (lnk d []) = true ∧ (port (after (.undrainPort 3) (lnk { d with mode := .drained } []))).mode = .active ∧
    go (.portDrained 3) (lnk d []) = true ∧ d.drained = true ∧ (port (after (.portDrained 3) (lnk d []))).mode = .drained ∧ after (.portDrained 3) (lnk up []) = lnk up [] := by decide +kernel
theorem test_sealPacketLimit :
    let k (n : Nat) : PortState := { up with isSealed := true, txKeys := [{ count := n }, {}] }
    go (.sealPacketLimit 3) (lnk (k sealLimit) []) = true ∧ (k sealLimit).keysSpent = true ∧ (port (after (.sealPacketLimit 3) (lnk (k sealLimit) []))).mode = .fault ∧
    after (.sealPacketLimit 3) (lnk (k (sealLimit - 1)) []) = lnk (k (sealLimit - 1)) [] := by decide +kernel

/-- A flit of 64 bytes with a header and a body, its CRC given. -/
def flitOf (fh : Nat) (body : List Byte) : List Byte := let b := leBytes 2 fh ++ sliceB body 0 60; b ++ leBytes 2 (crc16 b).toNat
theorem test_flitReceived :
    let fl := flitOf 0 [1, 2]
    let bad := fl.take 63 ++ [listGet 0 fl 63 + 1]
    let en := flitOf 0xC [1]
    go (.flitReceived 3 ⟨fl, 0, 0⟩ true true) (lnk up []) = true ∧ (port (after (.flitReceived 3 ⟨fl, 0, 0⟩ true true) (lnk up []))).rxSeq = 1 ∧ ((port (after (.flitReceived 3 ⟨fl, 0, 0⟩ true true) (lnk up []))).partials.map List.length) = [60, 0, 0, 0] ∧
    leAt bad 62 2 ≠ (crc16 (sliceB bad 0 62)).toNat ∧ (port (after (.flitReceived 3 ⟨bad, 0, 0⟩ true true) (lnk up []))).crcErr = 1 ∧ (after (.flitReceived 3 ⟨bad, 0, 0⟩ true true) (lnk up [])).dev.out = [.linkCtl 3 (({ up with nak := true } : PortState).linkBody 0 0 0)] ∧
    (port (after (.flitReceived 3 ⟨fl, 0, 0⟩ false true) (lnk up []))).fecUncorr = 1 ∧ after (.flitReceived 3 ⟨fl, 1, 0⟩ true true) (lnk up []) = lnk up [] ∧ (port (after (.flitReceived 3 ⟨fl, 0, 5⟩ true true) (lnk { up with discarding := true } []))).fecCorr = 5 ∧
    (port (after (.flitReceived 3 ⟨en, 0, 0⟩ true true) (lnk up []))).rx.length = 1 := by decide +kernel
theorem test_flit_control :
    let body := leBytes 2 5 ++ [1, 0] ++ leBytes 2 3 ++ leBytes 54 0
    let fl := flitOf 0x10 body
    let x : PortState := { up with txSeq := 6, replay := [[1], [2], [3]] }
    go (.flitReceived 3 ⟨fl, 0, 0⟩ true true) (lnk x []) = true ∧ sliceB fl 2 60 = body ∧ after (.flitReceived 3 ⟨fl, 0, 0⟩ true true) (lnk x []) = after (.linkControlFlit 3 body) (lnk x []) ∧
    go (.linkControlFlit 3 body) (lnk x []) = true ∧ port (after (.linkControlFlit 3 body) (lnk x [])) = { x with replay := [[3]], credits := [7, 4, 4, 4, 0, 0, 0, 0] } ∧
    go (.linkControlSend 3) (lnk x []) = true ∧ (after (.linkControlSend 3) (lnk x [])).dev.out.length = 1 ∧
    go (.replayTimeout 3) (lnk x []) = true ∧ (after (.replayTimeout 3) (lnk x [])).dev.out = [.flit 3 [3], .flit 3 [2], .flit 3 [1]] ∧ (port (after (.replayTimeout 3) (lnk { x with replays := 15 } []))).mode = .retrain ∧
    after (.replayTimeout 3) (lnk up []) = lnk up [] := by decide +kernel
theorem test_lanes :
    let c := Instr.laneErrorCheck 3 [0, 0, 2, 0, 0, 0, 0, 0, 0]
    let w : MapOf W32 := [(offPort 3 + 0x28, 1)]
    let sp : PortState := { up with rxSpare := some 8 }
    go c (lnk up w) = true ∧ (port (after c (lnk up w))).failed = 4 ∧ go (.laneLockLoss 3 5) (lnk up []) = true ∧ (port (after (.laneLockLoss 3 5) (lnk up []))).swapping = some 5 ∧ (port (after (.laneLockLoss 3 5) (lnk sp []))).narrow = true ∧
    go (.laneSwapCmd (.func 0) 3 0x12) (lnk up []) = true ∧ (port (after (.laneSwapCmd (.func 0) 3 0x12) (lnk up []))).swapping = some 2 ∧ (port (after (.laneSwapCmd (.func 0) 3 0x12) (lnk sp []))).asked = true := by decide +kernel
theorem test_swaps :
    let x : PortState := { up with swapping := some 5, rxSeq := 9 }
    go (.swapReq 3 5) (lnk up []) = true ∧ (port (after (.swapReq 3 5) (lnk up []))).txSpare = some 5 ∧ (port (after (.swapReq 3 5) (lnk { up with txSpare := some 1 } []))).narrow = true ∧
    go (.swapAck 3 9) (lnk x []) = true ∧ (port (after (.swapAck 3 9) (lnk x []))).rxSpare = some 5 ∧ (port (after (.swapAck 3 10) (lnk x []))).swapSeq = some 10 ∧ after (.swapAck 3 9) (lnk up []) = lnk up [] ∧
    go (.swapDone 3) (lnk { up with txSpare := some 5 } []) = true ∧ flag (after (.swapDone 3) (lnk { up with txSpare := some 5 } [])) (evPort 3) 3 = true ∧ after (.swapDone 3) (lnk up []) = lnk up [] := by decide +kernel

/-! ## Packets, control and seals -/

/-- A packet of a type from node 9's endpoint 5 to node 7. -/
def pkt (ty op : Nat) (data : List Byte) : Packet :=
  { vc := 0, cls := false, dst := 7, type := ty, src := 9, endpoint := 5, addr := 0x100, len := 4, seq := 4, rtag := 2, op := op, hops := 3, sealed := false, kphase := false, data := data }
/-- Node 7 in dimension-order mode, four bits of x, whose ports toward higher x are these (13 R364). -/
def dorW (m : W32) : MapOf W32 := [(offLnk, 7), (offLnk + 4, 1), (offLnk + 8, 4), (offLnk + 0x10, m)]
/-- Node 7 with port 3 up, and a ledger entry of the sender. -/
def peer : State := { (lnk up []) with dev := { (lnk up []).dev with regs := { words := dorW 8 }, sync := { ledger := [(ledKey 9 5, 3)] }, mem := { hbm := [(0x100, 6)] } } }
def landed (t : State) : Option W32 := mapFind t.dev.sync.ledger (ledKey 9 5)
theorem test_packet_requests :
    let w := pkt 1 0 [1, 2]
    let a := pkt 3 0 (leBytes 8 2 ++ leBytes 8 0)
    go (.write 3 w) peer = true ∧ peer.dev.isHere 3 w = true ∧ (after (.write 3 w) peer).dev.mem.hbm = [(0x100, 1), (0x101, 2)] ∧ landed (after (.write 3 w) peer) = some 4 ∧
    go (.read 3 (pkt 2 0 [])) peer = true ∧ (after (.read 3 (pkt 2 0 [])) peer).dev.mem = peer.dev.mem ∧
    go (.atomic 3 a) peer = true ∧ atomOfCode 0 = some .add ∧ (after (.atomic 3 a) peer).dev.mem.hbm = [(0x100, 8)] ∧ landed (after (.atomic 3 a) peer) = some 4 ∧
    atomOfCode 5 = none ∧ landed (after (.atomic 3 (pkt 3 5 [])) peer) = some 4 ∧ after (.write 3 { w with dst := 8 }) peer = peer := by decide +kernel
theorem test_packet_signal :
    let s := pkt 4 0 (leBytes 8 1)
    let un := { peer with dev := { peer.dev with sync := {} } }
    go (.signal 3 s) peer = true ∧ ((3 : W32) - s.seq).toInt < 0 ∧ (after (.signal 3 s) peer).dev.sync.hold.length = 1 ∧ (after (.signal 3 s) un).dev.sync.hold = [] ∧ (after (.signal 3 s) un).dev.mem = un.dev.mem ∧
    go (.openReq 3 (pkt 5 0 [])) un = true ∧ landed (after (.openReq 3 (pkt 5 0 [])) un) = some 0 ∧ go (.close 3 (pkt 6 0 [])) peer = true ∧ landed (after (.close 3 (pkt 6 0 [])) peer) = none := by decide +kernel
/-- The request with tag 2 that an answer of node 9 ends. -/
def asked (ty : Nat) : OutReq := { rtag := 2, ep := 12, pk := { pkt ty 0 [] with dst := 9, src := 7 }, pieces := 1, use := .other }
def asking (ty : Nat) : State := { peer with dev := { peer.dev with lnk := { peer.dev.lnk with requests := [asked ty] } } }
theorem test_answers :
    go (.readResp 3 (pkt 0x10 0 [])) (asking 2) = true ∧ (asking 2).dev.findReq 2 = some (asked 2) ∧ respType 2 = 0x10 ∧ (after (.readResp 3 (pkt 0x10 0 [])) (asking 2)).dev.lnk.requests = [] ∧
    go (.ack 3 (pkt 0x11 0 [])) (asking 1) = true ∧ respType 1 = 0x11 ∧ (after (.ack 3 (pkt 0x11 5 [])) (asking 1)).dev.sync.retries = [2] ∧ (after (.ack 3 (pkt 0x11 0 [])) (asking 2)).dev.lnk.requests = [asked 2] ∧
    go (.atomicResp 3 (pkt 0x12 0 [])) (asking 3) = true ∧ respType 3 = 0x12 ∧ (after (.atomicResp 3 (pkt 0x12 0 [])) (asking 3)).dev.lnk.requests = [] ∧ peer.dev.findReq 2 = none ∧
    go (.responseTimeout 2) (asking 1) = true ∧ (after (.responseTimeout 2) (asking 1)).dev.lnk.requests = [] ∧ after (.responseTimeout 2) peer = peer := by decide +kernel
/-- A part whose port 3 sends node 9's packets out of port 4. -/
def routing : State := at' { regs := { words := dorW 16 }, lnk := { ports := [(3, up), (4, { up with credits := [9, 9, 9, 9, 0, 0, 0, 0] })] } }
theorem test_forward :
    let k : Packet := { pkt 1 0 [1] with dst := 9, src := 8 }
    go (.packetForward 3 k) routing = true ∧ (routing.dev.takeRx 3 k).route (some 3) { k with hops := 2 } = some (4, false) ∧ (after (.packetForward 3 k) routing).dev.out.head? = some (.packet 4 { k with hops := 2 }) ∧
    (port (after (.packetForward 3 { k with hops := 0 }) routing)).noRoute = 1 ∧ (routing.dev.takeRx 3 k).route (some 3) { k with dst := 5, hops := 2 } = none ∧ (port (after (.packetForward 3 { k with dst := 5 }) routing)).noRoute = 1 ∧
    go (.packetReservedType 3 (pkt 0x30 0 [])) peer = true ∧ (port (after (.packetReservedType 3 (pkt 0x30 0 [])) peer)).badType = 1 := by decide +kernel

/-- Node 7, whose port 3 takes control packets of node 9. -/
def ctl : State := { (onTask half0) with dev := { (onTask half0).dev with
  regs := { words := [(offPort 3, 4)] ++ dorW 8 ++ [(offLnk + 0x50, 0x3400009)] }, lnk := { ports := [(3, up), (4, up)] } } }
theorem test_control :
    let c (op arg : Nat) := Instr.control 3 (pkt 0x22 op (leBytes 8 arg))
    go (c 1 5) ctl = true ∧ (ctl.dev.takeRx 3 (pkt 0x22 1 (leBytes 8 5))).ctrlAccepts 3 (pkt 0x22 1 (leBytes 8 5)) = true ∧ ((after (c 1 5) ctl).dev.sq 5).map (fun q => q.mode) = some .stopped ∧ ((after (c 2 5) ctl).dev.sq 5).map (fun q => q.mode) = some .paused ∧
    ((after (c 3 4) ctl).dev.port 4).draining = true ∧ ((after (c 4 4) ctl).dev.port 4).draining = false ∧ ((after (c 5 3) ctl).dev.half 3 0).halting = true ∧ ((after (c 6 9) ctl).dev.vane 9).broken = true ∧
    peer.dev.ctrlAccepts 3 (pkt 0x22 1 (leBytes 8 5)) = false ∧ flag (after (c 1 5) peer) (evPort 3) 7 = true := by decide +kernel
theorem test_controlOther :
    go (.controlOther 3 (pkt 0x22 0 [])) ctl = true ∧ ctl.dev.isHere 3 (pkt 0x22 0 []) = true ∧ flag (after (.controlOther 3 (pkt 0x22 0 [])) ctl) (evPort 3) 7 = true ∧
    go (.quiesceTile 3) ctl = true ∧ ((after (.quiesceTile 3) ctl).dev.half 3 0).halting = true ∧ go (.controlPacketSend (.func 0) 1) ctl = true ∧ (after (.controlPacketSend (.func 0) 1) ctl).dev.tiles = ctl.dev.tiles := by decide +kernel
theorem test_seal :
    let x : PortState := { mode := .exchange, lanes := 8, partnerRec := record1 1 }
    let s := lnk x [(offPort 3, 2)]
    let k := pkt 0x24 0 (List.replicate 64 0)
    let r := { (lnk { up with isSealed := true } []) with dev := { (lnk { up with isSealed := true } []).dev with sec := { rekeying := [3] } } }
    go (.sealMsg 3 k true) s = true ∧ s.dev.sealWanted 3 = true ∧ (s.dev.takeRx 3 k).sealPasses k.data true = true ∧ (port (after (.sealMsg 3 k true) s)).isSealed = true ∧
    (s.dev.takeRx 3 k).sealPasses k.data false = false ∧ (port (after (.sealMsg 3 k false) s)).mode = .fault ∧ (port (after (.sealMsg 3 k false) s)).reason = 4 ∧ (after (.sealMsg 3 k true) (lnk up [])).dev.lnk = (lnk up []).dev.lnk ∧
    (port (after (.sealMsg 3 k true) r)).txPhase = true ∧ (after (.sealMsg 3 k true) r).dev.sec.rekeying = [] := by decide +kernel
theorem test_linkRekey :
    let s := { (lnk { up with isSealed := true } []) with dev := { (lnk { up with isSealed := true } []).dev with boot := { firmware := true } } }
    go (.linkRekey 3) s = true ∧ (s.dev.port 3).isSealed = true ∧ (s.dev.port 3).beats = true ∧ s.dev.boot.firmware = true ∧ s.dev.sec.rekeying = [] ∧ after (.linkRekey 3) (lnk up []) = lnk up [] := by decide +kernel

/-! ## PCI Express -/

/-- A part whose link is up, with one virtual function open. -/
def pcie (f : PciState → PciState) : State :=
  at' { fe0 with pci := f { fe0.pci with vfEnable := true, numVfs := 2, funcs := [(0, { busMaster := true, memSpace := true }), (1, { memSpace := true, busMaster := true, ideKey := [5] })] } }
def openFns : State := pcie id
theorem test_bar0Access :
    let c := Instr.bar0Access 0 (offPci + 4) 4 (some ⟨[3, 0, 0, 0], false, false⟩)
    let r := Instr.bar0Access 0 (offPci + 4) 4 none
    let x := Instr.bar0Access 1 0xA000 4 none
    let u := Instr.bar0Access 0 (offPci + 4) 8 none
    go c openFns = true ∧ openFns.dev.barOpen 0 = true ∧ openFns.dev.barOpen 1 = true ∧ (after c openFns).dev.word (offPci + 4) = 3 ∧ go r openFns = true ∧
    (after r (after c openFns)).dev.out = [.hostData 0 [3, 0, 0, 0]] ∧ go x openFns = true ∧ openFns.dev.vfReg 0 0xA000 = .absent ∧ (after x openFns).dev.out = [.hostData 1 [0, 0, 0, 0]] ∧
    go u openFns = true ∧ (after u openFns).dev.pci.urCnt = 1 ∧ (after u openFns).dev.out.head? = some (.unsupported 0) ∧ flag (after u openFns) evPci 3 = true := by decide +kernel
theorem test_bar0Access_shut :
    let s := pcie (fun p => { p with funcs := [] })
    let u := Instr.bar0Access 0 (offPci + 4) 4 (some ⟨[3, 0, 0, 0], false, false⟩)
    let y := Instr.bar0Access 1 0xA000 4 (some ⟨[3, 0, 0, 0], false, false⟩)
    go u s = true ∧ s.dev.barOpen 0 = false ∧ after u s = s ∧ go y openFns = true ∧ (after y openFns).dev.regs.words = openFns.dev.regs.words := by decide +kernel
theorem test_bar4Access :
    let w := Instr.bar4Access 0x100 (.write [1, 2, 3, 4]) ⟨false, false, false⟩
    let r := Instr.bar4Access 0x100 (.read 4) ⟨false, false, false⟩
    let a := Instr.bar4Access 0x100 (.atomic .add 1 0) ⟨false, false, false⟩
    let m := at' { openFns.dev with mem := { openFns.dev.mem with bad := [] } }
    go w openFns = true ∧ (after r (after w openFns)).dev.out.head? = some (.hostData 0 [1, 2, 3, 4]) ∧ go a openFns = true ∧ (after a openFns).dev.pci.urCnt = 1 ∧ go r m = true := by decide +kernel
theorem test_vfBar4Access :
    let w := Instr.vfBar4Access 0 0x100 (.write [1, 2, 3, 4]) ⟨true, false, false⟩
    let r := Instr.vfBar4Access 0 0x100 (.read 4) ⟨true, false, false⟩
    let a := Instr.vfBar4Access 0 0x100 (.atomic .add 1 0) ⟨true, false, false⟩
    go w openFns = true ∧ (hbmKeys (openFns.dev.vfAddr 0 0x100) 4).isSome = true ∧ (after r (after w openFns)).dev.out.head? = some (.hostData 1 [1, 2, 3, 4]) ∧ go a openFns = true ∧ (after a openFns).dev.pci.urCnt = 1 := by decide +kernel
theorem test_pcie_link :
    let s := at' { fe0 with boot := { fe0.boot with perstLow := false } }
    let c := Instr.pcieLinkTrain 6 16 ⟨false, false⟩
    let p := (after c s).dev.pci
    go c s = true ∧ p.dlUp = true ∧ p.rate = min 6 s.dev.maxRate ∧ p.width = 16 ∧ p.full = 16 ∧ p.flit = true ∧ (after (.pcieLinkTrain 1 4 ⟨false, true⟩) (after c s)).dev.pci = { p with width := 4 } ∧ go c (at' fe0) = true ∧ after c (at' fe0) = at' fe0 ∧
    go .dlDown s = true ∧ (after .dlDown s).dev.pci.dlUp = false ∧ flag (after .dlDown s) evPci 0 = true ∧ go .malformedTlp s = true ∧ (after .malformedTlp s).dev.pci.aer = 32 := by decide +kernel
theorem test_msixUnmask :
    let e : MsixEntry := { addr := 0x40, data := 9, pending := true }
    let s := pcie (fun p => { p with msix := [(2050, e)], funcs := [(0, { busMaster := true, memSpace := true }), (1, { memSpace := true, busMaster := true, msixOn := true })] })
    go (.msixUnmask 1 2) s = true ∧ s.dev.barOpen 1 = true ∧ (after (.msixUnmask 1 2) s).dev.out = [.msi 1 0x40 9] ∧ (mapGet {} (after (.msixUnmask 1 2) s).dev.pci.msix 2050) = { e with masked := false, pending := false } ∧
    go (.msixUnmask 2 2) s = true ∧ (after (.msixUnmask 60 2) s) = s := by decide +kernel
theorem test_configurationRequest :
    let up := pcie (fun p => { p with cfgReady := true })
    let not := pcie (fun p => { p with cfgReady := false })
    let r (w : CfgReq) := after (.configurationRequest w) up
    go (.configurationRequest (.read 0 .command)) not = true ∧ (after (.configurationRequest (.read 0 .command)) not).dev.out = [.cfgAnswer true] ∧ (r (.read 0 .power)).dev.out = [.cfgAnswer false, .cfgData 0 [0]] ∧ (r (.read 0 .deviceControl)).dev.out = [.cfgAnswer false, .cfgData 0 [128, 512, 50]] ∧
    ((r (.busMaster 1 false)).dev.func 1).busMaster = false ∧ ((r (.memorySpace 1 false)).dev.func 1).memSpace = false ∧ ((r (.functionMask 1 true)).dev.func 1).msixMask = true ∧
    ((r (.msixEnable 1 true)).dev.func 1).msixOn = true ∧ ((r (.atsEnable 1 true)).dev.func 1).ats = true ∧ (r (.vfEnable true 70)).dev.pci.numVfs = 64 ∧
    (r (.bar4Size 34)).dev.pci.bar4Log2 = 34 ∧ (r (.bar4Size 41)).dev.pci.bar4Log2 = 30 ∧ (r (.vfBar4Size 36)).dev.pci.vfBar4Log2 = 36 ∧ ((r (.maxPayload 1 2)).dev.func 1).maxPayload = 2 ∧ ((r (.maxPayload 1 3)).dev.func 1).maxPayload = 0 ∧
    ((r (.maxReadRequest 1 5)).dev.func 1).maxRead = 5 ∧ ((r (.completionTimeout 1 15)).dev.func 1).cplMs = 50 ∧ ((r (.powerState 1 true)).dev.func 1).d3 = true := by decide +kernel
theorem test_configurationRequest_ready :
    let s := pcie (fun p => { p with cfgReady := true })
    go (.configurationRequest (.vfBar4Size 36)) s = true ∧ go (.configurationRequest (.bar4Size 41)) s = true ∧ go (.configurationRequest (.vfEnable true 70)) s = true ∧
    ∀ f ∈ [0, 1, 64], ∀ w ∈ [CfgReq.busMaster f true, .memorySpace f true, .functionMask f true, .msixEnable f true, .atsEnable f true], go (.configurationRequest w) s = true := by decide +kernel
theorem test_atsInvalidate :
    let s := pcie (fun p => { p with atc := [(1, 3, true), (1, 4, true), (0, 3, false)] })
    go (.atsInvalidate 1 3) s = true ∧ (after (.atsInvalidate 1 3) s).dev.pci.atc = [(1, 4, true), (0, 3, false)] ∧ (after (.atsInvalidate 1 3) s).dev.out = [.atsDone 1] := by decide +kernel
theorem test_hostReads_counted :
    go (.poisonedTlp .write) openFns = true ∧ (after (.poisonedTlp .write) openFns).dev.pci.poison = 1 ∧ go (.completionTimeout (.coreRead 3)) openFns = true ∧ go (.poisonedTlp (.adminCommand 0)) openFns = true ∧
    (after (.completionTimeout (.coreRead 3)) openFns).dev.pci.cplTo = 1 ∧ flag (after (.completionTimeout (.coreRead 3)) openFns) evPci 6 = true := by decide +kernel
theorem test_hostReads_queues :
    let q : SqState := { sq5 with loc := false, head := 2, tail := 5, fetched := 2, cq := 7 }
    let d := fe q cq2
    let c : CqState := { cq2 with loc := false }
    go (.poisonedTlp (.descriptor 5)) (at' d) = true ∧ d.mayFetch q = true ∧ q.buf = [] ∧ q.running = 0 ∧ d.cq 7 = none ∧ d.feFrozen = false ∧
    ((after (.poisonedTlp (.descriptor 5)) (at' d)).dev.sq 5).map (fun x => (x.mode, x.head)) = some (.paused, 3) ∧
    go (.completionTimeout (.cqRing 2)) (at' (fe sq5 c)) = true ∧ c.mode = .active ∧ ((after (.completionTimeout (.cqRing 2)) (at' (fe sq5 c))).dev.cq 2).map CqState.mode = some .stalled := by decide +kernel
theorem test_vfFlr :
    let s := at' { openFns.dev.setTdi 0 .run with fe := { fe0.fe with sqs := [(5, { sq5 with ctx := 0, running := 1 })] } }
    let t := after (.vfFlr 0) s
    go (.vfFlr 0) s = true ∧ s.dev.vfOn 0 = true ∧ s.dev.tdiOf 0 = .run ∧ t.dev.tdiOf 0 = .unlocked ∧ t.dev.cq 256 = none ∧ (t.dev.func 1).ideKey = [5] ∧ (t.dev.func 1).busMaster = false ∧
    flag t evPci 2 = true ∧ t.dev.sq 5 = none ∧ s.dev.vfOn 5 = false ∧ go (.vfFlr 5) s = true ∧ after (.vfFlr 5) s = s := by decide +kernel
theorem test_hotReset :
    let s := at' (openFns.dev.setTdi 0 .run)
    let t := after .hotReset s
    let p := after (.perst true) s
    go .hotReset s = true ∧ t.dev.tdiOf 0 = .unlocked ∧ t.dev.pci.vfEnable = false ∧ t.dev.pci.dlUp = true ∧ (t.dev.func 1).busMaster = false ∧ flag t evPci 1 = true ∧
    go (.perst true) s = true ∧ p.dev.pci.dlUp = false ∧ p.dev.pci.session = none ∧ p.dev.boot.perstLow = true ∧ go (.perst false) s = true ∧ (after (.perst false) p).dev.boot.perstLow = false := by decide +kernel

/-! ## Security -/

/-- A part with firmware, an SPDM session whose requester holds a report, two virtual functions, and region 3 of context 1 in state `m`. -/
def secS (m : SealMode) (f : Dev → Dev) : State :=
  at' (f { fe0 with
    pci := { fe0.pci with vfEnable := true, numVfs := 2, session := some 4, reported := true }
    boot := { fe0.boot with firmware := true }
    mem := { fe0.mem with seals := [(3, { base := 2, rows := 1, owner := 1, access := 1, mode := m, gen := 5, key := 9 })], hbm := [(2 * 262144, 7), (3 * 262144, 8)] }
    sec := { fe0.sec with confined := 2, regionExpect := [(3, 4)], ingestKeys := [(6, (1, [1]))], keyExpect := [(6, 4)] } })
def sec0 : State := secS .opened id
theorem test_interfaces :
    let l := after (.lockInterface 1) sec0
    let r := after (.startInterface 1) l
    let q := at' (r.dev.modFe (fun f => { f with sqs := [(5, { sq5 with ctx := 1 })] }))
    let e := after (.tdiError 1) q
    go (.lockInterface 1) sec0 = true ∧ l.dev.tdiOf 1 = .locked ∧ go (.startInterface 1) l = true ∧ r.dev.tdiOf 1 = .run ∧ after (.startInterface 1) sec0 = sec0 ∧
    go (.stopInterface 1) r = true ∧ (after (.stopInterface 1) r).dev.tdiOf 1 = .unlocked ∧ go (.tdiError 1) q = true ∧ e.dev.tdiOf 1 = .error ∧ flag e evPci 7 = true ∧
    (e.dev.sq 5).map SqState.mode = some .stopped ∧ after (.tdiError 1) sec0 = sec0 := by decide +kernel
theorem test_sessions :
    let k := leBytes 32 77
    go (.spdmKeyExchange 8) sec0 = true ∧ (after (.spdmKeyExchange 8) sec0).dev.pci.session = some 8 ∧ (after (.spdmKeyExchange 8) sec0).dev.pci.reported = false ∧
    go (.ideKm 1 k) sec0 = true ∧ ((after (.ideKm 1 k) sec0).dev.func 1).ideKey = k ∧ go (.getMeasurements k) sec0 = true ∧
    (after (.getMeasurements k) { sec0 with dev := { sec0.dev with pci := { sec0.dev.pci with reported := false } } }).dev.pci.reported = true ∧
    after (.getMeasurements k) (at' fe0) = at' fe0 := by decide +kernel
theorem released (s : State) (x : Expect) (hf : s.dev.boot.firmware = true) (hs : s.dev.pci.session.isSome = true) (hr : s.dev.pci.reported = true)
    (hd : s.life.debugOpen = false) (hx : x.digest = shake 64 (s.dev.measOf x.mask)) (f : Dev → SpdmAnswer × List Byte × Dev) :
    s.dev.releaseOk s.life x = true ∧ s.dev.releaseReq s.life x f = (f s.dev).2.2.spdmAnswer (f s.dev).1 (f s.dev).2.1 := by
  simp [Dev.releaseReq, Dev.releaseOk, hf, hs, hr, hd, hx]
/-- The release request that the slots of sec0 admit. -/
def told : Expect := { mask := 4, digest := shake 64 (sec0.dev.measOf 4) }
theorem test_releases_admitted : sec0.dev.releaseOk sec0.life told = true ∧ sec0.dev.alive = true := by
  exact ⟨(released sec0 told rfl rfl rfl rfl rfl (fun d => (.done, [], d))).1, by decide⟩
theorem test_releases_denied :
    let c := Instr.closeRegion told 3
    let s := { sec0 with life := { debugOpen := true } }
    let b : State := at' { sec0.dev with boot := { sec0.dev.boot with firmware := false } }
    s.dev.releaseOk s.life told = false ∧ (after c s).dev.out = [.spdm .denied []] ∧ flag (after c s) evSec 2 = true ∧ (after c s).dev.mem = s.dev.mem ∧ after c b = b := by decide +kernel
theorem test_regionOpen :
    let r := sec0.dev.regionOpen told 4 10 2 1 3 []
    sec0.dev.regionFits 10 2 1 3 = true ∧ (sec0.dev.sealEntry 4).mode = .free ∧ r.1 = .done ∧ (r.2.2.sealEntry 4).mode = .opened ∧ (r.2.2.sealEntry 4).base = 10 ∧ (r.2.2.sealEntry 4).owner = 1 ∧
    r.2.2.confinedCtx 1 = true ∧ sec0.dev.regionFits 2 1 1 0 = false ∧ (sec0.dev.regionOpen told 3 10 2 1 3 []).1 = .busy ∧ (sec0.dev.regionOpen told 4 2 1 1 0 []).1 = .denied := by decide +kernel
theorem test_openRegion (base rows owner access : Nat) : exec (.openRegion told 4 base rows owner access []) sec0 =
    .next { sec0 with dev := (sec0.dev.regionOpen told 4 base rows owner access []).2.2.spdmAnswer (sec0.dev.regionOpen told 4 base rows owner access []).1 (sec0.dev.regionOpen told 4 base rows owner access []).2.1 } := by
  exact congrArg (fun d => Host.Outcome.next { sec0 with dev := d }) (released sec0 told rfl rfl rfl rfl rfl (Dev.regionOpen told 4 base rows owner access [])).2
theorem test_region_and_keys :
    let r := sec0.dev.regionCloseReq 3
    r.1 = .done ∧ r.2.2.sealEntry 3 = { base := 2, rows := 1, owner := 1, access := 1, mode := .closing, gen := 6 } ∧ (sec0.dev.regionCloseReq 4).1 = .busy ∧
    (sec0.dev.keyBind told 6 1 []).1 = .busy ∧ ((sec0.dev.keyBind told 7 1 (leBytes 32 3)).2.2.sec.ingestKeys) = [(6, (1, [1])), (7, (1, leBytes 32 3))] ∧
    (sec0.dev.keyUnbindReq 6).2.2.sec.ingestKeys = [] ∧ (sec0.dev.keyUnbindReq 7).1 = .busy ∧ (sec0.dev.confine 9).confinedCtx 9 = true := by decide +kernel
theorem test_measurementExtend :
    let c := Instr.measurementExtend 2 (leBytes 64 1)
    let t := after c sec0
    go c sec0 = true ∧ sec0.dev.regionsOn 2 = [3] ∧ sec0.dev.keysOn 2 = [6] ∧ (t.dev.sealEntry 3).mode = .closing ∧ t.dev.sec.ingestKeys = [] ∧ flag t evSec 0 = true ∧ flag t evSec 3 = true ∧
    t.dev.meas 3 = sec0.dev.meas 3 ∧ go (.measurementExtend 5 (leBytes 64 1)) sec0 = true ∧ after (.measurementExtend 5 (leBytes 64 1)) sec0 = sec0 := by decide +kernel
theorem test_regionZeroed :
    let s := secS .closing id
    let t := after (.regionZeroed 3) s
    go (.regionZeroed 3) s = true ∧ (t.dev.sealEntry 3).mode = .free ∧ t.dev.mem.hbm = [(3 * 262144, 8)] ∧ t.dev.confinedCtx 1 = false ∧ after (.regionZeroed 3) sec0 = sec0 := by decide +kernel
theorem test_confinedTileClear :
    let s := secS .closing (fun d => { d with sec := { d.sec with clearing := [5] }, tiles := [(5, ({ tmem := [(1, 2)] } : TileState))] })
    let t := after (.confinedTileClear 5) s
    go (.confinedTileClear 5) s = true ∧ t.dev.sec.clearing = [] ∧ (t.dev.tile 5).tmem = [] ∧ after (.confinedTileClear 6) s = s := by decide +kernel
theorem test_svnCommit :
    let s := secS .opened (fun d => { d with sec := { d.sec with stepSince := true, pendFw := some 7 } })
    go .svnCommit s = true ∧ (after .svnCommit s).life.fwSvn = 7 ∧ (after .svnCommit s).life.loaderSvn = 0 ∧ (after .svnCommit s).dev.sec.pendFw = none ∧ after .svnCommit sec0 = sec0 := by decide +kernel
theorem test_debugOpening_refused :
    let c := Instr.debugOpening (leBytes 32 1) (leBytes 114 2) 0 4
    let s := { sec0 with life := { debugCount := 64 } }
    sec0.dev.debugRefused sec0.life (leBytes 32 1) (leBytes 114 2) 0 4 = true ∧ (after c sec0).dev.sec.refused = 1 ∧ (after c sec0).life = sec0.life ∧
    s.dev.debugRefused s.life (leBytes 32 1) (leBytes 114 2) 0 0 = true := by decide +kernel
/-- The opening that a token with a good signature makes: whether a signature is good is the part's own, so it stands as a hypothesis. -/
theorem test_debugOpening (nonce token : List Byte) (scope : W32)
    (h : Config.rootVerify 0 (identityDigest ++ sliceB nonce 0 32 ++ leBytes 4 scope.toNat) token = true) : sec0.dev.debugRefused sec0.life nonce token scope 0 = false := by
  have hb : (fbit (sec0.dev.word (offSec + 8)) 0 || decide (64 ≤ sec0.life.debugCount) || decide (4 ≤ 0) || sec0.life.revoked.getLsbD 0) = false := by decide +kernel
  simp only [Dev.debugRefused, hb, h]; rfl
theorem test_debug_clears :
    let d := sec0.dev.debugClose.debugZero
    (d.sealEntry 3).mode = .free ∧ (d.sealEntry 3).gen = 6 ∧ d.mem.hbm = [(3 * 262144, 8)] ∧ d.sec.ingestKeys = [] ∧ d.sec.confined = 0 ∧ d.pci.session = none := by decide +kernel
/-- sec0 with its volatile state so. -/
def answers (d : Dev) : Result := .next { sec0 with dev := d }
theorem test_keys_and_blobs (blob : List Byte) :
    exec (.bindIngestKey told 7 1 []) sec0 = answers ((sec0.dev.keyBind told 7 1 []).2.2.spdmAnswer .done []) ∧
    exec (.unbindIngestKey told 6) sec0 = answers ((sec0.dev.keyUnbindReq 6).2.2.spdmAnswer .done []) ∧
    exec (.confine told 9) sec0 = answers ((sec0.dev.confine 9).spdmAnswer .done []) ∧
    exec (.wrap told blob) sec0 = answers (sec0.dev.spdmAnswer .done (Config.wrapBlob [] blob)) :=
  ⟨congrArg answers (released sec0 told rfl rfl rfl rfl rfl (Dev.keyBind told 7 1 [])).2,
    congrArg answers (released sec0 told rfl rfl rfl rfl rfl (Dev.keyUnbindReq 6)).2,
    congrArg answers (released sec0 told rfl rfl rfl rfl rfl (fun d => (.done, [], d.confine 9))).2,
    congrArg answers (released sec0 told rfl rfl rfl rfl rfl (fun d => (.done, Config.wrapBlob d.sec.sealRoot blob, d))).2⟩
/-- Whether a blob unwraps is the part's own, so it stands as a hypothesis. -/
theorem test_unwrap (blob key : List Byte) (h : Config.unwrapBlob [] blob = some key) :
    exec (.unwrap told blob) sec0 = answers (sec0.dev.spdmAnswer .done []) := by
  have hr := (released sec0 told rfl rfl rfl rfl rfl (fun d => match Config.unwrapBlob d.sec.sealRoot blob with
    | some _ => (.done, [], d)
    | none => (.denied, [], d))).2
  have he : sec0.dev.sec.sealRoot = [] := rfl
  simp only [he, h] at hr
  exact congrArg answers hr

/-! ## Firmware services, general cores, ingest -/

def fw (f : Dev → Dev) : State := at' (f { fe0 with boot := { fe0.boot with firmware := true } })
def svc0 : State := fw id
/-- Bytes of HBM. -/
def bytesInMem (d : Dev) (a n : Nat) : List Byte := (List.range n).map (fun i => mapGet 0 d.mem.hbm (a + i))
/-- The status and the first result in the response to request 1 of a context. -/
def reply (t : State) (ctx : Nat) : List Nat := [leAt (bytesInMem t.dev (0x2000 * ctx + 0x1000) 16) 0 4, leAt (bytesInMem t.dev (0x2000 * ctx + 0x1000) 16) 4 2, leAt (bytesInMem t.dev (0x2000 * ctx + 0x1000) 16) 8 8]
theorem test_svcAttach :
    let t := after (.svcAttach 2 1 9) svc0
    go (.svcAttach 2 1 9) svc0 = true ∧ svc0.dev.svcVecOk 2 9 = true ∧ t.dev.gc.vectors = [(2, 9)] ∧ reply t 2 = [1, 0, 0] ∧ reply (after (.svcAttach 2 1 2048) svc0) 2 = [1, 1, 0] ∧
    after (.svcAttach 2 1 9) (at' fe0) = at' fe0 := by decide +kernel
theorem test_stepRun :
    let s (g : Option Group) (r : Bool) := fw (fun d => { d with step := { d.step with group := g, running := r } })
    let t := after (.stepRun 0 1 5) (s (some (grp false)) false)
    go (.stepRun 0 1 5) svc0 = true ∧ t.dev.step.running = true ∧ t.dev.step.fresh = true ∧ t.dev.step.left = some 5 ∧ reply t 0 = [1, 0, 0] ∧
    reply (after (.stepRun 0 1 5) (s none false)) 0 = [1, 2, 0] ∧ reply (after (.stepRun 0 1 5) (s (some (grp false)) true)) 0 = [1, 3, 0] := by decide +kernel
theorem test_policies :
    let s := fw (fun d => { d with step := { d.step with abandons := 3, outcome := 2 } })
    go (.fallback 0 1) svc0 = true ∧ (after (.fallback 0 1) svc0).dev.step.fallbackAsk = true ∧ go (.lscalePolicy 0 1 100 8) svc0 = true ∧ (after (.lscalePolicy 0 1 100 8) svc0).dev.step.interval = 100 ∧
    (after (.lscalePolicy 0 1 100 8) svc0).dev.step.cap = 8 ∧ go (.stepReport 0 1) s = true ∧ s.dev.stepReport.1 = 4 ∧ s.dev.stepReport.2.1.head? = some 2 ∧ go (.checkpoint 0 1 5 ⟨0x9000, []⟩ true) s = true ∧
    reply (after (.checkpoint 0 1 5 ⟨0x9000, []⟩ true) s) 0 = [1, 2, 0] := by decide +kernel
theorem test_groupSet :
    let rec' := leBytes 4 2 ++ leBytes 4 1 ++ leBytes 56 0
    let busy := fw (fun d => { d with step := { d.step with active := true } })
    go (.groupSet 0 1 0x8000 0x100 noPlan) busy = true ∧ reply (after (.groupSet 0 1 0x8000 0x100 noPlan) busy) 0 = [1, 3, 0] ∧ rec'.length = 64 ∧
    (svc0.dev.readGroup 0x8000 0x100 noPlan).1 = none ∧ reply (after (.groupSet 0 1 0x8000 0x100 noPlan) svc0) 0 = [1, 2, 0] := by decide +kernel
theorem slice_mid (a x z : List Byte) (n : Nat) (h : x.length = n) : sliceB (a ++ x ++ z) a.length n = x := by
  subst h; simp [sliceB, List.append_assoc]
theorem shake_length (n : Nat) (m : List Byte) : (shake n m).length = n := by simp [shake, sliceB] <;> omega
/-- An image of a component with an empty payload and its true digest. -/
def imageTop (c : Nat) : List Byte := leBytes 4 0x4756494D ++ leBytes 2 c ++ [0, 1] ++ leBytes 4 3 ++ leBytes 4 0 ++ leBytes 8 0
def image (c : Nat) : List Byte := imageTop c ++ shake 64 [] ++ leBytes 168 0
theorem leBytes_length : ∀ n v, (leBytes n v).length = n
  | 0, _ => rfl
  | n + 1, v => by simp [leBytes, leBytes_length n]
theorem image_length (c : Nat) : (image c).length = 256 := by
  simp only [image, imageTop, List.length_append, leBytes_length, shake_length]; rfl
theorem image_digest (c : Nat) (hp : imPayload (image c) = []) : shake 64 (imPayload (image c)) = imDigest (image c) := by
  rw [hp]; exact (slice_mid (imageTop c) (shake 64 []) (leBytes 168 0) 64 (shake_length 64 [])).symm
theorem test_image : imageWhole 2 (image 2) = true := by
  have h := image_digest 2 (by decide +kernel)
  have hb : (leAt (image 2) 0 4 == 0x4756494D && imComponent (image 2) == 2 && decide (256 ≤ 256) && decide (leAt (image 2) 16 8 ≤ 256 - 256)) = true := by decide +kernel
  simp only [imageWhole, image_length, hb, h, beq_self_eq_true, Bool.and_true]
/-- The signature check of an image is the part's own, so it stands as a hypothesis. -/
theorem test_imageOk (h : Config.rootVerify 0 (sliceB (image 1) 0 96) (sliceB (image 1) 96 114) = true) : imageOk {} 1 0 (image 1) = true := by
  have hd := image_digest 1 (by decide +kernel)
  have hb : (leAt (image 1) 0 4 == 0x4756494D && imComponent (image 1) == 1 && decide (256 ≤ 256) && decide (leAt (image 1) 16 8 ≤ 256 - 256)) = true := by decide +kernel
  have hk : imKey (image 1) = 0 := by decide +kernel
  have hs : imSvn (image 1) = 3 := by decide +kernel
  have hw : imageWhole 1 (image 1) = true := by simp only [imageWhole, image_length, hb, hd, beq_self_eq_true, Bool.and_true]
  simp [imageOk, hw, hk, hs, h]
theorem test_partLoad :
    let s := fw (fun d => d.setWord (offGc + 0x10C) 2)
    let o := fw (fun d => { (d.setWord (offGc + 0x10C) 2).setWord (offGc + 0x104) 3 with gc := { d.gc with parts := [1] } })
    go (.partLoad 0 1 3 (image 2)) s = true ∧ s.dev.partClusters 3 = 2 ∧ reply (after (.partLoad 0 1 3 (image 2)) svc0) 0 = [1, 2, 0] ∧ reply (after (.partLoad 0 1 8 (image 2)) s) 0 = [1, 2, 0] ∧
    reply (after (.partLoad 0 1 3 (image 2)) o) 0 = [1, 3, 0] ∧ reply (after (.partLoad 0 1 3 []) s) 0 = [1, 4, 0] := by decide +kernel
theorem test_partLoad_loads : let s := fw (fun d => d.setWord (offGc + 0x10C) 2)
    (s.dev.partLoad 3 (image 2)).1 = 0 ∧ (s.dev.partLoad 3 (image 2)).2.2.gc.parts = [3] := by
  have h (d : Dev) : d.partLoad 3 (image 2) = if 8 ≤ 3 ∨ d.partClusters 3 = 0 then Machine.answer svInvalid d else if (d.gc.parts.any (fun o => o != 3 && (d.partClusters o &&& d.partClusters 3) != 0) ||
      (match d.gc.update with | some u => decide (6 ≤ u.cluster) && fbit (d.partClusters 3) (u.cluster - 6) | none => false)) = true then Machine.answer svBusy d else
      let d1 := (d.closeAgainst 11).modSec (fun s => { s with meas := mapDel s.meas 11 })
      Machine.answer svOk ((d1.measPut 11 (imDigest (image 2))).modGc (fun g => { g with parts := if g.parts.contains 3 then g.parts else 3 :: g.parts })) := by
    simp only [Dev.partLoad, test_image]; rfl
  simp only [h]; decide +kernel
theorem test_fwUpdate :
    let v := fw (fun d => { d with pci := { d.pci with vfEnable := true, numVfs := 4 } })
    let b := fw (fun d => { d with gc := { d.gc with moved := [2] } })
    go (.fwUpdate 1 1 2 []) svc0 = true ∧ reply (after (.fwUpdate 1 1 2 []) v) 1 = [1, 1, 0] ∧ reply (after (.fwUpdate 1 1 8 []) svc0) 1 = [1, 2, 0] ∧ b.dev.updateBusy 2 = true ∧
    reply (after (.fwUpdate 1 1 2 []) b) 1 = [1, 3, 0] ∧ svc0.dev.updateBusy 2 = false ∧ reply (after (.fwUpdate 1 1 2 []) svc0) 1 = [1, 4, 0] ∧ flag (after (.fwUpdate 1 1 2 []) svc0) evSec 1 = true ∧
    go (.pldmFirmwareUpdate 2 []) svc0 = true ∧ flag (after (.pldmFirmwareUpdate 2 []) svc0) evSec 1 = true ∧ after (.pldmFirmwareUpdate 2 []) b = b := by decide +kernel
theorem test_clusterFailover :
    let b := fw (fun d => { d with gc := { d.gc with moved := [3] } })
    go (.clusterFailover 2) svc0 = true ∧ (after (.clusterFailover 2) svc0).dev.gc.failed = [2] ∧ after (.clusterFailover 2) b = b ∧ after (.clusterFailover 6) svc0 = svc0 := by decide +kernel

/-- A part whose general cores run, with node 9 in window 0. -/
def cores (f : Dev → Dev) : State := fw (fun d => f ((d.setWord offGc 0xFF).setWord (offGc + 0x200) 0x80000009))
def core0 : State := cores id
theorem test_gcAccess :
    let w := Instr.gcAccess 1 true 0x8000 (.write [1, 2, 3, 4, 5, 6, 7, 8])
    let reg := BitVec.ofNat 64 (regBase + offPci + 4)
    let c := Instr.gcAccess 1 true reg (.write [3, 0, 0, 0])
    let p := cores (fun d => { d.setWord (offGc + 0x100) 1 with gc := { d.gc with parts := [0] } })
    go w core0 = true ∧ core0.dev.coreAddr 0x8000 = .here 0x8000 ∧ bytesInMem (after w core0).dev 0x8000 2 = [1, 2] ∧ go c core0 = true ∧ (after c core0).dev.word (offPci + 4) = 3 ∧
    (after (.gcAccess 1 true reg (.read 4)) (after c core0)).dev.out.head? = some (.access (core0.dev.coreWho 1) 0 [3, 0, 0, 0]) ∧ after (.gcAccess 5 true reg (.read 4)) svc0 = svc0 ∧
    p.dev.corePart 24 = some 0 ∧ go (.gcAccess 24 true reg (.read 4)) p = true ∧ ((after (.gcAccess 24 true reg (.read 4)) p).dev.out.map (fun o => match o with | .access _ s _ => s | _ => 0)) = [1] := by decide +kernel
theorem test_gcAccess_far :
    let far : State := at' (peer.dev.setWord (offGc + 0x200) 0x80000009)
    let a := BitVec.ofNat 64 (2 ^ 54 + 0x100)
    let h := BitVec.ofNat 64 (2 ^ 55 + 0x100)
    core0.dev.coreAddr a.toNat = .remote 9 0x100 ∧ go (.gcAccess 1 true a (.read 8)) core0 = true ∧ far.dev.coreAddr a.toNat = .remote 9 0x100 ∧ ((after (.gcAccess 1 true a (.read 8)) far).dev.lnk.requests.map (fun r => (r.ep, r.pk.dst))) = [(137, 9)] ∧
    core0.dev.coreAddr h.toNat = .host 0x100 ∧ go (.gcAccess 1 true h (.write [1])) core0 = true ∧ (after (.gcAccess 1 true h (.write [1])) core0).dev.out.getLast? = some (.dmaWrite 0 0x100 [1]) ∧
    core0.dev.coreAddr (2 ^ 50) = .bad ∧ go (.amoRelease 1 0x8000 5) core0 = true ∧ core0.dev.coreReleases 1 0 = true ∧ bytesInMem (after (.amoRelease 1 0x8000 5) core0).dev 0x8000 1 = [5] := by decide +kernel

/-- Ring 1 of engine 2, enabled for context 3, with one descriptor. -/
def ring (b : List Byte) : State :=
  let d := ((at' fe0).dev.setWord (offRing 2 1 + 8) 0x80000034).setWord (offRing 2 1 + 0xC) 1
  at' { d.setWord (offRing 2 1) 0x4000 with mem := { d.mem with hbm := (List.range 64).filterMap (fun i => if listGet 0 b i = 0 then none else some (0x4000 + i, listGet 0 b i)) ++ [(0x5000, 7), (0x5001, 9)] } }
/-- A copy of two bytes from 0x5000 to 0x6000, its status to 0x7000. -/
def copy2 (flags key : Nat) : List Byte := leBytes 4 flags ++ leBytes 4 key ++ leBytes 16 0 ++ leBytes 8 0x5000 ++ leBytes 4 2 ++ leBytes 4 16 ++ leBytes 8 0x6000 ++ leBytes 8 0 ++ leBytes 8 0x7000
theorem test_ingest_copy :
    let c := Instr.ingestDescriptor 2 1 []
    let s := ring (copy2 0 0)
    let t := after c s
    let e := after (.ingestEnd 2) t
    go c s = true ∧ s.dev.ringNext 2 = some 1 ∧ (t.dev.ingest 2).work = some { ring := 1, owner := 3, desc := copy2 0 0, status := 0, output := [7, 9] } ∧ bytesInMem t.dev 0x6000 2 = [7, 9] ∧ after c t = t ∧
    go (.ingestEnd 2) t = true ∧ (e.dev.ingest 2).done = 1 ∧ e.dev.ringHead 2 1 = 1 ∧ flag e (evIng 2) 0 = true ∧ bytesInMem e.dev 0x7000 9 = [0, 0, 0, 0, 0, 0, 0, 0, 2] ∧ after (.ingestEnd 2) s = s := by decide +kernel
theorem test_ingest_refused :
    let w (b : List Byte) := ((after (.ingestDescriptor 2 1 []) (ring b)).dev.ingest 2).work.map (fun w => (w.status, w.output))
    inBad (copy2 8 0) = true ∧ w (copy2 8 0) = some (6, []) ∧ w (copy2 1 5) = some (4, []) ∧ flag (after (.ingestEnd 2) (after (.ingestDescriptor 2 1 []) (ring (copy2 1 5)))) (evIng 2) 2 = true := by decide +kernel
theorem test_ingest_rings :
    let t := after (.ingRingTail (.func 0) 2 1 7) (ring (copy2 0 0))
    let x := after (.ingRingDisable (.func 0) 2 1 0x34) (ring (copy2 0 0))
    go (.ingRingTail (.func 0) 2 1 7) (ring []) = true ∧ t.dev.word (offRing 2 1 + 0xC) = 7 ∧ go (.ingRingDisable (.func 0) 2 1 0x34) (ring []) = true ∧ x.dev.ringOn 2 1 = false ∧ x.dev.ringNext 2 = none := by decide +kernel

/-! ## Registers -/

theorem ref_not_covered (w : Nat × Nat) (h : w ∈ coveredWords) : w.1 ≠ 0x10008 := by
  have ht : regTable.all (fun r => r.y == 0 || decide (0x10008 < r.base) || (dimsAll r.dims).all (fun o => r.base + o != 0x10008)) = true := by decide +kernel
  simp only [coveredWords, List.mem_mergeSort, List.mem_flatMap, List.mem_map, List.mem_filter] at h
  obtain ⟨r, ⟨hr, hy⟩, o, ho, rfl⟩ := h
  have := List.all_eq_true.1 ht r hr
  simp only [Bool.or_eq_true, decide_eq_true_eq, List.all_eq_true, bne_iff_ne, beq_iff_eq] at this hy
  rcases this with (hz | hb) | ha
  · exact absurd hz hy
  · show r.base + o ≠ 0x10008
    omega
  · exact ha o ho
/-- The part with its configuration check comparing, and the reference at what a pass finds. -/
def comparing : State := at' { regs := { crcMode := .comparing, words := [(0x10004, 3)] } }
theorem crc_of_ref (d : Dev) (v : W32) : (d.setWord 0x10008 v).crcResult = d.crcResult := by
  unfold Dev.crcResult List.flatMap
  congr 2
  exact List.map_congr_left fun w hw => by rw [Dev.setWord_word_ne _ _ _ _ (ref_not_covered w hw)]
def refOf (v : W32) : State := at' (comparing.dev.setWord 0x10008 v)
theorem test_crcPass_compare :
    (refOf comparing.dev.crcResult).dev.crcResult = (refOf comparing.dev.crcResult).dev.word 0x10008 ∧
    (refOf (comparing.dev.crcResult + 1)).dev.crcResult ≠ (refOf (comparing.dev.crcResult + 1)).dev.word 0x10008 := by
  simp [refOf, at', crc_of_ref]
theorem test_crcPass :
    let s := at' { regs := { crcMode := .committing, words := [(0x10004, 5)] } }
    let t := after .crcPass s
    go .crcPass s = true ∧ t.dev.regs.crcPasses = 1 ∧ t.dev.regs.crcArmed = true ∧ t.dev.word 0x10008 = s.dev.word 0x10008 := by decide +kernel
theorem test_crc_commands :
    let w := Instr.crcRefWrite (.func 0) 77
    let h := after (.crcHold (.func 0) 5) (at' {})
    let c := after (.crcCommit (.func 0) 9) h
    go (.crcHold (.func 0) 5) (at' {}) = true ∧ h.dev.regs.crcMode = .holding ∧ fbit (h.dev.word 0x10004) 2 = true ∧ go w h = true ∧ (after w h).dev.word 0x10008 = 77 ∧ (after w (at' {})).dev.word 0x10008 = 0 ∧
    go (.crcCommit (.func 0) 9) h = true ∧ c.dev.regs.crcMode = .committing ∧ c.dev.regs.crcArmed = false := by decide +kernel
theorem test_registerWrite :
    let c (v : W32) := Instr.registerWrite (.func 0) 0x2500000 v
    let s := at' {}
    go (c 64) s = true ∧ s.dev.reaches (.func 0) 0x2500000 = true ∧ (after (c 64) s).dev.word 0x2500000 = 64 ∧ (after (c 100) s).dev.word 0x2500000 = 0 ∧ flag (after (c 100) s) 0x10018 4 = true ∧ evCfg = 0x10018 ∧
    go (.registerWrite (.func 2) 0x2500000 1) s = true ∧ s.dev.reaches (.func 2) 0x2500000 = false ∧ after (.registerWrite (.func 2) 0x2500000 1) s = s := by decide +kernel
theorem test_plainRegister : PlainRegister {} 0x2500000 ∧ (findRow 0x2500000).isSome = true ∧ ((findRow 0x2500000).map (fun r => (r.inRange 64, r.inRange 100))) = some (true, false) := by
  simp only [PlainRegister]; decide +kernel
theorem test_shadow :
    let s := at' { regs := { words := [(0x10000, 1), (0x2500008, 3), (0x250000C, 4)] } }
    let t := after (.shadowReadLo (.func 0) 0x2500008) s
    go (.shadowReadLo (.func 0) 0x2500008) s = true ∧ s.dev.shadow64 = true ∧ isLo 0x2500008 = true ∧ t.dev.out = [.readData (.func 0) [3, 0, 0, 0]] ∧
    ((t.dev.setWord 0x250000C 9).regFetch t.life (.func 0) 0x250000C).1 = 4 := by decide +kernel
theorem test_staged :
    let lo := after (.stagedWriteLo (.func 0) 0x2500008 5) (at' {})
    let hi := after (.stagedWriteHi (.func 0) 0x250000C 6) lo
    go (.stagedWriteLo (.func 0) 0x2500008 5) (at' {}) = true ∧ isPairLo 0x2500008 = true ∧ isPairHi 0x250000C = true ∧ lo.dev.word 0x2500008 = 0 ∧ go (.stagedWriteHi (.func 0) 0x250000C 6) lo = true ∧
    hi.dev.word 0x2500008 = 5 ∧ hi.dev.word 0x250000C = 6 ∧ hi.dev.regs.staged = [] := by decide +kernel
theorem test_sequenceClear :
    let s := at' { regs := { events := [(evPci, { flags := 9, seq := 2 })] } }
    let c (v : W32) := Instr.sequenceClear (.func 0) evPci v
    go (c 0x20001) s = true ∧ (after (c 0x20001) s).dev.event evPci = { flags := 8, seq := 2 } ∧ (after (c 0x10001) s).dev.event evPci = { flags := 9, seq := 2 } ∧ (after (c 0x10001) s).dev.regs.sqStale = 1 := by decide +kernel
theorem test_seqAdvancePending :
    let s (k : Nat) := at' { clk := k, regs := { events := [(evPci, { flags := 1, seq := 2, last := some 100, pend := some 6 })] } }
    go (.seqAdvancePending evPci) (s 0) = true ∧ (after (.seqAdvancePending evPci) (s 65636)).dev.event evPci = { flags := 7, seq := 3, last := some 65636 } ∧ after (.seqAdvancePending evPci) (s 65635) = s 65635 := by decide +kernel

/-! ## Power and clocks -/

def pw (q : QuadPwr) (f : Dev → Dev) : State := at' (f { boot := { firmware := true, stage := 5 }, pwr := { quads := [(1, q)] }, ft := { now := 0x10000000 } })
def quad1 (t : State) : QuadPwr := t.dev.quad 1
theorem test_ceilingEvaluate :
    let c := Instr.ceilingEvaluate 1
    let lo := pw { ceil := 1700 } id
    let hi := pw { ceil := 2000 } id
    go c lo = true ∧ lo.dev.ceilWanted 1 = 1750 ∧ (quad1 (after c lo)).rise = some (1750, 0x10000000) ∧ (quad1 (after c lo)).ceil = 1700 ∧ (quad1 (after c hi)).ceil = 1750 ∧ (quad1 (after c hi)).fell = some 0x10000000 ∧
    after c (pw {} id) = pw {} id := by decide +kernel
theorem test_ceilingRise :
    let s := pw { ceil := 1700, rise := some (1750, 3) } (fun d => d.setWord offPwr 0xF)
    go (.ceilingRise 1) s = true ∧ s.dev.pwrOn 1 = true ∧ (quad1 (after (.ceilingRise 1) s)).ceil = 1750 ∧ (quad1 (after (.ceilingRise 1) s)).rise = none ∧ (quad1 (after (.ceilingRise 1) s)).gust.isSome = true ∧
    go (.riseTimeout 1) s = true ∧ quad1 (after (.riseTimeout 1) s) = { ceil := 1700 } := by decide +kernel
theorem test_voltageLower :
    let s := pw { ceil := 1600, fell := some 3 } id
    go (.voltageLower 1) s = true ∧ (quad1 (after (.voltageLower 1) s)).fell = none ∧ (quad1 (after (.voltageLower 1) s)).volt = 1600 ∧ (after (.voltageLower 1) s).dev.out.length = 1 ∧ after (.voltageLower 1) (pw {} id) = pw {} id := by decide +kernel
theorem test_avsPoll :
    let c (r : Option AvsReply) := Instr.avsPoll 2 r
    let s (x : AvsRail) := pw {} (fun d => { d with pwr := { d.pwr with rails := [(2, x)] } })
    let a : AvsReply := { mv := 800, deciA := 9, degC := 50, status := 1, fault := false }
    go (c none) (s {}) = true ∧ go (c (some a)) (s {}) = true ∧ ((after (c none) (s { silent := 2 })).dev.rail 2).fault = true ∧ flag (after (c none) (s { silent := 2 })) evPwr 5 = true ∧
    ((after (c none) (s { silent := 1 })).dev.rail 2).fault = false ∧ ((after (c (some a)) (s { fault := true, good := 2 })).dev.rail 2).fault = false ∧ ((after (c (some a)) (s {})).dev.rail 2).mv = 800 := by decide +kernel
theorem test_gusts :
    let s := pw { gust := some 5 } id
    let w : WaitState := { what := .time 0x10000010 true true, seq := 4, pc := 0, bank := 0, word := 0, sig := none }
    let g := pw {} (fun d => { d.setWord offPwr 2 with tiles := [(17, ({ h0 := { wait := some w } } : TileState))] })
    go (.gustRelease 1) s = true ∧ quad1 (after (.gustRelease 1) s) = {} ∧ after (.gustRelease 1) (pw {} id) = pw {} id ∧
    go (.gustTrigger 1) g = true ∧ g.dev.warnings 1 = [(34, 4, true)] ∧ (after (.gustTrigger 1) g).dev.pwr.warned = [(34, 4, true)] ∧ (quad1 (after (.gustTrigger 1) g)).gust.isSome = true := by decide +kernel
theorem test_droop :
    let s := pw {} (fun d => d.setWord offPwr 4)
    go (.droop 3 7) s = true ∧ mapGet 0 (after (.droop 3 7) s).dev.pwr.droops 3 = 7 ∧ flag (after (.droop 3 7) s) evPwr 4 = true ∧ after (.droop 3 7) (pw {} (fun d => d.setWord offPwr 0)) = pw {} (fun d => d.setWord offPwr 0) := by decide +kernel
theorem test_currentEstimate :
    let s (q : QuadPwr) := pw q (fun d => (d.setWord offPwr 8).setWord (offPwr + 0x124) 500)
    let c (a : Nat) := Instr.currentEstimate 1 a
    go (c 600) (s {}) = true ∧ (s {}).dev.ilimit 1 = 500 ∧ (quad1 (after (c 600) (s {}))).current = 2100 ∧ (quad1 (after (c 600) (s { overs := 1 }))).current = 2000 ∧ flag (after (c 600) (s { overs := 1 })) evPwr 3 = true ∧
    (quad1 (after (c 400) (s { current := 1000 }))).current = 1050 ∧ (quad1 (after (c 600) (pw { current := 1000 } (fun d => d.setWord offPwr 0)))).current = 2100 := by decide +kernel
theorem test_thermalResponse :
    let c (t : Nat) := Instr.thermalResponse 1 t
    go (c 90) (pw {} id) = true ∧ (quad1 (after (c 112) (pw {} id))).thermal = 500 ∧ flag (after (c 112) (pw {} id)) evPwr 2 = true ∧ (quad1 (after (c 90) (pw { thermal := 1750, warm := true } id))).thermal = 2100 ∧
    (quad1 (after (c 96) (pw {} id))).warm = true ∧ (quad1 (after (c 96) (pw {} id))).thermal = 1750 ∧ go .thermtrip (pw {} id) = true ∧ (after .thermtrip (pw {} id)).dev.alive = false := by decide +kernel
theorem test_clocks :
    let u := after (.pllUnlock 1) (pw {} id)
    let r := after .refLost (pw {} (fun d => { d with ft := { d.ft with mode := .locked } }))
    let x := at' { lnk := { ports := [(3, up), (11, up)] } }
    let l := after (.sdrefLost 1) x
    go (.pllUnlock 1) (pw {} id) = true ∧ quad1 u = { unlocked := true } ∧ flag u evClk 0 = true ∧ go (.pllRelock 1) u = true ∧ quad1 (after (.pllRelock 1) u) = {} ∧ (after (.pllRelock 1) u).dev.pwr.locks.getLsbD 1 = true ∧
    go .refLost (pw {} id) = true ∧ r.dev.ft.mode = .acquire ∧ r.dev.faultPin = true ∧ (after .refLost (pw {} id)).dev.ft.mode = .free ∧
    go (.sdrefLost 1) x = true ∧ (l.dev.port 11).mode = .retrain ∧ (l.dev.port 3).mode = .active ∧ flag l evClk 2 = true := by decide +kernel
theorem test_stackTemperature :
    let c (t : Nat) := Instr.stackTemperature 2 t
    go (c 96) (at' {}) = true ∧ ((after (c 96) (at' {})).dev.stack 2).temp = 96 ∧ flag (after (c 96) (at' {})) (evMem 2) 8 = true ∧ flag (after (c 95) (at' {})) (evMem 2) 8 = false := by decide +kernel

/-! ## Availability -/

def ras (f : RasState → RasState) : State := at' { regs := { words := [(offRas, 1)] }, ras := f {} }
theorem test_faultLog :
    let e : LogItem := { block := 4, kind := 2, unit := 5, time := 6, addr := 7, info := 8, record := [] }
    let s := ras (fun r => { r with log := [e] })
    let t := after .faultLogCommit s
    let o := at' { regs := { words := [(offRas, 0)] }, ras := { log := [e] } }
    go .faultLogCommit s = true ∧ t.dev.ras.count = 1 ∧ mapGet 0 t.dev.mem.hbm 0 = 1 ∧ mapGet 0 t.dev.mem.hbm 4 = 4 ∧ mapGet 0 t.dev.mem.hbm 5 = 2 ∧ flag t evRas 0 = true ∧ t.dev.ras.log = [] ∧
    (after .faultLogCommit o).dev.ras = {} ∧ after .faultLogCommit (at' {}) = at' {} := by decide +kernel
theorem test_faultLog_refused :
    let e : LogItem := { block := 4, kind := 2, unit := 5, time := 6, addr := 7, info := 8, record := [] }
    let s := at' { regs := { words := [(offRas, 1), (offRas + 0x10, 0), (offRas + 0x14, 0xF00)] }, ras := { log := [e] } }
    let t := after .faultLogCommit s
    go .faultLogCommit s = true ∧ t.dev.ras.count = 0 ∧ flag t evRas 1 = true := by decide +kernel
theorem test_bridges :
    let b (x : BridgeState) := ras (fun r => { r with bridges := [(2, x)] })
    go (.bridgeLaneSwap 2) (b {}) = true ∧ (after (.bridgeLaneSwap 2) (b {})).dev.bridge 2 = { spares := 1 } ∧ flag (after (.bridgeLaneSwap 2) (b {})) evRas 6 = true ∧
    (after (.bridgeLaneSwap 2) (b { spares := 2 })).dev.bridge 2 = { spares := 2, lost := true } ∧ go (.bridgeLost 2) (b {}) = true ∧ (after (.bridgeLost 2) (b { spares := 2 })).dev.bridge 2 = { spares := 2, lost := true } ∧
    flag (after (.bridgeLost 2) (b { spares := 2 })) evRas 7 = true ∧ after (.bridgeLost 2) (b { spares := 1 }) = b { spares := 1 } ∧ after (.bridgeLaneSwap 2) (b { lost := true }) = b { lost := true } := by decide +kernel
/-- RAS_TILE_CMD of tile 5 on a target, with COPY. -/
def retireWord (target : Nat) (copy : Bool) : W32 := BitVec.ofNat 32 (5 + 128 * target + (if copy then 16384 else 0))
theorem test_tileRetire :
    let c (g : Nat) := Instr.tileRetire (.func 0) (retireWord g true)
    let none' := ras (fun r => { r with ptiles := [(17, { mode := some .retired }), (35, { mode := some .retired }), (53, { mode := some .retired }), (71, { mode := some .retired })] })
    let t := after (c 0x7F) (at' {})
    go (c 0x7F) (at' {}) = true ∧ (at' {}).dev.chooseSpare ((at' {}).dev.quadOf 5) = some 17 ∧ t.dev.ras.newPhys = 17 ∧ t.dev.ras.status = 1 ∧ t.dev.physMode 5 = .retiring ∧
    (after (c 35) (at' {})).dev.ras.newPhys = 35 ∧ (after (c 4) (at' {})).dev.ras.result = 3 ∧ none'.dev.chooseSpare 0 = none ∧ (after (c 0x7F) none').dev.ras.result = 1 ∧ flag (after (c 0x7F) none') evRas 4 = true ∧
    (after (c 35) t).dev.ras = t.dev.ras := by decide +kernel
def job (p : RetirePhase) (copy : Bool) (bad : List Nat) (m : HalfMode) : State :=
  at' { ras := { status := 1, job := some { tile := 5, old := 5, target := 17, copy := copy, phase := p } }, tiles := [(5, ({ tmem := [(1, 2)], bad := bad, h0 := { mode := m } } : TileState))] }
theorem test_tileQuiesced :
    let c := Instr.tileQuiesced
    go c (job .quiet true [] .idle) = true ∧ (job .quiet true [] .idle).dev.tile 5 = (after c (job .quiet true [] .idle)).dev.tile 5 ∧ ((after c (job .quiet true [] .idle)).dev.ras.job.map TileJob.phase) = some .copy ∧
    (after c (job .quiet false [] .idle)).dev.tile 5 = {} ∧ (after c (job .quiet true [1] .idle)).dev.ras.result = 2 ∧ after c (job .quiet true [] .run) = job .quiet true [] .run ∧ after c (at' {}) = at' {} := by decide +kernel
theorem test_tile_moves :
    let s := after .tileCopyComplete (job .copy true [] .idle)
    let t := after .oldTileCleared s
    go .tileCopyComplete (job .copy true [] .idle) = true ∧ s.dev.physOf 5 = 17 ∧ s.dev.physMode 17 = .active ∧ s.dev.physOf 4 = 4 ∧ go .oldTileCleared s = true ∧ t.dev.physMode 5 = .retired ∧ t.dev.ras.status = 2 ∧
    flag t evRas 3 = true ∧ after .oldTileCleared (job .copy true [] .idle) = job .copy true [] .idle := by decide +kernel

/-! ## Start-up -/

def off : State := at' { boot := { powered := false }, mem := { hbm := [(1, 2)] } }
theorem test_power :
    let u := after .powerUp off
    let l := after .powerLoss { at' fe0 with life := { debugOpen := true, debugCount := 3 } }
    u.dev.boot = { powered := true, resetHigh := false, perstLow := true } ∧ u.dev.mem = {} ∧ after .powerUp (at' fe0) = at' fe0 ∧ l.life = { debugCount := 3 } ∧ l.dev.fe = {} ∧ l.dev.boot.powered = false ∧
    after .sysReset off = off := by decide +kernel
theorem test_sysReset :
    let t := after .sysReset { at' fe0 with life := { debugOpen := true, debugCount := 3 } }
    t.life.debugOpen = true ∧ t.dev.alive = false ∧ t.dev.fe = {} ∧ t.dev.regs = {} ∧ t.dev.boot.perstLow = true := by decide +kernel
theorem test_rom :
    let c (f g : Bool) (a : List Byte) := Instr.sysResetRelease f g a []
    (after (c false true []) (at' {})).dev.boot.stage = 0x83 ∧ (after (c true false []) (at' {})).dev.boot.stage = 0x84 ∧ (after (c true true []) (at' {})).dev.boot.stage = 0x80 ∧
    (after (c true true []) (at' {})).dev.sec.udsLocked = true ∧ (after (c true true []) (at' {})).dev.meas 0 = (at' {}).dev.meas 0 ∧ (after (c true true []) (at' {})).dev.alive = true := by decide +kernel
/-- With a good signature, the loader's first copy is taken. -/
theorem test_rom_takes (h : Config.rootVerify 0 (sliceB (image 0) 0 96) (sliceB (image 0) 96 114) = true) : imageOk {} 0 0 (image 0) = true := by
  have hd := image_digest 0 (by decide +kernel)
  have hb : (leAt (image 0) 0 4 == 0x4756494D && imComponent (image 0) == 0 && decide (256 ≤ 256) && decide (leAt (image 0) 16 8 ≤ 256 - 256)) = true := by decide +kernel
  have hk : imKey (image 0) = 0 := by decide +kernel
  have hs : imSvn (image 0) = 3 := by decide +kernel
  have hw : imageWhole 0 (image 0) = true := by simp only [imageWhole, image_length, hb, hd, beq_self_eq_true, Bool.and_true]
  simp [imageOk, hw, hk, hs, h]
theorem test_loaderStart :
    let six : List (List Byte × List Byte) := List.replicate 6 ([], [])
    let s := at' { boot := { stage := 2 }, mem := { hbm := [(1, 2)] } }
    let t := after (.loaderStart true true six [7]) s
    go (.loaderStart true true six [7]) s = true ∧ t.dev.boot.stage = 0x81 ∧ t.dev.mem.hbm = [] ∧ (t.dev.stack 3).trained = true ∧ (after (.loaderStart true false six []) s).dev.boot.stage = 0x82 ∧
    after (.loaderStart true true six []) (at' {}) = at' {} := by decide +kernel
theorem test_firmwareStart :
    let s := at' { boot := { stage := 3 } }
    let t := after (.firmwareStart [(5, 35)] [(2, 7, 9)]) s
    go (.firmwareStart [(5, 35)] [(2, 7, 9)]) s = true ∧ t.dev.boot.stage = 6 ∧ t.dev.boot.firmware = true ∧ t.dev.physOf 5 = 35 ∧ after (.firmwareStart [] []) (at' {}) = at' {} := by decide +kernel
theorem test_ready :
    let s := at' { boot := { stage := 6, firmware := true, perstLow := false }, ft := { mode := .locked } }
    go .pcieConfigReady s = true ∧ (after .pcieConfigReady s).dev.pci.cfgReady = true ∧ (after .pcieConfigReady s).dev.boot.stage = 8 ∧ after .pcieConfigReady (at' {}) = at' {} ∧
    go .smbusStageRead s = true ∧ (after .smbusStageRead s).dev.out = [.smbus 6] := by decide +kernel

/-! ## The machine as a whole, and fabric time -/

theorem test_reset_invariants : DebugCounted State.reset ∧ Memory.wf State.reset.dev = true := ⟨⟨by decide, by decide⟩, by decide +kernel⟩
theorem test_step :
    let s : State := { at' fe0 with pending := [.hotReset, .dlDown] }
    step s = exec .hotReset { s with pending := [.dlDown] } := rfl
theorem test_idle :
    let s := at' { regs := { words := [(offFt + 0x10, 1)] }, ft := { now := 5, frac := 0x80000000, incr := 0x28080000000 } }
    let t := (match step s with | .next t => t | _ => s)
    s.dev.alive = true ∧ s.dev.ftEn = true ∧ t.dev.ft.now = 646 ∧ t.dev.ft.frac = 0 ∧ (at' { regs := { words := [(offFt + 0x10, 0)] } }).dev.ftEn = false ∧ off.dev.alive = false ∧ step off = .next off := by
  refine ⟨?_, ?_, ?_, ?_, ?_, ?_, rfl⟩ <;> decide +kernel
theorem test_dead : exec .hotReset off = .next off ∧ off.dev.alive = false ∧ isPin .hotReset = false := ⟨rfl, rfl, rfl⟩
theorem test_illFormed : (Instr.portEnable 32).wf = false ∧ after (.portEnable 32) (at' fe0) = at' fe0 := by decide +kernel
/-- A step after which the fuses stand otherwise: an image's number burnt. -/
theorem test_fuses :
    let s := secS .opened (fun d => { d with sec := { d.sec with stepSince := true, pendFw := some 7 } })
    let u := after .svnCommit { s with life := { fwSvn := 9 } }
    (after .svnCommit s).life.fwSvn = 7 ∧ u.life.fwSvn = 9 ∧ DebugCounted s := ⟨by decide +kernel, by decide +kernel, by decide, by decide⟩
theorem test_debugOpen_ends :
    let s : State := { at' fe0 with life := { debugOpen := true, debugCount := 1 }, pending := [.powerLoss] }
    (match step s with | .next t => t.life.debugOpen | _ => true) = false := by decide +kernel

def ft (f : FtState → FtState) (ctl : W32) (l : MapOf PortState) : State := at' { regs := { words := [(offFt + 0x10, ctl), (offFt + 0x50, 77), (offFt + 0x54, 0)] }, ft := f {}, lnk := { ports := l } }
theorem test_beatBoundary :
    let s := ft (fun f => { f with now := 0x180000, frac := 9 }) 1 []
    let t := after .beatBoundary s
    go .beatBoundary s = true ∧ t.dev.ft.now = 0x200000 ∧ t.dev.ft.frac = 0 ∧ after .beatBoundary (ft id 0 []) = ft id 0 [] := by decide +kernel
theorem test_noticeExpiry :
    let n (a : BitVec 44) (done : Bool) : HeldNotice := { notice := { requester := 3, number := 4, amount := 5, applyBeat := a }, applied := done }
    let s (x : HeldNotice) := ft (fun f => { f with now := 0x6400000, notices := [x] }) 1 []
    go (.noticeExpiry 3 4) (s (n 36 true)) = true ∧ (s (n 36 true)).dev.beatNo = 100 ∧ (after (.noticeExpiry 3 4) (s (n 36 true))).dev.ft.notices = [] ∧ after (.noticeExpiry 3 4) (s (n 37 true)) = s (n 37 true) ∧
    (after (.noticeExpiry 3 4) (s (n 36 false))).dev.ft.notices = [] := by decide +kernel
theorem test_fabric_states :
    let m := ft (fun f => { f with selfBest := 18 }) 1 []
    let l := ft (fun f => { f with mode := .acquire, inLock := 16 }) 1 []
    let p := ft (fun f => { f with mode := .locked, parent := some 3, missed := 8, master := some 9, heard := [(3, { node := 9, prio := 1, external := false, hops := 1 })] }) 1 []
    go .masterElected m = true ∧ m.dev.maxHops + 2 ≤ 18 ∧ m.dev.hearsBetter = false ∧ (after .masterElected m).dev.ft.mode = .master ∧ (after .masterElected m).dev.ft.master = some m.dev.node ∧
    go .lockAcquired l = true ∧ (after .lockAcquired l).dev.ft.mode = .locked ∧ flag (after .lockAcquired l) evFt 0 = true ∧
    go .parentLost p = true ∧ mapDel p.dev.ft.heard 3 = [] ∧ (after .parentLost p).dev.ft.mode = .holdover ∧ (after .parentLost p).dev.ft.parent = none ∧ after .parentLost l = l := by decide +kernel
theorem test_pps :
    let s := ft (fun f => { f with now := 5 }) 5 []
    let x := ft (fun f => { f with now := 5, mode := .master, epochArmed := true, ppsValid := true }) 7 []
    go .ftPpsEdge s = true ∧ s.dev.ppsEn = true ∧ (after .ftPpsEdge s).dev.ft.ppsCap = 5 ∧ (after .ftPpsEdge s).dev.ft.now = 5 ∧ x.dev.ftSrc = true ∧ (after .ftPpsEdge x).dev.ft.now = 77 ∧
    (after .ftPpsEdge x).dev.ft.external = true ∧ go .ppsMissing x = true ∧ (after .ppsMissing x).dev.ft.ppsValid = false ∧ (after .ppsMissing x).dev.ft.mode = .master ∧
    go (.ftEpochArm (.func 0) 3) s = true ∧ (after (.ftEpochArm (.func 0) 3) s).dev.ft.epochArmed = true := by decide +kernel
theorem test_ftDisable :
    let s := ft (fun f => { f with now := 5, mode := .locked, parent := some 3, members := [4] }) 1 []
    let t := after (.ftDisable (.func 0) 0) s
    go (.ftDisable (.func 0) 0) s = true ∧ t.dev.ftEn = false ∧ t.dev.ft.mode = .free ∧ t.dev.ft.members = [] ∧ t.dev.ft.now = 5 := by decide +kernel
theorem test_slips :
    let s := ft (fun f => { f with mode := .locked, now := 0x100000 }) 1 []
    let t := after (.slipRequest (.func 0) 2) s
    let n : SlipNotice := { requester := 3, number := 4, amount := 5, applyBeat := 6 }
    let p := ft id 1 [(3, { up with sameDomain := true })]
    go (.slipRequest (.func 0) 2) s = true ∧ s.dev.releasing = true ∧ t.dev.ft.notices.map (fun x => (x.notice.number, x.notice.amount)) = [(0, 2 * s.dev.slotFtu)] ∧
    flag (after (.slipRequest (.func 0) 2) (ft id 1 [])) evFt 6 = true ∧ go (.slip 3 n) p = true ∧ (p.dev.port 3).beats = true ∧ (after (.slip 3 n) p).dev.ft.notices.map HeldNotice.notice = [n] ∧
    (after (.slip 3 n) (after (.slip 3 n) p)).dev.ft.notices.length = 1 := by decide +kernel
theorem test_beats :
    let b : BeatBody := { stamp := 0, master := 9, prio := 1, external := false, hops := 0, parent := false, domain := 0 }
    let p := ft (fun f => { f with now := 1000 }) 1 [(3, { up with missed := 2 })]
    let c := Instr.probe 3 true 900 950 970
    go (.beatReceived 3 b) p = true ∧ ((after (.beatReceived 3 b) p).dev.port 3).missed = 0 ∧ go (.probeExchange 3) p = true ∧ (after (.probeExchange 3) p).dev.out.length = 1 ∧
    go c p = true ∧ ((after c p).dev.port 3).probes = 1 ∧ ((after c p).dev.port 3).rttSum = 80 := by decide +kernel
/-- What two additions to a bucket ask of the state. -/
theorem test_vat_order :
    let d := (vats [(1, bk .opened)] {} []).dev
    d.bucket 0 1 = some (bk .opened) ∧ d.mem.bad = [] ∧ d.mem.seals = [] ∧ mapWf 0 d.mem.hbm = true ∧ (bk .opened).data + 16 ≤ stackSize ∧
    (0 : Int).natAbs + (toVat (.fin 3 0) (-20)).1.natAbs + (toVat (.fin 5 (-1)) (-20)).1.natAbs ≤ 9223372036854775807 ∧ toVat (.fin 3 0) (-20) ≠ toVat (.fin 5 (-1)) (-20) := by decide +kernel

/-! ## Ill-formed commands: one for each check -/

theorem test_wf_indices :
    (Instr.portDrain 32).wf = false ∧ (Instr.tokWaitRelease 68 0).wf = false ∧ (Instr.tokWaitRelease 0 2).wf = false ∧ (Instr.churnBlock 8).wf = false ∧ (Instr.ceilingEvaluate 4).wf = false ∧
    (Instr.vfFlr 64).wf = false ∧ (Instr.atsInvalidate 65 0).wf = false ∧ (Instr.windowClose 1024).wf = false ∧ (Instr.cqDoorbell (.func 0) 256 0).wf = false ∧ (Instr.completionSeqWrite 320).wf = false ∧
    (Instr.zeroingDone 0 4096).wf = false ∧ (Instr.dispatch (.churn 8)).wf = false ∧ (Instr.dispatch (.tile 68 0)).wf = false ∧ (Instr.dispatch (.breeze 8)).wf = false := by decide +kernel
theorem test_wf_requesters :
    (Instr.crcRefWrite (.func 1) 0).wf = false ∧ (Instr.crcRefWrite (.core 32 true) 0).wf = false ∧ (Instr.crcRefWrite (.half 68 0) 0).wf = false ∧ (Instr.registerWrite (.func 65) 0 0).wf = false ∧
    (Instr.registerWrite (.func 0) 2 0).wf = false ∧ (Instr.registerWrite (.func 0) 0x4000000 0).wf = false ∧ (Instr.configurationRequest (.busMaster 65 true)).wf = false ∧ (Instr.configurationRequest (.busMaster 64 true)).wf = true := by decide +kernel
theorem test_wf_contents :
    (Instr.addi 0 0 0).wf = false ∧ (Instr.reservedOpcode 0 0 0).wf = false ∧ (Instr.atom 0 0 (wI 0x23 0 0 0)).wf = true ∧ (Instr.atomSig 0 0 (wI 0x23 0 0 0)).wf = false ∧ (Instr.write 3 (pkt 0x02 0 [])).wf = false ∧
    (Instr.packetReservedType 3 (pkt 0x02 0 [])).wf = false ∧ (Instr.controlOther 3 (pkt 0x22 1 [])).wf = false ∧ (Instr.createCq 0 (adm 2 0 0 0 0 0)).wf = false ∧ (Instr.createCq 0 [1]).wf = false ∧
    (Instr.invalidOpcode 0 (adm 1 0 0 0 0 0)).wf = false ∧ (Instr.retire (.func 0) 0 0x8000000).wf = false ∧ (Instr.crcHold (.func 0) 0).wf = false ∧ (Instr.crcCommit (.func 0) 0).wf = false := by decide +kernel
theorem test_wf_ranges :
    (Instr.tokenSignal 0 0 32).wf = false ∧ (Instr.moveDescriptor 0 8).wf = false ∧ (Instr.tileWindowAccess own 0 0x2000000 (.read 1)).wf = false ∧ (Instr.syncWordCommit own Config.watchWords (.read 8)).wf = false ∧
    (Instr.watchArm (.func 0) Config.watchEntries 0).wf = false ∧ (Instr.vaneBreak (.func 0) Config.vanes).wf = false ∧ (Instr.descriptorFetch 0 (some [1])).wf = false ∧ (Instr.swapReq 0 9).wf = false ∧
    (Instr.laneErrorCheck 0 [1]).wf = false ∧ (Instr.pcieLinkTrain 8 16 ⟨true, false⟩).wf = false ∧ (Instr.pcieLinkTrain 5 2 ⟨true, false⟩).wf = false ∧ (Instr.bar0Access 0 0 4 (some ⟨[1], false, false⟩)).wf = false ∧ (Instr.msixUnmask 1 32).wf = false ∧
    (Instr.getMeasurements [1]).wf = false ∧ (Instr.gcAccess 32 true 0 (.read 4)).wf = false ∧ (Instr.gcAccess 0 true (BitVec.ofNat 64 (2 ^ 56)) (.read 4)).wf = false ∧ (Instr.ingestEnd 4).wf = false ∧
    (Instr.avsPoll 6 none).wf = false ∧ (Instr.droop Config.physTiles 1).wf = false ∧ (Instr.bridgeLost 4).wf = false ∧ (Instr.loaderStart true true [] []).wf = false ∧ (Instr.firmwareStart [] [(8, 0, 0)]).wf = false := by decide +kernel
/-- What one activation row asks of the state, and what it adds: 3 × 1 + 1 × 2 to the 1 that stands in the slot. -/
theorem test_arrayRow :
    let p := aParams false (halfA.entry (wA 0x40 1 2 3 4 0 (6 * 8 + 6 * 128)))
    let a : APass := { nb := 0, kc := 0, ij := (0, 0) }
    let k : AMasks := { row := [], col := [] }
    let d := runA.dev.modTile 3 (TileState.loadStage 0 p k a)
    let u := d.tile 3
    let x := opElems p.af (u.actDirect 0 p 0 0).1 (u.actDirect 0 p 0 0).2 p.d p.k
    p.isDist = false ∧ p.isStrict = false ∧ p.win = false ∧ p.cols 0 = [0] ∧ p.colOn k 0 = true ∧ slotOver (u.stored 3 0) (u.tag 3) (u.laneRoots 0 p a x (u.actDirect 0 p 0 0).1 0) = false ∧
    ((d.arrayRow 3 0 p k a 0).tile 3).stored 3 0 = 0x40C00000 := by decide +kernel

/-! ## Witnesses of single clauses -/

theorem test_repairHolds :
    let s := at' { mem := { hbmStacks := [(0, { status := .busy, work := some (.sppr 0 5), pprBusy := true })] } }
    let c := Instr.memoryAccess own 0x100 (.read 2) .clean
    c.wf = true ∧ s.dev.alive = true ∧ s.dev.repairing = true ∧ (blocksOf [0x100]).any s.dev.repairs = true ∧ (s.dev.answerAccess own 0x100 (.read 2)).mem.stall = true ∧
    (after c s).dev.mem.held.length = 1 ∧ (after c s).dev.out = [] ∧ answer (after (.pprComplete 0 true) (after c s)) = some (stOk, [0, 0]) := by decide +kernel
theorem test_repairHolds_intake :
    let v := vats [(1, bk .opened)] {} []
    let p := (granOf (interOf 0 0x2000)).2.1
    let s := at' { v.dev with mem := { hbmStacks := [(0, { status := .busy, work := some (.sppr p 5), pprBusy := true })] } }
    s.dev.repairing = true ∧ (s.dev.intakeOp own 0 0x3040 (.write [0, 0, 0x80, 0x3F])).mem.stall = true ∧
    after (.contributionData own 0 0x3040 [0, 0, 0x80, 0x3F]) s = s := by decide +kernel
theorem test_flitsLeave :
    let d := (lnk up []).dev
    let pk := pkt 1 0 [1]
    let y := (d.sendOn 3 pk).port 3
    up.txq = [] ∧ up.txf = [[], [], [], []] ∧ up.credits.length = 8 ∧ d.txWorks 3 = true ∧ (bodyFlits 0 pk.cls (up.packetBytes (d.dress 3 pk))).length = 1 ∧
    y.replay = bodyFlits 0 pk.cls (up.packetBytes (d.dress 3 pk)) ∧ y.txSeq = 1 ∧ y.credits = [3, 4, 4, 4, 0, 0, 0, 0] := by decide +kernel
theorem test_framing :
    let x : PortState := { up with txLen := 4628 }
    let z : PortState := { up with txSlot := 16383 }
    (x.frameFlit []).txLen = 0 ∧ (x.frameFlit []).wire.length = 1 ∧ (up.frameFlit []).wire.length = 0 ∧ (z.frameFlit []).txSlot = 1 ∧ (z.frameFlit []).wire.length = 1 := by decide +kernel
theorem test_postedWrites :
    let w : HostWrite := { func := 0, op := .reg (offPci + 4) [2, 0, 0, 0] }
    let c (rx fl : Bool) := Instr.bar0Access 0 (offPci + 4) 4 (some ⟨[2, 0, 0, 0], rx, fl⟩)
    let out (y : SyncState) := at' { openFns.dev with sync := y }
    let one : SyncState := { hostOut := [w] }
    let full : SyncState := { hostOut := [w], hostHold := List.replicate 256 { w with func := 1 } }
    let e := Dev.hostLand {} w openFns.dev
    go (c false true) openFns = true ∧ (after (c false true) openFns).dev.sync = one ∧ (after (c false false) (out one)).dev.sync = { one with hostHold := [w], peak := 1 } ∧
    (after (c true true) (out one)).dev.sync.hostOut = [w, w] ∧ full.held = 256 ∧ answer (after (c false false) (out full)) = some (stRetry, []) ∧
    e.sync.hostHold = [] ∧ go (.writeLanded openFns.dev.node 197 1) (out one) = true ∧
    (after (.writeLanded openFns.dev.node 197 1) (out { one with hostHold := [w] })).dev.sync = {} ∧
    (after (.writeLanded openFns.dev.node 197 1) (out one)).dev.word (offPci + 4) = 2 := by decide +kernel
theorem test_checkpoint :
    let s := fw (fun d => { d with step := { d.step with group := some (grp false) }, mem := { d.mem with hbm := mapSet 0 (mapSet 0 d.mem.hbm 0x100 5) 0x8000 9 } })
    let c := Instr.checkpoint 0 1 5 ⟨0x9000, [(0x8000, 64)]⟩ false
    let t := after c s
    go c s = true ∧ (s.dev.saveRanges [(0x100, 64), (0x8000, 64)] 0x9000).1 = true ∧ bytesInMem t.dev 0x9000 1 = [5] ∧ bytesInMem t.dev 0x9040 1 = [9] ∧
    t.dev.step.checkpoint = some { step := 5, dest := 0x9000, ranges := [(0x100, 64), (0x8000, 64)] } := by decide +kernel
theorem test_stepReport_missing :
    let s := fw (fun d => { d with step := { d.step with group := some (grp false), absences := [(0, 1)], missing := 1 } })
    (s.dev.step.missingMap (grp false)) = [1] ∧ (s.dev.stepReport.2.1.length) = 4 := by decide +kernel
theorem test_gcAccess_busy :
    let far : State := at' (peer.dev.setWord (offGc + 0x200) 0x80000009)
    let a := BitVec.ofNat 64 (2 ^ 54 + 0x100)
    let c := Instr.gcAccess 1 true a (.read 8)
    let s := at' ((after c { far with dev := far.dev.setWord offGc 0xFF }).dev)
    s.dev.wordBusy 137 9 0x100 8 = true ∧ s.dev.wordBusy 137 9 0x108 8 = false ∧ after c s = s := by decide +kernel
theorem test_stepHolds :
    let s := at' { (fe { sq5 with buf := [(churnTask 0, 0)] } cq2) with step := { active := true, abandoned := true } }
    go (.dispatch (.churn 0)) s = true ∧ s.dev.stepHolds 168 = true ∧ after (.dispatch (.churn 0)) s = s := by decide +kernel
theorem test_topology_lost :
    let s0 := stepOf (grp false) id []
    let s := { s0 with dev := { s0.dev with mem := { hbm := grpBytes.zipIdx.foldl (fun m x => mapSet 0 m (0x200 + x.2) x.1) [(0x300, 1)] } } }
    let l := [(0, (churnDesc 0).take 104 ++ leBytes 8 0x7FFFFFFF000 ++ leBytes 8 0x7FFFFFFF000 ++ leBytes 8 0x9000)]
    let c := Instr.topologyChange ⟨0x200, l, []⟩
    go c s = true ∧ (s.dev.lostBlocks 0 l).any (fun x => x.failed || !mirrorGood 0 (x.parts.flatMap (fun p => p.2.getD []))) = true ∧
    (after c s).dev.step.unrecovered = true ∧ (after c s).dev.step.running = false := by decide +kernel
theorem test_tokenFull :
    let w := signals 2 0
    let s := onTile { half0 with tokens := [(2, 255)] }
    let g : GlobOp := { idx := 7, kind := .store false, dst := 5, node := 1, loc := 0, x := 0, c := 0, seq := 0, pc := 0, bank := 0, word := 0, sig := none, sent := true }
    let b := onTile { half0 with tokens := [(2, 255)], globs := [g] }
    go (.nop 3 0 w) s = true ∧ ents s 3 0 w [] = true ∧ ((s.dev.half 3 0).takeWait w).tokFull 2 = true ∧ flag (after (.nop 3 0 w) s) (evTil 3 0) fltIllegal = true ∧
    g.ofMove = false ∧ after (.nop 3 0 w) b = b := by decide +kernel
theorem test_fetchMends :
    let s := at' { tiles := [(3, { h0 := half0, weak := [winBank 0 + 40] })] }
    (s.dev.tile 3).weakIn (s.dev.fetchOff 3 0) 8 ≠ [] ∧ ((after (.nop 3 0 0) s).dev.tile 3).weak = [] := by decide +kernel
theorem test_move_waits :
    let e := mvOne false []
    let s := at' ((moving 1 e).dev.modHalf 3 0 (fun x => { x with halting := true }))
    go (.moveDescriptor 3 5) s = true ∧ s.dev.mvWaits 3 e = false ∧ after (.moveDescriptor 3 5) s = at' (s.dev.movePump 3 5) := by decide +kernel
theorem test_crossDomain_zeroing :
    let s (k : Bucket) := stepOf (grp false) attempt [] |> fun s0 => { s0 with dev := { s0.dev with eng := { buckets := [(1, k)] } } }
    bOf (after (.crossDomainTimeout 0 1) (s (bk .zeroing))) = some { bk .zeroing with flags := 32, closing := true } := by decide +kernel
theorem test_modeChange_draughts :
    let d := (after (.modeChange 3 true) (at' { tiles := [(3, tileV)], regs := { words := [(offTil 3 + 4, 2)] } })).dev
    let two := at' (({ d with tiles := [(3, { twin := true })] }.modEngine 6 (fun e => { e with draught := some task5 })).modEngine 7 (fun e => { e with draught := some task5 }))
    go (.modeChange 3 false) two = true ∧ after (.modeChange 3 false) two = two := by decide +kernel
theorem test_stopped_task :
    let s := at' ((fe0.modEngine 6 (fun e => { e with running := some { task5 with stop := some 2 } })).modHalf 3 0 (fun _ => { half0 with ended := some 0 }))
    s.dev.stopOf 3 0 = some 2 ∧ after (.taskFinish 3 0) s = s := by decide +kernel
/-- An array instruction in progress that is cut at no row, and at its first. -/
theorem test_partRun :
    let w := wA 0x40 1 2 3 4 0 (6 * 8 + 6 * 128)
    let s := after (.mma 3 0 w) runA
    let f := at' (s.dev.modHalf 3 0 (fun x => { x with fault := some illegalAt4 }))
    ((s.dev.half 3 0).undo).isSome = true ∧ slot3 (after (.halfFrozen 3 0 ⟨0, []⟩) f) = 0x3F800000 ∧ slot3 (after (.halfFrozen 3 0 ⟨1, []⟩) f) = 0x40C00000 := by decide +kernel

end Sys2Proof.Tests
end

section
/-! SUPPORT. What every command can do (01 R21, log 6): it is performed in one of three ways, and each of them answers, keeps the queue
and gives an ill-formed command no effect. -/
namespace Sys2Proof.Machine

variable {c : Instr} {s t : State}

/-- Each way of performing a command ends in a next state. -/
theorem perform_answers (wf : Bool) (s : State) (f : Life → Dev → Dev) : ∃ t, perform wf s f = .next t := ⟨_, rfl⟩
theorem performLife_answers (wf : Bool) (s : State) (f : Life → Dev → Life × Dev) : ∃ t, performLife wf s f = .next t := ⟨_, rfl⟩
theorem performPins_answers (wf : Bool) (s : State) (f : Life → Dev → Life × Dev) : ∃ t, performPins wf s f = .next t := ⟨_, rfl⟩

/-- An ill-formed command of the other two kinds changes nothing, as `perform_ill` says of the first. -/
theorem performLife_ill (f : Life → Dev → Life × Dev) : performLife false s f = .next s := by simp [performLife]
theorem performPins_ill (f : Life → Dev → Life × Dev) : performPins false s f = .next s := by simp [performPins]

/-- A command of the supply and reset pins acts by `performPins`. -/
theorem exec_of_isPin (h : isPin c = true) (s : State) : ∃ f, exec c s = performPins c.wf s f := by
  unfold isPin at h
  split at h
  · exact ⟨_, exec_powerUp s⟩
  · exact ⟨_, exec_powerLoss s⟩
  · exact ⟨_, exec_sysReset s⟩
  · exact ⟨_, exec_sysResetRelease s _ _ _ _⟩
  · exact ⟨_, exec_perst s _⟩
  · contradiction

/-- A command that reaches what survives a reset, but is none of the pins', acts by `performLife`. -/
theorem exec_of_reachesLife (h : reachesLife c = true) (hp : isPin c = false) (s : State) :
    ∃ f, exec c s = performLife c.wf s f := by
  unfold reachesLife at h
  split at h
  · exact ⟨_, exec_debugOpening s _ _ _ _⟩
  · exact ⟨_, exec_svnCommit s⟩
  · exact absurd (hp.symm.trans h) Bool.false_ne_true

/-- All that the dispatch can do: a command is performed, under its own well-formedness, as one that acts on the volatile state alone,
as one that reaches what survives a reset, or as one of the pins', which alone do not ask whether the part runs. -/
theorem exec_cases (c : Instr) (s : State) :
    (∃ f, exec c s = perform c.wf s f) ∨ (∃ f, exec c s = performLife c.wf s f) ∨
      (isPin c = true ∧ ∃ f, exec c s = performPins c.wf s f) := by
  cases hl : reachesLife c with
  | false => exact .inl (acts_of_not_reachesLife c hl s)
  | true =>
    cases hp : isPin c with
    | false => exact .inr (.inl (exec_of_reachesLife hl hp s))
    | true => exact .inr (.inr ⟨rfl, exec_of_isPin hp s⟩)

theorem exec_answers (c : Instr) (s : State) : ∃ t, exec c s = .next t := by
  obtain ⟨f, e⟩ | ⟨f, e⟩ | ⟨-, f, e⟩ := exec_cases c s
  · exact e ▸ perform_answers c.wf s f
  · exact e ▸ performLife_answers c.wf s f
  · exact e ▸ performPins_answers c.wf s f

theorem exec_pending (h : exec c s = .next t) : t.pending = s.pending := by
  obtain ⟨f, e⟩ | ⟨f, e⟩ | ⟨-, f, e⟩ := exec_cases c s
  · exact (perform_frame f (e ▸ h)).2
  · exact performLife_pending f (e ▸ h)
  · exact performPins_pending f (e ▸ h)

theorem exec_dead (ha : s.dev.alive = false) (hp : isPin c = false) : exec c s = .next s := by
  obtain ⟨f, e⟩ | ⟨f, e⟩ | ⟨hpin, -⟩ := exec_cases c s
  · exact e.trans (perform_dead f ha)
  · exact e.trans (performLife_dead f ha)
  · exact absurd (hp.symm.trans hpin) Bool.false_ne_true

theorem exec_ill (hw : c.wf = false) : exec c s = .next s := by
  have he := exec_cases c s
  rw [hw] at he
  obtain ⟨f, e⟩ | ⟨f, e⟩ | ⟨-, f, e⟩ := he
  · exact e.trans (perform_ill f)
  · exact e.trans (performLife_ill f)
  · exact e.trans (performPins_ill f)

/-- Settles O3: every one of the three ways of performing a command answers and keeps the queue. -/
theorem everyCommandAnswers : Obligations.EveryCommandAnswers := by
  unfold Obligations.EveryCommandAnswers EveryCommandAnswersNextState CommandsLeaveTheQueue
  exact ⟨exec_answers, fun _ _ _ => exec_pending⟩

/-- Settles O4: only the pins' way of performing a command does without a part that runs, and none does without well-formedness. -/
theorem commandsWithoutEffect : Obligations.CommandsWithoutEffect := by
  unfold Obligations.CommandsWithoutEffect DeadPartAnswersPinsOnly IllFormedCommandChangesNothing
  exact ⟨fun _ _ => exec_dead, fun _ _ => exec_ill⟩

end Sys2Proof.Machine
end

section
/-! SUPPORT. All that the operations of fabric time can change, and the counter through a beat's work (02). -/
namespace Sys2Proof.Machine

/-- A command that acts on the volatile state alone has its effect where it is ready. -/
theorem exec_of_ready {c : Instr} {s : State} (f : Life → Dev → Dev) (h : Ready c s) (e : exec c s = perform c.wf s f) :
    exec c s = .next { s with dev := f s.life s.dev } :=
  e.trans (perform_next f h.1 h.2)

variable (d : Dev)

/-! ## Entering a fabric-time state (02 R34, R36) -/

@[simp] theorem Dev.stageLocked_ft : d.stageLocked.ft = d.ft := by unfold Dev.stageLocked; split <;> rfl
@[simp] theorem Dev.stageLocked_lnk : d.stageLocked.lnk = d.lnk := by unfold Dev.stageLocked; split <;> rfl
@[simp] theorem Dev.stageLocked_word (a : Nat) : d.stageLocked.word a = d.word a := by unfold Dev.stageLocked; split <;> rfl
@[simp] theorem Dev.stageLocked_event (a : Nat) : d.stageLocked.event a = d.event a := by unfold Dev.stageLocked; split <;> rfl
@[simp] theorem Dev.modFt_event (f : FtState → FtState) (a : Nat) : (d.modFt f).event a = d.event a := rfl
@[simp] theorem Dev.modFt_word (f : FtState → FtState) (a : Nat) : (d.modFt f).word a = d.word a := rfl
@[simp] theorem Dev.waitsLost_ft : d.waitsLost.ft = d.ft := rfl
@[simp] theorem Dev.waitsLost_lnk : d.waitsLost.lnk = d.lnk := rfl
@[simp] theorem Dev.waitsLost_word (a : Nat) : d.waitsLost.word a = d.word a := rfl

/-- All that entering a fabric-time state changes of fabric time; FREE alone resets the increment. -/
theorem Dev.enterFt_ft (m : FtMode) : ∃ lo be st inc, (d.enterFt m).ft =
    { d.ft with mode := m, inLock := lo, selfBest := be, stepAllowed := st, incr := inc } ∧ (m ≠ .free → inc = d.ft.incr) := by
  unfold Dev.enterFt
  by_cases h : d.ft.mode = m
  · exact ⟨d.ft.inLock, d.ft.selfBest, d.ft.stepAllowed, d.ft.incr, by simp [← h], fun _ => rfl⟩
  · cases m <;> simp [h]

@[simp] theorem Dev.enterFt_mode (m : FtMode) : (d.enterFt m).ft.mode = m := by
  obtain ⟨lo, be, st, inc, h, -⟩ := d.enterFt_ft m; rw [h]
@[simp] theorem Dev.enterFt_now (m : FtMode) : (d.enterFt m).ft.now = d.ft.now := by
  obtain ⟨lo, be, st, inc, h, -⟩ := d.enterFt_ft m; rw [h]
@[simp] theorem Dev.enterFt_parent (m : FtMode) : (d.enterFt m).ft.parent = d.ft.parent := by
  obtain ⟨lo, be, st, inc, h, -⟩ := d.enterFt_ft m; rw [h]
@[simp] theorem Dev.enterFt_hops (m : FtMode) : (d.enterFt m).ft.hops = d.ft.hops := by
  obtain ⟨lo, be, st, inc, h, -⟩ := d.enterFt_ft m; rw [h]
@[simp] theorem Dev.enterFt_master (m : FtMode) : (d.enterFt m).ft.master = d.ft.master := by
  obtain ⟨lo, be, st, inc, h, -⟩ := d.enterFt_ft m; rw [h]
theorem Dev.enterFt_incr (m : FtMode) (hm : m ≠ .free) : (d.enterFt m).ft.incr = d.ft.incr := by
  obtain ⟨lo, be, st, inc, h, hi⟩ := d.enterFt_ft m; rw [h]; exact hi hm
@[simp] theorem Dev.enterFt_lnk (m : FtMode) : (d.enterFt m).lnk = d.lnk := by
  by_cases h : d.ft.mode = m
  · simp [Dev.enterFt, h]
  · cases m <;> simp [Dev.enterFt, h]
@[simp] theorem Dev.enterFt_word (m : FtMode) (a : Nat) : (d.enterFt m).word a = d.word a := by
  by_cases h : d.ft.mode = m
  · simp [Dev.enterFt, h]
  · cases m <;> simp [Dev.enterFt, h]

/-- Coming to LOCKED sets the first flag of FT_EVENT (02 Table 10). -/
theorem Dev.enterFt_locked_flags (h : d.ft.mode ≠ .locked) :
    ((d.enterFt .locked).event evFt).flags = (d.event evFt).flags ||| 1 := by
  simp [Dev.enterFt, h, Dev.setFlag, Dev.setEvent_flags]

@[simp] theorem Dev.nameMaster_ft (n p : Nat) (e : Bool) :
    (d.nameMaster n p e).ft = { d.ft with master := some n, masterPrio := p, external := e } := by simp [Dev.nameMaster]
@[simp] theorem Dev.nameMaster_lnk (n p : Nat) (e : Bool) : (d.nameMaster n p e).lnk = d.lnk := by simp [Dev.nameMaster]

/-! ## The work of a beat boundary (02 R24, R40) -/

/-- Slips change what is recorded of slips, and nothing else of fabric time. -/
theorem Dev.applySlips_ft (b : Nat) : ∃ sl ad ap la re no, (d.applySlips b).ft =
    { d.ft with slip := sl, added := ad, applied := ap, late := la, reportLate := re, notices := no } := by
  unfold Dev.applySlips
  dsimp only
  split
  · exact ⟨_, _, _, _, _, _, rfl⟩
  · split <;> exact ⟨_, _, _, _, _, _, Dev.setEvent_ft _ _ _⟩

/-- The work of a boundary changes the record of slips, the counts of boundaries and what was heard: the counter, its
increment and the state stay. -/
theorem Dev.beatWork_ft : ∃ sl ad ap la re no sb mi he, d.beatWork.ft =
    { d.ft with slip := sl, added := ad, applied := ap, late := la, reportLate := re, notices := no
                selfBest := sb, missed := mi, heard := he } := by
  obtain ⟨sl, ad, ap, la, re, no, h⟩ := d.applySlips_ft d.beatNo
  have hp : d.beatWork.ft = (d.applySlips d.beatNo).beatCounts.ft :=
    (Dev.sendBeats_ft _).trans (runAll_keep Dev.ft _ (fun p x => x.portBeat_ft p) _ _)
  rw [hp, Dev.beatCounts, Dev.modFt_ft, h]
  exact ⟨_, _, _, _, _, _, _, _, _, rfl⟩

/-! ## The tick of the fabric-time clock (02 R22) -/

/-- The counter with its fraction, in units of 2^-32 ftu, after one clock. -/
def FtState.tickSum (f : FtState) : Nat := f.now.toNat * 2 ^ 32 + f.frac.toNat + f.incr.toNat

/-- One clock advances the counter, then does the work of the boundary that it passed, if it passed one. -/
theorem Dev.ftTick_enabled (h : d.ftEn = true) :
    ∃ d1, d1.ft = { d.ft with now := BitVec.ofNat 64 (d.ft.tickSum / 2 ^ 32), frac := BitVec.ofNat 32 d.ft.tickSum } ∧
      (d.ftTick = d1 ∨ d.ftTick = d1.beatWork) := by
  unfold Dev.ftTick
  rw [if_pos h]
  dsimp only
  split
  · exact ⟨_, Dev.modFt_ft _ _, .inl rfl⟩
  · exact ⟨_, Dev.modFt_ft _ _, .inr rfl⟩

theorem Dev.ftTick_counter (h : d.ftEn = true) :
    d.ftTick.ft.now = BitVec.ofNat 64 (d.ft.tickSum / 2 ^ 32) ∧ d.ftTick.ft.frac = BitVec.ofNat 32 d.ft.tickSum := by
  obtain ⟨d1, h1, e | e⟩ := d.ftTick_enabled h
  · rw [e, h1]; exact ⟨rfl, rfl⟩
  · obtain ⟨sl, ad, ap, la, re, no, sb, mi, he, hw⟩ := d1.beatWork_ft
    rw [e, hw, h1]; exact ⟨rfl, rfl⟩

theorem Dev.ftTick_disabled (h : d.ftEn = false) : d.ftTick = { d with clk := d.clk + 640 } := by simp [Dev.ftTick, h]

/-- An empty queue steps by an idle tick. -/
theorem step_of_empty {s : State} (h : s.pending = []) : step s = .next (idle s) := by unfold step; rw [h]
theorem idle_of_alive {s : State} (h : s.dev.alive = true) : idle s = { s with dev := s.dev.ftTick } := if_pos h
theorem idle_of_dead {s : State} (h : s.dev.alive = false) : idle s = s := by simp [idle, h]

/-- Settles O2: an idle step is the tick, whose boundary work leaves the counter alone. -/
theorem idleStepIsOneFabricClock : Obligations.IdleStepIsOneFabricClock := by
  unfold Obligations.IdleStepIsOneFabricClock
  intro s hq
  have hstep := step_of_empty hq
  refine ⟨fun ha he => ?_, fun ha he => ?_, fun ha => ?_⟩
  · rw [idle_of_alive ha] at hstep
    obtain ⟨hnow, hfrac⟩ := s.dev.ftTick_counter he
    exact ⟨_, hstep, hq, rfl, hnow, hfrac⟩
  · rw [idle_of_alive ha, s.dev.ftTick_disabled he] at hstep
    exact ⟨_, hstep, rfl, rfl⟩
  · rw [hstep, idle_of_dead ha]

/-! ## Election, lock and loss of the parent (02 R27, R29, R34) -/

/-- Where nothing heard names the master, giving up the parent leaves none, and only the state may change with it. -/
theorem Dev.unparent_alone (hn : ∀ e ∈ d.ft.heard, d.ft.master ≠ some e.2.node) :
    d.unparent.ft.parent = none ∧ d.unparent.ft.now = d.ft.now ∧
      (d.ft.mode = .locked → d.unparent.ft.mode = .holdover) ∧ (d.ft.mode = .acquire → d.unparent.ft.mode = .free) := by
  unfold Dev.unparent
  dsimp only
  split
  case h_1 => cases hm : d.ft.mode <;> simp [hm]
  case h_2 e es heq =>
    have he := List.mem_filter.mp (heq ▸ List.mem_cons_self : e ∈ _)
    simp only [Dev.modFt_ft, Bool.and_eq_true] at he
    exact absurd (of_decide_eq_true he.2.1) (hn e he.1)

/-- A parent dropped is one given up, once what was heard of it is forgotten. -/
theorem Dev.dropParent_eq {p : Nat} (hp : d.ft.parent = some p) :
    d.dropParent = (d.modFt (fun f => { f with heard := mapDel f.heard p })).unparent := by simp [Dev.dropParent, hp]

/-- Settles O9: entering a state keeps the counter, and each command acts under its one condition. -/
theorem fabricTimeStateChanges : Obligations.FabricTimeStateChanges := by
  unfold Obligations.FabricTimeStateChanges
  refine ⟨fun s hr hm hb hh he => ?_, fun s hr hm hl => ?_, fun s p hr hp hm hn => ?_⟩
  · refine ⟨_, exec_of_ready _ hr (exec_masterElected s), ?_⟩
    dsimp only
    rw [if_pos ⟨hm, hb, hh, he⟩]
    refine ⟨by simp, by simp, by simp, by simp, by simp, fun hs => ?_⟩
    rw [Dev.enterFt_incr _ _ (by decide)]
    simp [hs, Config.incrNominal]
  · refine ⟨_, exec_of_ready _ hr (exec_lockAcquired s), ?_⟩
    dsimp only
    rw [if_pos ⟨hm, hl⟩]
    exact ⟨s.dev.enterFt_mode _, s.dev.enterFt_now _, s.dev.enterFt_locked_flags (by simp [hm])⟩
  · refine ⟨_, exec_of_ready _ hr (exec_parentLost s), ?_⟩
    dsimp only
    rw [if_pos (by simp [hp, hm]), s.dev.dropParent_eq hp]
    exact Dev.unparent_alone _ hn

end Sys2Proof.Machine
end

section
/-! SUPPORT. The pulse input, FT_CTL, and the increment the part chooses (02 R23, R26, R30). -/
namespace Sys2Proof.Machine

/-! ## Values kept within limits -/

section
variable {lo hi v c : Nat}
theorem le_clampN (h : lo ≤ hi) : lo ≤ clampN lo hi v := by
  unfold clampN
  split
  · omega
  · split <;> omega
theorem clampN_le (h : lo ≤ hi) : clampN lo hi v ≤ hi := by
  unfold clampN
  split
  · omega
  · split <;> omega
theorem clampN_le_of_le (hc : lo ≤ c) (hv : v ≤ c) : clampN lo hi v ≤ c := by
  unfold clampN
  split
  · omega
  · split <;> omega
theorem le_clampN_of_le (hc : c ≤ hi) (hv : c ≤ v) : c ≤ clampN lo hi v := by
  unfold clampN
  split
  · omega
  · split <;> omega
end

variable (d : Dev)

/-! ## The increment (02 R23, R30, R33) -/

/-- The increment set is the one wanted, kept within 100 ppm of nominal. -/
theorem Dev.setIncr_incr (w : Nat) : (d.setIncr w).ft.incr.toNat =
    clampN (Config.incrNominal - 100 * Config.incrPpm) (Config.incrNominal + 100 * Config.incrPpm) w := by
  have h : clampN (Config.incrNominal - 100 * Config.incrPpm) (Config.incrNominal + 100 * Config.incrPpm) w ≤ _ :=
    clampN_le (by decide)
  simp only [Dev.setIncr, Dev.modFt_ft, BitVec.toNat_ofNat]
  exact Nat.mod_eq_of_lt (Nat.lt_of_le_of_lt h (by decide))

/-- The servo sets an increment no lower for a positive offset and no higher for a negative one. -/
theorem Dev.servo_eq (off : Int) : ∃ w, d.servo off = d.takeFree.2.setIncr w ∧
    (0 < off → d.ft.incr.toNat ≤ w) ∧ (off < 0 → w ≤ d.ft.incr.toNat) := by
  unfold Dev.servo
  dsimp only
  refine ⟨_, rfl, fun h => ?_, fun h => ?_⟩
  · rw [if_pos h]; omega
  · rw [if_neg (by omega), if_pos h]; omega

/-- At an edge of the pulse the increment wanted is no higher for a counter that was ahead and no lower for one that was behind. -/
theorem Dev.steer_eq (err : Int) : ∃ w, d.steer err = d.takeFree.2.setIncr w ∧
    (0 < err → w ≤ d.ft.incr.toNat) ∧ (err < 0 → d.ft.incr.toNat ≤ w) := by
  unfold Dev.steer
  split
  · obtain ⟨w, e, hpos, hneg⟩ := d.servo_eq (-err)
    exact ⟨w, e, fun h => hneg (by omega), fun h => hpos (by omega)⟩
  · exact ⟨_, rfl, fun h => by omega, fun h => by omega⟩

/-- Steering changes the increment alone, within 100 ppm of nominal: an increment within those limits falls for a counter that
was ahead and rises for one that was behind, if it moves. -/
theorem Dev.steer_ft (err : Int) : ∃ i, (d.steer err).ft = { d.ft with incr := i } ∧
    Config.incrNominal - 100 * Config.incrPpm ≤ i.toNat ∧ i.toNat ≤ Config.incrNominal + 100 * Config.incrPpm ∧
    (0 < err → Config.incrNominal - 100 * Config.incrPpm ≤ d.ft.incr.toNat → i.toNat ≤ d.ft.incr.toNat) ∧
    (err < 0 → d.ft.incr.toNat ≤ Config.incrNominal + 100 * Config.incrPpm → d.ft.incr.toNat ≤ i.toNat) := by
  obtain ⟨w, e, hahead, hbehind⟩ := d.steer_eq err
  refine ⟨(d.takeFree.2.setIncr w).ft.incr, by rw [e]; rfl, ?_⟩
  rw [Dev.setIncr_incr]
  exact ⟨le_clampN (by decide), clampN_le (by decide), fun h hc => clampN_le_of_le hc (hahead h),
    fun h hc => le_clampN_of_le hc (hbehind h)⟩

/-! ## Writes of registers and fabric time (17 R432, R437) -/

@[simp] theorem storeReg_ft (req : Req) (off : Nat) (v : W32) : (storeReg req off v d).ft = d.ft := by
  unfold storeReg
  split
  · rfl
  · split
    · rfl
    · split
      · simp
      · dsimp only
        split <;> simp

@[simp] theorem applyHi_ft (req : Req) (off : Nat) (v : W32) : (applyHi req off v d).ft = d.ft := by
  unfold applyHi
  dsimp only
  rw [storeReg_ft]
  split <;> simp

/-- A register without a range, a lock or a hold on any of its bits takes its written bits as they come. -/
theorem storeReg_plain {req : Req} {off : Nat} {r : RegRow} {v : W32} (hr : findRow off = some r) (ho : off ≠ 0x3A00008)
    (hv : r.inRange v = true) (hl : lockedMask req off r (d.word off) = 0#32) (hh : heldMask d off (d.word off) = 0#32) :
    storeReg req off v d = d.setWord off
      ((d.word off &&& ~~~(BitVec.ofNat 32 (r.rw ||| r.rwl))) ||| (v &&& BitVec.ofNat 32 (r.rw ||| r.rwl))) := by
  simp only [storeReg, hr, ho, hv, hl, hh, decide_false, Bool.false_and, Bool.not_true, Bool.false_eq_true, if_false,
    BitVec.and_zero, if_true, BitVec.not_zero, BitVec.and_allOnes]

/-- The row of FT_CTL (02 Table 5). -/
def ftCtlRow : RegRow := { base := 0x2A00010, rw := 0xFF07, y := 0xFF07, reset := 0x1 }

theorem findRow_ftCtl : findRow (offFt + 0x10) = some ftCtlRow := by decide +kernel

theorem lockedMask_ftCtl (req : Req) (old : W32) : lockedMask req (offFt + 0x10) ftCtlRow old = 0#32 := by
  have hlock : fbit (BitVec.ofNat 32 ftCtlRow.rwl) 31 = false := rfl
  have hring : isRingCfg (offFt + 0x10) = false := by decide +kernel
  have hdebug : offFt + 0x10 ≠ 0x3800008 := by decide
  simp only [lockedMask, hlock, hring, hdebug, Bool.false_and, Bool.false_eq_true, if_false]

theorem heldMask_ftCtl (old : W32) : heldMask d (offFt + 0x10) old = 0#32 := by
  have hadm : isAdmCfg (offFt + 0x10) = false := by decide +kernel
  have hring : isRingBase (offFt + 0x10) = false := by decide +kernel
  have hcrc : offFt + 0x10 ≠ 0x10008 := by decide
  simp only [heldMask, hadm, hring, hcrc, decide_false, Bool.false_and, Bool.false_eq_true, if_false]

/-- A write of FT_CTL takes EN as written. -/
theorem storeReg_ftEn (req : Req) (v : W32) : (storeReg req (offFt + 0x10) v d).ftEn = fbit v 0 := by
  rw [storeReg_plain d findRow_ftCtl (by decide) rfl (lockedMask_ftCtl req _) (heldMask_ftCtl d _)]
  simp [Dev.ftEn, fbit, ftCtlRow]

/-- Fabric time switched off is FREE, with no parent and no members, and holds its counter (02 R26). -/
@[simp] theorem Dev.ftOff_mode : d.ftOff.ft.mode = .free := by simp [Dev.ftOff]
@[simp] theorem Dev.ftOff_now : d.ftOff.ft.now = d.ft.now := by simp [Dev.ftOff]
@[simp] theorem Dev.ftOff_parent : d.ftOff.ft.parent = none := by simp [Dev.ftOff]
@[simp] theorem Dev.ftOff_members : d.ftOff.ft.members = [] := by simp [Dev.ftOff]
@[simp] theorem Dev.ftOff_ftEn : d.ftOff.ftEn = d.ftEn := by simp [Dev.ftOff, Dev.ftEn]

theorem fabricTimeDisabled : FabricTimeDisabled := by
  intro s req val hr hv
  have he : (storeReg req (offFt + 0x10) val (s.dev.dropShadow req)).ftEn = false := (storeReg_ftEn _ req val).trans hv
  refine ⟨_, exec_of_ready _ hr (exec_ftDisable s req val), ?_⟩
  simp [he]

/-! ## Beat boundaries and notices (02 R24, R39) -/

theorem Dev.toBoundary_ft : d.toBoundary.ft = { d.ft with now := BitVec.ofNat 64 ((d.beatNo + 1) * 2 ^ 20), frac := 0 } := by
  have h : Config.beat = 2 ^ 20 := rfl
  rw [← h]
  rfl

theorem exec_beatBoundary_ready {s : State} (hr : Ready .beatBoundary s) (he : s.dev.ftEn = true) :
    exec .beatBoundary s = .next { s with dev := s.dev.toBoundary.beatWork } := by
  rw [exec_of_ready _ hr (exec_beatBoundary s), if_pos he]

/-- What NOTICE_EXPIRY keeps: every notice but those named whose 64 beats have passed. -/
theorem exec_noticeExpiry_mem {s : State} {r : Nat} {n : W16} (hr : Ready (.noticeExpiry r n) s) :
    ∃ t, exec (.noticeExpiry r n) s = .next t ∧ ∀ x, x ∈ t.dev.ft.notices ↔ x ∈ s.dev.ft.notices ∧
      ¬(x.notice.requester = r ∧ x.notice.number = n ∧ 64 ≤ beatDiff s.dev.beatNo x.notice.applyBeat.toNat) := by
  refine ⟨_, exec_of_ready _ hr (exec_noticeExpiry s r n), fun x => ?_⟩
  simp only [Dev.modFt_ft, List.mem_filter, Bool.not_eq_true', ← Bool.not_eq_true, Bool.and_eq_true, beq_iff_eq,
    decide_eq_true_eq, and_assoc]

theorem beatBoundaryAndNoticeExpiry : BeatBoundaryAndNoticeExpiry := by
  refine ⟨fun s hr he => ?_, fun s r n hr => ?_⟩
  · obtain ⟨sl, ad, ap, la, re, no, sb, mi, hd, e⟩ := s.dev.toBoundary.beatWork_ft
    refine ⟨_, exec_beatBoundary_ready hr he, ?_⟩
    rw [e, s.dev.toBoundary_ft]
    exact ⟨rfl, rfl, rfl, rfl⟩
  · obtain ⟨t, ht, hmem⟩ := exec_noticeExpiry_mem hr
    refine ⟨t, ht, fun x hx => (hmem x).mp hx, fun x hx => ?_⟩
    exact (Classical.em _).elim .inr fun hn => .inl ((hmem x).mpr ⟨hx, hn⟩)

/-! ## The pulse input (02 R23, R30) -/

/-- An edge at a disciplined master that expected one: the edge is recorded, the next is expected a second after the one
expected, and the increment is steered by the counter's lead over it. -/
theorem exec_ftPpsEdge_expected {s : State} {e : W64} (hr : Ready .ftPpsEdge s) (hm : s.dev.ft.mode = .master)
    (hs : s.dev.ftSrc = true) (ha : s.dev.ft.epochArmed = false) (he : s.dev.ft.ppsExpect = some e) :
    ∃ d : Dev, d.ft = { s.dev.ft with
        ppsCap := s.dev.ft.now, ppsValid := true, ppsAt := some s.dev.clk, external := s.dev.ft.refValid
        ppsExpect := some (e + BitVec.ofNat 64 (1000000000 * 1024)) } ∧
      exec .ftPpsEdge s = .next { s with dev := d.steer (ftDiff s.dev.ft.now e) } := by
  rw [exec_of_ready _ hr (exec_ftPpsEdge s)]
  simp only [hm, hs, ha, he, decide_true, Bool.and_true, Bool.and_false, Dev.modFt_ft, Bool.false_eq_true, if_false, if_true]
  exact ⟨_, by simp [hm, ha, ppsPeriod], rfl⟩

theorem pulsePerSecond : PulsePerSecond := by
  refine ⟨fun s hr hen hd => ?_, fun s hr hm hs ha => ?_, fun s e hr hm hs ha he => ?_, fun s hr hl => ?_,
    fun s hr hl hm hs hv => ?_, fun s req hi hr => ?_⟩
  · have hdis : (decide (s.dev.ft.mode = .master) && s.dev.ftSrc) = false := by simpa using hd
    refine ⟨_, exec_of_ready _ hr (exec_ftPpsEdge s), ?_⟩
    simp [hdis, hen]
  · refine ⟨_, exec_of_ready _ hr (exec_ftPpsEdge s), ?_⟩
    simp [hm, hs, ha]
  · obtain ⟨d, hd, hx⟩ := exec_ftPpsEdge_expected hr hm hs ha he
    obtain ⟨i, hi, hlo, hhi, hahead, hbehind⟩ := d.steer_ft (ftDiff s.dev.ft.now e)
    rw [hd] at hi hahead hbehind
    refine ⟨_, hx, ?_⟩
    rw [hi]
    exact ⟨rfl, rfl, rfl, hlo, hhi, hahead, hbehind⟩
  · rw [exec_of_ready _ hr (exec_ppsMissing s)]
    simp [hl]
  · refine ⟨_, exec_of_ready _ hr (exec_ppsMissing s), ?_⟩
    simp [hl, hm, hs, hv]
  · refine ⟨_, exec_of_ready _ hr (exec_ftEpochArm s req hi), ?_⟩
    simp

/-- Settles O10: the three parts of the counter's behaviour. -/
theorem fabricTimeCounter : Obligations.FabricTimeCounter := by
  unfold Obligations.FabricTimeCounter
  exact ⟨beatBoundaryAndNoticeExpiry, pulsePerSecond, fabricTimeDisabled⟩

end Sys2Proof.Machine
end

section
/-! SUPPORT. Slip notices, beats and probes: what the work of a BEAT leaves of the ports, and that a packet handed to a port waits
there or is sent (02 R26-R31, R39; 13 R352, R358, R368). -/
namespace Sys2Proof.Machine

variable (d : Dev)

/-! ## Slip notices (02 R39) -/

/-- Learning a member changes the member list alone of fabric time. -/
theorem Dev.learn_ft (n : Nat) : ∃ ms, (d.learn n).2.ft = { d.ft with members := ms } := by
  unfold Dev.learn
  split
  · exact ⟨_, rfl⟩
  · split
    · exact ⟨_, Dev.setFlag_ft _ _ _⟩
    · exact ⟨_, rfl⟩

/-- Whether a notice is a copy of one held: requester and number name it. -/
theorem slipHeld_iff (l : List HeldNotice) (n : SlipNotice) :
    l.any (fun h => h.notice.requester == n.requester && h.notice.number == n.number) = true ↔
      ∃ x ∈ l, x.notice.requester = n.requester ∧ x.notice.number = n.number := by
  simp [List.any_eq_true]

/-- A notice that is held already is taken no more. -/
theorem Dev.takeSlip_held (p : Nat) (n : SlipNotice)
    (h : ∃ x ∈ d.ft.notices, x.notice.requester = n.requester ∧ x.notice.number = n.number) : d.takeSlip p n = d :=
  if_pos ((slipHeld_iff _ n).mpr h)

/-- A notice that is not held is held from then on. -/
theorem Dev.takeSlip_new (p : Nat) (n : SlipNotice)
    (h : ¬∃ x ∈ d.ft.notices, x.notice.requester = n.requester ∧ x.notice.number = n.number) :
    ∃ x : HeldNotice, (d.takeSlip p n).ft.notices = d.ft.notices ++ [x] ∧ x.notice = n := by
  obtain ⟨ms, hl⟩ := d.learn_ft n.requester
  unfold Dev.takeSlip
  rw [if_neg (fun he => h ((slipHeld_iff _ n).mp he))]
  simp only [Dev.floodSlip_ft, Dev.setFlagIf_ft, Dev.modFt_ft, hl]
  exact ⟨_, rfl, rfl⟩

theorem exec_slip_ready {s : State} {p : Nat} {n : SlipNotice} (hr : Ready (.slip p n) s) (hb : (s.dev.port p).beats = true)
    (hd : (s.dev.port p).sameDomain = true) : exec (.slip p n) s = .next { s with dev := s.dev.takeSlip p n } := by
  rw [exec_of_ready _ hr (exec_slip s p n), if_pos (by simp [hb, hd])]

/-- A request that is met holds one more notice, under the next number. -/
theorem Dev.slipRequest_ft (val : W32) (hn : fld val 15 0 ≠ 0) (ha : fld val 15 0 * d.slotFtu < 2 ^ 48) (hr : d.releasing = true) :
    (d.slipRequest val).ft = { d.ft with
      notices := d.ft.notices ++ [{ notice := {
        requester := d.node, number := d.ft.nextNotice, amount := fld val 15 0 * d.slotFtu
        applyBeat := BitVec.ofNat 44 (d.beatNo + fld (d.word (offFt + 0x38)) 5 0) } }]
      nextNotice := d.ft.nextNotice + 1 } := by
  have hok : ¬(2 ^ 48 ≤ fld val 15 0 * d.slotFtu ∨ d.releasing = false) := by simp [hr]; omega
  unfold Dev.slipRequest
  simp only [hn, hok, if_false, Dev.floodSlip_ft, Dev.modFt_ft]

theorem Dev.slipRequest_refused (val : W32) (hn : fld val 15 0 ≠ 0) (hr : d.releasing = false) :
    d.slipRequest val = d.setFlag evFt 6 := by simp [Dev.slipRequest, hn, hr]

theorem slipNotices : SlipNotices := by
  refine ⟨fun s req val hr hn ha hl => ?_, fun s req val hr hn hl => ?_, fun s p n hr hb hd hnew => ?_,
    fun s p n hr hb hd hheld => ?_⟩
  · have hft := (s.dev.dropShadow req).slipRequest_ft val hn ha hl
    exact ⟨_, _, exec_of_ready _ hr (exec_slipRequest s req val), congrArg FtState.notices hft, rfl, rfl, rfl, rfl, rfl, rfl,
      (congrArg FtState.slip hft).trans rfl⟩
  · refine ⟨_, exec_of_ready _ hr (exec_slipRequest s req val), ?_⟩
    dsimp only
    rw [(s.dev.dropShadow req).slipRequest_refused val hn hl]
    exact ⟨Dev.setFlag_ft _ _ _, Dev.setEvent_flags _ _ _⟩
  · obtain ⟨x, hx⟩ := s.dev.takeSlip_new p n (by simpa using hnew)
    exact ⟨_, x, exec_slip_ready hr hb hd, hx⟩
  · rw [exec_slip_ready hr hb hd, s.dev.takeSlip_held p n hheld]

/-! ## The work of a BEAT leaves the ports (02 R27-R36) -/

@[simp] theorem Dev.learn_lnk (n : Nat) : (d.learn n).2.lnk = d.lnk := by
  unfold Dev.learn
  split
  · rfl
  · split
    · exact Dev.setFlag_lnk _ _ _
    · rfl
@[simp] theorem Dev.takeParent_lnk (p : Nat) (c : Candidate) : (d.takeParent p c).lnk = d.lnk := rfl
@[simp] theorem Dev.servo_lnk (off : Int) : (d.servo off).lnk = d.lnk := rfl
@[simp] theorem Dev.unparent_lnk : d.unparent.lnk = d.lnk := by
  unfold Dev.unparent
  dsimp only
  split
  · split <;> simp
  · simp
@[simp] theorem Dev.masterHeard_lnk (p : Nat) (c : Candidate) : (d.masterHeard p c).lnk = d.lnk := by
  unfold Dev.masterHeard
  dsimp only
  split
  · split
    · rfl
    · exact Dev.unparent_lnk _
  · rfl
@[simp] theorem Dev.yieldMaster_lnk : d.yieldMaster.lnk = d.lnk := by
  unfold Dev.yieldMaster; split <;> simp
@[simp] theorem Dev.adopt_lnk : d.adopt.lnk = d.lnk := by
  unfold Dev.adopt
  split
  · rfl
  · dsimp only
    split
    · split <;> rfl
    · split
      · rfl
      · split <;> simp
@[simp] theorem Dev.align_lnk (stamp : W64) (delay : W32) : (d.align stamp delay).lnk = d.lnk := by
  unfold Dev.align
  dsimp only
  split
  · split <;> simp
  · split <;> simp
  · split <;> simp
  · simp
  · simp

/-- Of the ports a BEAT changes the one it came on: its heartbeat, and whether it leads to a child (13 R369). -/
theorem Dev.takeBeat_lnk (p : Nat) (b : BeatBody) : (d.takeBeat p b).lnk =
    (d.modPort p (fun q => { q with missed := 0, child := b.parent && decide (b.domain = d.domain) })).lnk := by
  unfold Dev.takeBeat
  dsimp only
  split
  · rfl
  · split <;> simp

/-! ## A packet handed to a port (13 R352, R358) -/

/-- A packet waits at a port, or has left it, under the key phase that stood as it left. -/
def Dev.WaitsOrSent (d : Dev) (p : Nat) (pk : Packet) : Prop :=
  pk ∈ (d.port p).txq ∨ ∃ k, Out.packet p { pk with kphase := k } ∈ d.out

@[simp] theorem PortState.frameFlit_txq (fl : List Byte) (x : PortState) : (x.frameFlit fl).txq = x.txq := by
  have h : x.markIfDue.txq = x.txq := by unfold PortState.markIfDue; split <;> rfl
  unfold PortState.frameFlit
  dsimp only
  split <;> exact h

@[simp] theorem Dev.putPort_port_same (p : Nat) (x : PortState) : (d.putPort p x).port p = x := by simp [Dev.port, Dev.putPort]
@[simp] theorem Dev.emit_port (o : Out) (p : Nat) : (d.emit o).port p = d.port p := rfl

variable {d} {p : Nat} {pk : Packet}

/-- What keeps the packets that wait and only adds to what is sent keeps it so. -/
theorem Dev.WaitsOrSent.mono {e : Dev} (h : d.WaitsOrSent p pk) (hq : (e.port p).txq = (d.port p).txq) (ho : d.out ⊆ e.out) :
    e.WaitsOrSent p pk := by
  rcases h with h | ⟨k, h⟩
  · exact .inl (hq ▸ h)
  · exact .inr ⟨k, ho h⟩

theorem Dev.WaitsOrSent.linkIfDue (h : d.WaitsOrSent p pk) : (d.linkIfDue p).WaitsOrSent p pk := by
  unfold Dev.linkIfDue
  split
  · exact h.mono (by simp [Dev.sendLink]) (List.subset_cons_self _ _)
  · exact h

theorem Dev.WaitsOrSent.sendFlit (h : d.WaitsOrSent p pk) (vc : Nat) (fresh : Bool) : (d.sendFlit p vc fresh).WaitsOrSent p pk := by
  unfold Dev.sendFlit
  dsimp only
  split
  · exact h
  · exact Dev.WaitsOrSent.linkIfDue (h.mono (by simp) (List.Subset.refl _))

/-- A packet but a BEAT leaves a port with its key phase alone rewritten. -/
theorem Dev.dress_eq (d : Dev) (p : Nat) (ht : pk.type ≠ tyBeat) :
    d.dress p pk = { pk with kphase := (d.port p).isSealed && (d.port p).txPhase } := by simp [Dev.dress, ht]

/-- The packet that begins leaves the queue as it is sent; only a BEAT's data changes with it (13 R368). -/
theorem Dev.WaitsOrSent.beginPacket (h : d.WaitsOrSent p pk) (ht : pk.type ≠ tyBeat) (vc : Nat) :
    (d.beginPacket p vc).WaitsOrSent p pk := by
  unfold Dev.beginPacket
  split
  · exact h
  next k _ =>
    rcases h with h | ⟨j, h⟩
    · by_cases hk : pk = k
      · subst hk
        exact .inr ⟨_, by rw [d.dress_eq p ht]; exact List.mem_cons_self⟩
      · exact .inl (by simpa using (List.mem_erase_of_ne hk).mpr h)
    · exact .inr ⟨j, List.mem_cons_of_mem _ h⟩

theorem Dev.WaitsOrSent.pumpPort (ht : pk.type ≠ tyBeat) (n : Nat) (h : d.WaitsOrSent p pk) :
    (d.pumpPort p n).WaitsOrSent p pk := by
  induction n generalizing d with
  | zero => exact h
  | succ n ih =>
    unfold Dev.pumpPort
    split
    · exact h
    next vc fresh _ =>
      refine ih (Dev.WaitsOrSent.sendFlit ?_ vc fresh)
      split
      · exact h.beginPacket ht vc
      · exact h

/-- A packet handed to a port, but a BEAT, waits there or is sent. -/
theorem Dev.sendOn_waitsOrSent (d : Dev) (p : Nat) (ht : pk.type ≠ tyBeat) : (d.sendOn p pk).WaitsOrSent p pk :=
  Dev.WaitsOrSent.pumpPort ht _ (.inl (by simp))

/-- A packet made for the partner of a port has 31 hops and the data given, and waits at the port or is sent. -/
theorem Dev.sendLocal_waitsOrSent (d : Dev) (p : Nat) {ty : Nat} {bs : List Byte} (ht : ty ≠ tyBeat) :
    ∃ pk : Packet, pk.type = ty ∧ pk.hops = 31 ∧ pk.data = bs ∧ (d.sendLocal p ty bs).WaitsOrSent p pk :=
  ⟨_, rfl, rfl, rfl, d.sendOn_waitsOrSent p ht⟩

/-! ## Beats and probes (02 R31; 13 R368, R369) -/

/-- A port that exchanges BEATs, or is in EXCHANGE, sends its probe. -/
theorem exec_probeExchange_ready {s : State} (hr : Ready (.probeExchange p) s)
    (hb : (s.dev.port p).beats = true ∨ (s.dev.port p).mode = .exchange) : exec (.probeExchange p) s =
      .next { s with dev := s.dev.sendLocal p tyProbe (leBytes 8 s.dev.ft.now.toNat ++ leBytes 16 0) } := by
  rw [exec_of_ready _ hr (exec_probeExchange s p), if_pos (by simpa using hb)]

theorem exec_probe_answer {s : State} {t1 t2 t3 : W64} (hr : Ready (.probe p true t1 t2 t3) s)
    (hb : (s.dev.port p).beats = true ∨ (s.dev.port p).mode = .exchange) : exec (.probe p true t1 t2 t3) s =
      .next { s with dev := s.dev.probeResult p t1 t2 t3 s.dev.ft.now } := by
  rw [exec_of_ready _ hr (exec_probe s p true t1 t2 t3), if_pos (by simpa using hb), if_pos rfl]

/-- An answer of training adds to the count and to the sums (02 R31). -/
theorem Dev.probeResult_training (d : Dev) (p : Nat) (t1 t2 t3 t4 : W64) (h : (d.port p).probes < 64) :
    ((d.probeResult p t1 t2 t3 t4).port p).probes = (d.port p).probes + 1 ∧
      ((d.probeResult p t1 t2 t3 t4).port p).rttSum = (d.port p).rttSum + (ftDiff t4 t1 - ftDiff t3 t2) := by
  unfold Dev.probeResult
  simp only [Dev.modPort_port_same, h, if_true]
  split <;> exact ⟨rfl, rfl⟩

theorem beatsAndProbes : BeatsAndProbes := by
  refine ⟨fun s p b hr hb => ?_, fun s p hr hb => ?_, fun s p t1 t2 t3 hr hb hp => ?_⟩
  · refine ⟨_, exec_of_ready _ hr (exec_beatReceived s p b), ?_⟩
    dsimp only
    rw [if_pos hb, Dev.port, Dev.takeBeat_lnk]
    exact congrArg PortState.missed (Dev.modPort_port_same _ p _)
  · refine ⟨_, exec_probeExchange_ready hr hb, Dev.sendLocal_ft _ _ _ _, ?_⟩
    obtain ⟨l, o, e⟩ := s.dev.sendLocal_eq p tyProbe (leBytes 8 s.dev.ft.now.toNat ++ leBytes 16 0)
    exact ⟨by rw [e], by rw [e], s.dev.sendLocal_waitsOrSent p (by decide)⟩
  · exact ⟨_, exec_probe_answer hr hb, s.dev.probeResult_training p t1 t2 t3 _ (by omega)⟩

/-- Settles O11: what is told of slips, and what of beats and probes. -/
theorem slipsBeatsAndProbes : Obligations.SlipsBeatsAndProbes := by
  unfold Obligations.SlipsBeatsAndProbes
  exact ⟨slipNotices, beatsAndProbes⟩

end Sys2Proof.Machine
end
